-- ==== Sys2Proof/Word.lean ====
section
/-! DEFINITION. The machine's word types and their plainest arithmetic. -/

namespace Sys2Proof

/-- A byte (00 R2). -/
abbrev Byte := BitVec 8
/-- A 32-bit word: an instruction word, a lane of a register (03 R62, 07). -/
abbrev Word := BitVec 32
/-- A 64-bit word: an address, a pair, a literal (03 R63, R72). -/
abbrev DWord := BitVec 64
/-- One bit for each lane of a group, lane 0 in bit 0 (02 R32). -/
abbrev Mask := BitVec 32

/-- The 32 lanes of a vector value, lane 0 first (02 R32). -/
abbrev Lanes := List Word

namespace Lanes

/-- Lane `l`; a lane that is not there reads 0. -/
def at' (x : Lanes) (l : Nat) : Word := x.getD l 0

/-- The vector whose lane `l` is `f l`. -/
def ofFn (f : Nat → Word) : Lanes := (List.range 32).map f

/-- One value in every lane. -/
def splat (w : Word) : Lanes := List.replicate 32 w

/-- All lanes 0. -/
def zero : Lanes := splat 0

end Lanes

/-- Lane `l` of a mask. -/
def Mask.lane (m : Mask) (l : Nat) : Bool := m.getLsbD l

/-- The mask whose lane `l` is `f l`. -/
def Mask.ofFn (f : Nat → Bool) : Mask :=
  BitVec.ofNat 32 ((List.range 32).foldr (fun l acc => 2 * acc + (f l).toNat) 0)

/-- The lanes of a mask, ascending (R6 Active()). -/
def Mask.lanes (m : Mask) : List Nat := (List.range 32).filter m.lane

/-- The lowest lane of a mask, or none. -/
def Mask.lowest (m : Mask) : Option Nat := m.lanes.head?

end Sys2Proof
end

