-- ==== Sys2Proof/Machine/Memory.lean ====
section
/-! DEFINITION. Sparse tables, and byte memory in its one canonical form. -/

namespace Sys2Proof.Machine

/-! ### Sparse tables -/

/-- A table by number, keys ascending; a key that is not listed holds the default that the reader names. -/
abbrev Table (α : Type) := List (Nat × α)

/-- The entry of a key, if it is listed. -/
def Table.find {α : Type} (t : Table α) (k : Nat) : Option α :=
  match t with
  | [] => none
  | (j, a) :: rest => if j = k then some a else Table.find rest k

/-- The entry of a key, or the default. -/
def Table.get {α : Type} (t : Table α) (d : α) (k : Nat) : α := (Table.find t k).getD d

/-- The table with the entry of a key set. -/
def Table.set {α : Type} (t : Table α) (k : Nat) (a : α) : Table α :=
  match t with
  | [] => [(k, a)]
  | (j, b) :: rest =>
    if k < j then (k, a) :: (j, b) :: rest
    else if k = j then (k, a) :: rest
    else (j, b) :: Table.set rest k a

/-- The table without a key. -/
def Table.erase {α : Type} (t : Table α) (k : Nat) : Table α := t.filter (fun e => e.1 ≠ k)

/-- The table with a listed entry changed; nothing happens when the key is not listed. -/
def Table.modify {α : Type} (t : Table α) (k : Nat) (f : α → α) : Table α :=
  t.map (fun e => if e.1 = k then (e.1, f e.2) else e)

/-- The keys of a table. -/
def Table.keys {α : Type} (t : Table α) : List Nat := t.map (fun e => e.1)

/-- The lowest number below `n` that is not a key. -/
def Table.lowestFree {α : Type} (t : Table α) (n : Nat) : Option Nat :=
  (List.range n).find? (fun k => (Table.find t k).isNone)

/-! ### Memory -/

/-- Bytes by address: addresses strictly rising, and no byte 0, which is what an unlisted address reads as (20 R444
step 4: every start scrubs memory; log entry 2 for what no scrub reaches). -/
abbrev Memory := List Host.Cell

/-- The byte at an address. -/
def Memory.read (m : Memory) (a : Nat) : Byte :=
  match m with
  | [] => 0
  | (k, b) :: rest => if k = a then b else if a < k then 0 else Memory.read rest a

/-- The memory with the byte at an address set. -/
def Memory.write (m : Memory) (a : Nat) (v : Byte) : Memory :=
  match m with
  | [] => if v = 0 then [] else [(a, v)]
  | (k, b) :: rest =>
    if a < k then if v = 0 then (k, b) :: rest else (a, v) :: (k, b) :: rest
    else if a = k then if v = 0 then rest else (a, v) :: rest
    else (k, b) :: Memory.write rest a v

/-- Are the addresses above `lo` and strictly rising, and is no byte 0? -/
def Memory.wfAbove (lo : Nat) (m : Memory) : Bool :=
  match m with
  | [] => true
  | (k, b) :: rest => lo ≤ k && b ≠ 0 && Memory.wfAbove (k + 1) rest

/-- The canonical form. -/
def Memory.wf (m : Memory) : Bool := Memory.wfAbove 0 m

/-- The bytes from an address up. -/
def Memory.readBytes (m : Memory) (a n : Nat) : List Byte := (List.range n).map (fun i => Memory.read m (a + i))

/-- The memory with bytes stored from an address up. -/
def Memory.writeBytes (m : Memory) (a : Nat) (bs : List Byte) : Memory :=
  match bs with
  | [] => m
  | b :: rest => Memory.writeBytes (Memory.write m a b) (a + 1) rest

/-- The number that little-endian bytes hold (00 R2). -/
def numOfBytes (bs : List Byte) : Nat :=
  match bs with
  | [] => 0
  | b :: rest => b.toNat + 256 * numOfBytes rest

/-- The `n` little-endian bytes of a number (00 R2). -/
def bytesOfNum (n x : Nat) : List Byte :=
  match n with
  | 0 => []
  | n + 1 => BitVec.ofNat 8 x :: bytesOfNum n (x / 256)

/-- The number in `n` little-endian bytes at an address. -/
def Memory.readNum (m : Memory) (a n : Nat) : Nat := numOfBytes (Memory.readBytes m a n)

/-- The memory with the `n` little-endian bytes of a number stored at an address. -/
def Memory.writeNum (m : Memory) (a n x : Nat) : Memory := Memory.writeBytes m a (bytesOfNum n x)

/-- The memory with every byte from `lo` up to `hi` 0. -/
def Memory.clear (m : Memory) (lo hi : Nat) : Memory := m.filter (fun c => c.1 < lo || hi ≤ c.1)

/-- The memory with `n` bytes from `a` copied from another memory at `src`. -/
def Memory.copyFrom (m : Memory) (a : Nat) (from_ : Memory) (src n : Nat) : Memory :=
  Memory.writeBytes m a (Memory.readBytes from_ src n)

end Sys2Proof.Machine
end

