-- ==== Sys2Proof/Machine/Sha3.lean ====
section
/-! DEFINITION. SHA3-512 and the SHAKE functions, which 20 R439, R440, R442, R443 and R450 name: as FIPS 202 defines them
(PRESUMED, log entry 74). -/

namespace Sys2Proof.Machine

/-! ### The Keccak permutation, on 25 lanes below 2^64; lane (x, y) is the element 5y + x -/

/-- The bits of the register that makes the round constants, from a value of it on. -/
def hashBits (reg : Nat) : Nat → List Bool
  | 0 => []
  | n + 1 => reg.testBit 0 :: hashBits (2 * reg ^^^ (if reg.testBit 7 then 0x171 else 0)) n

/-- The number whose bits 2^j − 1 are the bits of a list. -/
def spread (j : Nat) : List Bool → Nat
  | [] => 0
  | b :: rest => (if b then 2 ^ (2 ^ j - 1) else 0) + spread (j + 1) rest

/-- The constants of the 24 rounds: seven bits of the register each. -/
def hashConstants (rounds : Nat) : List Nat :=
  let bits := hashBits 1 (7 * rounds)
  (List.range rounds).map (fun i => spread 0 ((bits.drop (7 * i)).take 7))

/-- The walk over the lanes but the middle one, from a place on: each lane with its rotation. -/
def hashWalk (steps t : Nat) (p : Nat × Nat) : List (Nat × Nat) :=
  match steps with
  | 0 => []
  | n + 1 => (5 * p.2 + p.1, (t + 1) * (t + 2) / 2 % 64) :: hashWalk n (t + 1) (p.2, (2 * p.1 + 3 * p.2) % 5)

/-- How far each lane is rotated. -/
def hashTurns : List Nat := (hashWalk 24 0 (1, 0)).foldl (fun l p => l.set p.1 p.2) (List.replicate 25 0)

/-- A lane rotated toward its high end. -/
def turnLane (x n : Nat) : Nat := x * 2 ^ n % 2 ^ 64 + x / 2 ^ (64 - n)

/-- The exclusive or of lanes. -/
def xorAll (xs : List Nat) : Nat := xs.foldl (· ^^^ ·) 0

/-- The parity of a column. -/
def column (a : List Nat) (x : Nat) : Nat := xorAll ((List.range 5).map (fun y => a.getD (5 * y + x % 5) 0))

/-- A lane after the two linear steps on its place: its neighbours' parities, and its rotation. -/
def mixedLane (turns a parities : List Nat) (i : Nat) : Nat :=
  let left := parities.getD ((i + 4) % 5) 0
  let right := turnLane (parities.getD ((i + 1) % 5) 0) 1
  turnLane (a.getD i 0 ^^^ left ^^^ right) (turns.getD i 0)

/-- The lane that the transposition brings to a place. -/
def broughtFrom (i : Nat) : Nat := 5 * (i % 5) + (i % 5 + 3 * (i / 5)) % 5

/-- The non-linear step in a row, at a place. -/
def rowLane (b : List Nat) (i : Nat) : Nat :=
  let at_ (d : Nat) : Nat := b.getD (i / 5 * 5 + (i + d) % 5) 0
  at_ 0 ^^^ ((at_ 1 ^^^ (2 ^ 64 - 1)) &&& at_ 2)

/-- One round with its constant. -/
def hashRound (turns a : List Nat) (constant : Nat) : List Nat :=
  let places := List.range 25
  let parities := (List.range 5).map (column a)
  let mixed := places.map (mixedLane turns a parities)
  let b := places.map (fun i => mixed.getD (broughtFrom i) 0)
  match places.map (rowLane b) with
  | first :: rest => (first ^^^ constant) :: rest
  | [] => []

/-- The permutation. -/
def permute (a : List Nat) : List Nat := (hashConstants 24).foldl (hashRound hashTurns) a

/-! ### The sponge -/

/-- The lanes of a block of bytes, those past its end 0. -/
def blockLanes (bs : List Byte) : List Nat := (List.range 25).map (fun i => numOfBytes ((bs.drop (8 * i)).take 8))

/-- The bytes of the lanes. -/
def laneBytes (a : List Nat) : List Byte := a.flatMap (bytesOfNum 8)

/-- What follows a message of `len` bytes up to whole blocks of `rate` bytes: its suffix bits first, the last bit 1. -/
def padding (rate : Nat) (suffix : Byte) (len : Nat) : List Byte :=
  match rate - len % rate with
  | 0 => []
  | 1 => [suffix ||| 0x80]
  | n + 2 => suffix :: (List.replicate n 0 ++ [0x80])

/-- The state that has taken in blocks of a padded message. -/
def absorb (rate : Nat) (m : List Byte) (a : List Nat) : Nat → List Nat
  | 0 => a
  | n + 1 =>
    let mixed := ((blockLanes (m.take rate)).zip a).map (fun x => x.1 ^^^ x.2)
    absorb rate (m.drop rate) (permute mixed) n

/-- The output that a state gives in blocks. -/
def squeeze (rate : Nat) (a : List Nat) : Nat → List Byte
  | 0 => []
  | n + 1 => (laneBytes a).take rate ++ squeeze rate (permute a) n

/-- The first `n` bytes that a message gives. -/
def sponge (rate : Nat) (suffix : Byte) (n : Nat) (m : List Byte) : List Byte :=
  let whole := m ++ padding rate suffix m.length
  (squeeze rate (absorb rate whole (List.replicate 25 0) (whole.length / rate)) (n / rate + 1)).take n

/-- SHA3-512. -/
def sha3Bytes (m : List Byte) : List Byte := sponge 72 0x06 64 m

/-- SHA3-512 as a 512-bit value, its first byte lowest. -/
def sha3 (m : List Byte) : BitVec 512 := BitVec.ofNat 512 (numOfBytes (sha3Bytes m))

/-- SHAKE128 and SHAKE256. -/
def shake128 (n : Nat) (m : List Byte) : List Byte := sponge 168 0x1F n m
def shake256 (n : Nat) (m : List Byte) : List Byte := sponge 136 0x1F n m

end Sys2Proof.Machine
end

