-- ==== Sys2Proof/Machine/MlDsa.lean ====
section
/-! DEFINITION. ML-DSA-87 (20 R439, R442, R443): keys, signatures and their check, as FIPS 204 defines them, for a message with
an empty context string (PRESUMED, log entry 74). -/

namespace Sys2Proof.Machine

/-! ### Polynomials modulo q and X^256 + 1, as their coefficients below q -/

/-- The modulus. -/
def dsaQ : Nat := 8380417

/-- A polynomial, or its transform. -/
abbrev Poly := List Nat

/-- The zero polynomial. -/
def Poly.zero : Poly := List.replicate 256 0

/-- Operations on coefficients. -/
def Poly.add (x y : Poly) : Poly := (x.zip y).map (fun c => (c.1 + c.2) % dsaQ)
def Poly.sub (x y : Poly) : Poly := (x.zip y).map (fun c => (c.1 + dsaQ - c.2) % dsaQ)
def Poly.scale (n : Nat) (x : Poly) : Poly := x.map (fun c => n * c % dsaQ)

/-- The product of transforms, of 256 coefficients whatever the lists hold. -/
def Poly.mul (x y : Poly) : Poly := ((x ++ Poly.zero).zip (y ++ Poly.zero)).take 256 |>.map (fun c => c.1 * c.2 % dsaQ)

/-- The eight bits of a number reversed. -/
def bitRev8 (n : Nat) : Nat := (List.range 8).foldl (fun acc i => 2 * acc + n / 2 ^ i % 2) 0

/-- A power of the root 1753, of order 512. -/
def dsaZeta (e : Nat) : Nat := 1753 ^ (e % 512) % dsaQ

/-- The transform below node `m` of the tree of butterflies, `depth` levels deep, and its inverse but for the factor. -/
def nttFrom (depth m : Nat) (w : Poly) : Poly :=
  match depth with
  | 0 => w
  | d + 1 =>
    let lo := w.take (2 ^ d)
    let hi := Poly.scale (dsaZeta (bitRev8 m)) (w.drop (2 ^ d))
    nttFrom d (2 * m) (Poly.add lo hi) ++ nttFrom d (2 * m + 1) (Poly.sub lo hi)

/-- The inverse of `nttFrom` but for a factor of 2 a level. -/
def inttFrom (depth m : Nat) (w : Poly) : Poly :=
  match depth with
  | 0 => w
  | d + 1 =>
    let lo := inttFrom d (2 * m) (w.take (2 ^ d))
    let hi := inttFrom d (2 * m + 1) (w.drop (2 ^ d))
    Poly.add lo hi ++ Poly.scale (dsaZeta (512 - bitRev8 m)) (Poly.sub lo hi)

/-- The transform and its inverse. -/
def ntt (w : Poly) : Poly := nttFrom 8 1 w
def intt (w : Poly) : Poly := Poly.scale 8347681 (inttFrom 8 1 w)

/-- The number between −q/2 and q/2 that a coefficient stands for, and the coefficient of a number. -/
def centred (c : Nat) : Int := if 2 * c < dsaQ then c else (c : Int) - dsaQ
def coefficient (z : Int) : Nat := (z % dsaQ).toNat

/-- Is every coefficient of some polynomials, as `centred` has it, below a bound in size? -/
def smallerThan (bound : Nat) (ps : List Poly) : Bool := ps.all (fun p => p.all (fun c => (centred c).natAbs < bound))

/-! ### Sampling -/

/-- Groups of three bytes. -/
def triples (bs : List Byte) : List (Byte × Byte × Byte) :=
  match bs with
  | x :: y :: z :: rest => (x, y, z) :: triples rest
  | _ => []

/-- An element of the matrix A, in the transformed domain: the first 256 candidates below q. -/
def dsaElement (rho : List Byte) (r c : Nat) : Poly :=
  let out := shake128 (168 * 8) (rho ++ [BitVec.ofNat 8 c, BitVec.ofNat 8 r])
  (((triples out).map (fun t => t.1.toNat + 256 * t.2.1.toNat + 65536 * (t.2.2.toNat % 128))).filter (· < dsaQ)).take 256

/-- A polynomial of coefficients from −2 to 2. -/
def dsaSmall (rho : List Byte) (r : Nat) : Poly :=
  let out := shake256 (136 * 4) (rho ++ bytesOfNum 2 r)
  (((out.flatMap (fun b => [b.toNat % 16, b.toNat / 16])).filter (· < 15)).map (fun z =>
    (dsaQ + 2 - z % 5) % dsaQ)).take 256

/-- A matrix row times a vector, both transformed. -/
def dsaRow (rho : List Byte) (r : Nat) (v : List Poly) : Poly :=
  ((List.range 7).zip v).foldl (fun acc cv => Poly.add acc (Poly.mul (dsaElement rho r cv.1) cv.2)) Poly.zero

/-! ### Packing -/

/-- Coefficients of some bits each as bytes. -/
def packBits (bits : Nat) (w : List Nat) : List Byte :=
  bytesOfNum (bits * w.length / 8) (w.foldr (fun c acc => c + 2 ^ bits * acc) 0)

/-- 256 numbers of some bits each from bytes. -/
def unpackBits (bits : Nat) (bs : List Byte) : List Nat :=
  let n := numOfBytes (bs.take (32 * bits))
  (List.range 256).map (fun i => n / 2 ^ (bits * i) % 2 ^ bits)

/-- A polynomial whose numbers lie between 1 − 2^19 and 2^19, in 20 bits each, and back. -/
def packMask (p : Poly) : List Byte := packBits 20 (p.map (fun c => ((2 ^ 19 : Int) - centred c).toNat))
def unpackMask (bs : List Byte) : Poly := (unpackBits 20 bs).map (fun (n : Nat) => coefficient ((2 ^ 19 : Int) - n))

/-! ### Keys -/

/-- The high part of Power2Round. -/
def dsaHigh (c : Nat) : Nat := (c + 2 ^ 12 - 1) / 2 ^ 13

/-- What key generation makes of a seed of 32 bytes: ρ, K, the vectors s1 and s2, and t. -/
structure DsaKey where
  rho : List Byte
  secret : List Byte
  s1 : List Poly
  s2 : List Poly
  t : List Poly
  deriving DecidableEq, Repr

/-- Key generation. -/
def dsaKey (xi : List Byte) : DsaKey :=
  let h := shake256 128 (xi ++ [8, 7])
  let rho := h.take 32
  let small := (List.range 15).map (dsaSmall ((h.drop 32).take 64))
  let s1 := small.take 7
  let s2 := small.drop 7
  let hat := s1.map ntt
  { rho := rho, secret := h.drop 96, s1 := s1, s2 := s2
    t := ((List.range 8).zip s2).map (fun x => Poly.add (intt (dsaRow rho x.1 hat)) x.2) }

/-- The 2,592-byte public key. -/
def DsaKey.pub (k : DsaKey) : List Byte := k.rho ++ k.t.flatMap (fun p => packBits 10 (p.map dsaHigh))

/-- The 2,592-byte public key of a seed of 32 bytes. -/
def mlDsaPublicKey (xi : List Byte) : List Byte := (dsaKey xi).pub

/-! ### What signing and its check share -/

/-- The low part of Decompose, and the high part, of 0 to 15. -/
def dsaLow (c : Nat) : Int :=
  let m := c % 523776
  let low : Int := if m ≤ 261888 then m else (m : Int) - 523776
  if (c : Int) - low = dsaQ - 1 then low - 1 else low
def dsaTop (c : Nat) : Nat := (((c : Int) - dsaLow c) / 523776).toNat % 16

/-- The hash of a message under a public key, with an empty context string. -/
def messageHash (pub m : List Byte) : List Byte := shake256 64 (shake256 64 pub ++ [0, 0] ++ m)

/-- The commitment hash of a vector's high parts. -/
def commitment (mu : List Byte) (tops : List (List Nat)) : List Byte := shake256 64 (mu ++ tops.flatMap (packBits 4))

/-- Puts the 60 signs of a challenge into place, from place `i` on: each at a place that the next byte at most `i` names, whose
sign goes to place `i`. -/
def placeSigns (signs : Nat) (i : Nat) (c : Poly) (bs : List Byte) : Nat → Poly
  | 0 => c
  | n + 1 =>
    match bs.dropWhile (fun b => i < b.toNat) with
    | [] => c
    | b :: rest =>
      let sign := if signs.testBit (i - 196) then dsaQ - 1 else 1
      placeSigns signs (i + 1) ((c.set i (c.getD b.toNat 0)).set b.toNat sign) rest n

/-- The challenge polynomial that a commitment hash gives. -/
def challenge (hash : List Byte) : Poly :=
  let out := shake256 (8 + 136 * 3) hash
  placeSigns (numOfBytes (out.take 8)) 196 Poly.zero (out.drop 8) 60

/-! ### Signing -/

/-- Does adding `z` to `r` change the high part? -/
def hintBit (z r : Nat) : Bool := dsaTop r ≠ dsaTop ((r + z) % dsaQ)

/-- The bytes of a hint: the places of each polynomial's ones, filled up to 75, and the counts. -/
def packHint (places : List (List Nat)) : List Byte :=
  let all := places.flatMap id
  let ends := (List.range places.length).map (fun i => ((places.take (i + 1)).flatMap id).length)
  (all ++ List.replicate (75 - all.length) 0 ++ ends).map (BitVec.ofNat 8)

/-- One attempt with the number `kappa`: the signature, or none where it is rejected. -/
def signAttempt (k : DsaKey) (mu mask : List Byte) (kappa : Nat) : Option (List Byte) :=
  let y := (List.range 7).map (fun r => unpackMask (shake256 640 (mask ++ bytesOfNum 2 (kappa + r))))
  let hat := y.map ntt
  let w := (List.range 8).map (fun r => intt (dsaRow k.rho r hat))
  let hash := commitment mu (w.map (·.map dsaTop))
  let c := ntt (challenge hash)
  let times (p : Poly) : Poly := intt (Poly.mul c (ntt p))
  let z := (y.zip k.s1).map (fun x => Poly.add x.1 (times x.2))
  let rest := (w.zip k.s2).map (fun x => Poly.sub x.1 (times x.2))
  let ct0 := k.t.map (fun p => times (p.map (fun c => (c + dsaQ - dsaHigh c * 2 ^ 13) % dsaQ)))
  let hints := (ct0.zip rest).map (fun x =>
    ((List.range 256).zip (x.1.zip x.2)).filterMap (fun e =>
      if hintBit ((dsaQ - e.2.1) % dsaQ) ((e.2.2 + e.2.1) % dsaQ) then some e.1 else none))
  if smallerThan (2 ^ 19 - 120) z && rest.all (·.all (fun c => (dsaLow c).natAbs < 261888 - 120))
      && smallerThan 261888 ct0 && (hints.flatMap id).length ≤ 75 then
    some (hash ++ z.flatMap packMask ++ packHint hints)
  else none

/-- The first attempt that is not rejected, of some. -/
def signFrom (k : DsaKey) (mu mask : List Byte) (kappa : Nat) : Nat → Option (List Byte)
  | 0 => none
  | n + 1 => (signAttempt k mu mask kappa).orElse (fun _ => signFrom k mu mask (kappa + 7) n)

/-- The signature of a message with a random input of 32 bytes; none after the 814 attempts that FIPS 204 asks for at least. -/
def mlDsaSign (xi rnd m : List Byte) : Option (List Byte) :=
  let k := dsaKey xi
  let mu := messageHash k.pub m
  signFrom k mu (shake256 64 (k.secret ++ rnd ++ mu)) 0 814

/-! ### The check of a signature -/

/-- A coefficient's high part with its hint. -/
def useHint (hint : Bool) (c : Nat) : Nat :=
  if !hint then dsaTop c else if 0 < dsaLow c then (dsaTop c + 1) % 16 else (dsaTop c + 15) % 16

/-- The places of each polynomial's ones, from the bytes of a hint, from polynomial `i` and byte `from_` on; none where they
are no hint. -/
def unpackHint (bs : List Nat) (i from_ : Nat) : Nat → Option (List (List Nat))
  | 0 => if ((bs.take 75).drop from_).all (· = 0) then some [] else none
  | n + 1 =>
    let upTo := bs.getD (75 + i) 0
    let places := (bs.take upTo).drop from_
    if upTo < from_ || 75 < upTo || !decide (places.Pairwise (· < ·)) then none
    else (unpackHint bs (i + 1) upTo n).map (places :: ·)

/-- The high parts of the vector that a signature stands for: A z − c t1 2^13, with its hints. -/
def signedTops (pub : List Byte) (hash : List Byte) (z : List Poly) (hints : List (List Nat)) : List (List Nat) :=
  let c := ntt (challenge hash)
  let hat := z.map ntt
  (List.range 8).map (fun r =>
    let t1 := Poly.scale (2 ^ 13) (unpackBits 10 (pub.drop (32 + 320 * r)))
    let w := intt (Poly.sub (dsaRow (pub.take 32) r hat) (Poly.mul c (ntt t1)))
    ((List.range 256).zip w).map (fun x => useHint ((hints.getD r []).contains x.1) x.2))

/-- Is it the signature of a message under a public key? -/
def mlDsaVerify (pub m sig : List Byte) : Bool :=
  let hash := sig.take 64
  let z := (List.range 7).map (fun i => unpackMask (sig.drop (64 + 640 * i)))
  match unpackHint ((sig.drop 4544).map (·.toNat)) 0 0 8 with
  | none => false
  | some hints =>
    pub.length = 2592 && sig.length = 4627 && smallerThan (2 ^ 19 - 120) z
      && hash = commitment (messageHash pub m) (signedTops pub hash z hints)

end Sys2Proof.Machine
end

