-- ==== Sys2Proof/Config.lean ====
section
/-! DEFINITION. The free values: what the spec leaves open, as constants with no body. -/

namespace Sys2Proof.Config

/-- The number of instructions a sibling issues after a halt reaches it, of which the spec gives only the bound 3 (02
R57); applied to a fresh number. -/
opaque skid : Nat → Nat

/-- Does an access that may use a predicted translation use it (11 R273)? Applied to a fresh number. -/
opaque predicts : Nat → Bool

/-- A byte of a new scratchpad allocation, whose contents are undefined (02 R39); applied to a fresh number and the
offset. -/
opaque scratchByte : Nat → Nat → Byte

/-- A byte of an eviction block, whose layout is not architectural (17 R401); applied to a fresh number and the offset. -/
opaque blockByte : Nat → Nat → Byte

/-- A byte of a line that holds an uncorrectable error, as a party that keeps no poison reads it: the spec gives it no value (20
R454); applied to the cycle and the byte's address. -/
opaque poisonByte : Nat → Nat → Byte

/-- The random input of an ML-DSA-87 signature (20 R442), byte by byte; applied to a fresh number. -/
opaque signByte : Nat → Nat → Byte

/-- What a read of another module returns (19 R433); applied to a fresh number and the address of the byte. -/
opaque remoteByte : Nat → Nat → Byte

/-- How another module's translation of an access ends (19 R432); applied to a fresh number, the cycle and the address. -/
opaque remoteWalk : Nat → Nat → Nat → Nat

/-- The f32 special functions, of which the spec gives only the bounds of 08 R205: the bits that function `f` delivers for
operand bits, where they lie within the bound. -/
opaque special : Nat → Word → Word

/-- 32-bit values that the spec leaves undefined; applied to a fresh number and to which of them it is. -/
opaque word : Nat → Nat → Word

/-- What a dependence counter holds that lies outside the memory and the windows of the package (17 R398); applied to its
address and the cycle. -/
opaque farCounter : Nat → Nat → DWord

end Sys2Proof.Config
end

