-- ==== Sys2Proof/Fields.lean ====
section
/-! DEFINITION. The fields of an instruction word, and the plain data that instructions and steps carry. -/

namespace Sys2Proof

/-- The fields of a short form (03 R65): 7-bit operand codes, and the literal of LEN 0b10 (R62). -/
structure ShortFields where
  u   : Bool
  d   : BitVec 7
  a   : BitVec 7
  b   : BitVec 7
  lit : Option DWord
  deriving DecidableEq, Repr

/-- The fields of a long form (03 R67): 9-bit operand codes, the marks, the predicate, the operand-cache copy, EXT and
the modifier field MOD (word 0 bits [31:11]), and the literal of LEN 0b11 (R62). -/
structure LongFields where
  mod : BitVec 21
  u   : Bool
  d   : BitVec 9
  a   : BitVec 9
  b   : BitVec 9
  c   : BitVec 9
  nwb : Bool
  la  : Bool
  lb  : Bool
  lc  : Bool
  ext : BitVec 15
  oce : Bool
  oci : BitVec 3
  pn  : Bool
  ps  : BitVec 3
  lit : Option DWord
  deriving DecidableEq, Repr

/-- What an operand code names (03 R68, R69). `k` registers share the codes of s48-s63 (R69) and are told apart where
the register is read. -/
inductive Operand where
  | v (n : Nat)
  | s (n : Nat)
  | o (n : Nat)
  | q (n : Nat)
  | lit
  | special (code : Nat)
  | reserved
  deriving DecidableEq, Repr

/-- A group of the package: its core and its group slot 16 x sub-core + slot (01 R23, 02 R41). -/
structure GroupRef where
  core : Nat
  slot : Nat
  deriving DecidableEq, Repr

/-- A resident team: its core and the number the model gives it at placement. -/
structure TeamRef where
  core : Nat
  team : Nat
  deriving DecidableEq, Repr

/-- What the outside gives a start (20 R439, R440, R443, R444): the digests the ROM takes, the fused seed, the outcome of
training and self-test, the fused minimum SVN, the fused digest of the vendor key, and that key (log entry 74). The
image itself is read from host memory at MBOX. -/
structure StartInput where
  romDigest   : BitVec 512
  fuseDigest  : BitVec 512
  seed        : BitVec 256
  trained     : Bool
  selfTest    : Bool
  minSvn      : Nat
  vendorDigest : BitVec 512
  vendorKey   : List Byte
  deriving DecidableEq, Repr

/-- One core's assignment by the Pilot (17 R392): (launch, stage) pairs and the launches it may take tickets from. -/
structure Assignment where
  core    : Nat
  stages  : List (Nat × Nat)
  tickets : List Nat
  deriving DecidableEq, Repr

/-- What a claim leaves to the placer (02 R42, 09 R236): the sub-core of group 0 and the private bases it gives. -/
structure Placement where
  sub   : Fin 4
  bases : List DWord
  deriving DecidableEq, Repr

/-- Read, write or atomic from outside the package (19 R429, R433). `fetchAdd`, `swap` and `cas` are PCIe's atomics; `atomic` is
one of 09 R227 from another module, by its SUB and TYPE. -/
inductive OutsideAccess where
  | read (size : Nat)
  | write (size : Nat) (val : BitVec 128)
  | atomic (sub ty size : Nat) (val cmp : DWord)
  | fetchAdd (size : Nat) (val : DWord)
  | swap (size : Nat) (val : DWord)
  | cas (size : Nat) (cmp new : DWord)
  deriving DecidableEq, Repr

/-- Where an uncorrectable error arises (20 R454). -/
inductive ErrorPlace where
  | register (group : GroupRef) (reg : Nat)
  | line (addr : Nat)
  | matrix (core : Nat)
  | drainBank (core : Nat)
  | liftEntry (core : Nat) (index : Nat)
  | queue (handle : Nat) (stage : Nat)
  | counter (addr : DWord) (handle : Nat)
  | secure
  deriving DecidableEq, Repr

/-- The major opcodes and shared cells of the opcode map (03 R82, R81), under the spec's names. -/
inductive Op where
  | nop
  | bra
  | brx
  | call
  | ret
  | bany
  | ball
  | bnone
  | emset
  | emand
  | emor
  | emnot
  | yield
  | bar
  | barArrive
  | barWait
  | waitbAll
  | waitbAny
  | ffb
  | bclr
  | trap
  | tret
  | svc
  | exit
  | sleep
  | msr
  | mrs
  | brk
  | mov
  | movx
  | movxw
  | xred
  | xscan
  | xshf
  | xbal
  | xread
  | kill
  | foot
  | xwrite
  | movp
  | xmatch
  | xrot
  | xfirst
  | movw
  | iadd
  | isub
  | imul
  | imad
  | imin
  | imax
  | iabs
  | ineg
  | and
  | or
  | xor
  | not
  | shl
  | shr
  | sar
  | rot
  | bfe
  | bfi
  | popc
  | clz
  | brev
  | icmp
  | fadd
  | fsub
  | fmul
  | ffma
  | fmin
  | fmax
  | frcp
  | frsq
  | fsqrt
  | fdiv
  | fexp2
  | flog2
  | fsin
  | fcos
  | frnd
  | fcmp
  | fclass
  | fabs
  | fneg
  | fscale
  | cvt
  | cvtBfx
  | cvtt
  | hadd2
  | hmul2
  | hfma2
  | hmin2
  | hmax2
  | dot2
  | dot4
  | sel
  | fpstClear
  | bperm
  | bool3
  | isad
  | iclamp
  | fclamp
  | ld
  | st
  | lds
  | sts
  | ldw
  | stw
  | ldu
  | atom
  | atoms
  | red
  | reds
  | fence
  | pref
  | frameEnter
  | frameLeave
  | icinv
  | cctl
  | ldl
  | stl
  | stm
  | crnLd
  | crnSt
  | crnCp
  | crnSet
  | crnGather
  | crnChain
  | crnFence
  | crnMode
  | ringDecl
  | ringAdv
  | ringStat
  | mxb
  | mma
  | mzero
  | mlda
  | bld
  | mdrain
  | mdresume
  | mwait
  | srgOpen
  | srgClose
  | srg
  | srgStat
  | liftPush
  | liftPop
  | liftFree
  | liftWait
  | enq
  | spawn
  | phase
  | retire
  | depInc
  | depDec
  | depWait
  | qstat
  | probe
  | mapp
  | tlbiLocal
  | unmap
  | tlbiPage
  | mapstat
  deriving DecidableEq, Repr

/-- How an instruction uses an operand field (03 R71, R72; 09 R214, R215; 12 R290; 15 R355; 16 R376; 17 R396). -/
inductive Use where
  /-- Not used: the code must be 0 (R78). -/
  | no
  /-- A 32-bit operand of any class. -/
  | w32
  /-- A 64-bit operand: an even register pair, the literal or a special value (R72). -/
  | w64
  /-- A 128-bit operand: a register quad (R215). -/
  | w128
  /-- A 64-bit address: a register pair or the literal (09 R214). -/
  | base64
  /-- A register pair and nothing else (09 R227). -/
  | pair
  /-- A v register by number (07 R180, 15 R355, 16 R376). -/
  | vreg
  /-- A record image: an s register (17 R396). -/
  | image
  /-- The coordinate operand of a Crane command, checked when it is enqueued (12 R292, R293). -/
  | coords
  deriving DecidableEq, Repr

/-- The kind of register result (07 R168, R455). -/
inductive Result where
  | none
  | perLane
  | uniform
  deriving DecidableEq, Repr

/-- Latency of the register result (07 R166). -/
inductive Latency where
  | none
  | fixed (cls : Nat)
  | variable
  deriving DecidableEq, Repr

/-- What one instruction does with its fields. `d` is the destination when `result` is not none. -/
structure Shape where
  d : Use
  a : Use
  b : Use
  c : Use
  result : Result
  lat : Latency
  deriving DecidableEq, Repr

/-- Why words are not an instruction (03 R83, orders 2 to 7). -/
inductive Reject where
  /-- OP8 is 0xFF (reason 2). -/
  | neverAssigned
  /-- OP8 is not assigned (reason 1). -/
  | laterLevel
  /-- A form, modifier, must-be-zero or literal check fails (reason 3). -/
  | malformed
  /-- An operand code is not valid for its field. -/
  | illegalOperand
  /-- Fewer words than LEN asks for; never met by a fetch, which fetches them all. -/
  | truncated
  deriving DecidableEq, Repr

end Sys2Proof
end

