-- ==== Sys2Proof/Machine/Fields.lean ====
section
/-! DEFINITION. Reading the fields of an instruction: modifier bits, EXT bits and operand codes (03 R67-R70). -/

namespace Sys2Proof

/-- Bits [hi:lo] of word 0, numbered by their place in word 0 as the spec numbers MOD (03 R67). -/
def LongFields.modBits (f : LongFields) (hi lo : Nat) : Nat :=
  (f.mod.toNat / 2 ^ (lo - 11)) % 2 ^ (hi - lo + 1)

/-- Bits [hi:lo] of EXT (03 R78). -/
def LongFields.extBits (f : LongFields) (hi lo : Nat) : Nat :=
  (f.ext.toNat / 2 ^ lo) % 2 ^ (hi - lo + 1)

/-- The operand of a full code (03 R69). -/
def Operand.ofCode (c : BitVec 9) : Operand :=
  let n := c.toNat
  if n < 256 then .v n
  else if n < 320 then .s (n - 256)
  else if n < 328 then .o (n - 320)
  else if n < 331 then .q (n - 327)
  else if n = 331 then .lit
  else if n < 359 then .special n
  else .reserved

/-- The full code of a short code (03 R68): each short code names the same operand as its full code; the reserved short
codes go to a reserved full code. -/
def fullCode (c : BitVec 7) : BitVec 9 :=
  let n := c.toNat
  if n < 64 then BitVec.ofNat 9 n
  else if n < 80 then BitVec.ofNat 9 (n + 192)
  else if n < 112 then BitVec.ofNat 9 (n + 240)
  else BitVec.ofNat 9 511

end Sys2Proof
end

