-- ==== Sys2Proof/Machine/Shapes.lean ====
section
/-! DEFINITION. What each opcode does with its fields, and the checks of R83 that words alone decide (orders 4 to 7). -/

namespace Sys2Proof

namespace LongFields

/-- TYPE, MOD[14:11] (03 R80, 09 R213). -/
def ty (f : LongFields) : Nat := f.modBits 14 11
/-- RND, MOD[16:15] (03 R80). -/
def rnd (f : LongFields) : Nat := f.modBits 16 15
/-- SAT, MOD[17] (03 R80). -/
def sat (f : LongFields) : Bool := f.modBits 17 17 = 1
/-- SUB, MOD[21:18] (03 R80). -/
def sub (f : LongFields) : Nat := f.modBits 21 18
/-- PD, MOD[24:22] (03 R80). -/
def pd (f : LongFields) : Nat := f.modBits 24 22
/-- Q, MOD[15] (09 R213). -/
def quad (f : LongFields) : Bool := f.modBits 15 15 = 1
/-- ORD, MOD[17:16] (09 R213). -/
def ord (f : LongFields) : Nat := f.modBits 17 16
/-- SCP, MOD[20:18] (09 R213). -/
def scp (f : LongFields) : Nat := f.modBits 20 18
/-- CP, MOD[22:21] (09 R213). -/
def cp (f : LongFields) : Nat := f.modBits 22 21
/-- SCALE, MOD[25:23] (09 R213). -/
def scale (f : LongFields) : Nat := f.modBits 25 23
/-- IXU, MOD[26] (09 R213). -/
def ixu (f : LongFields) : Bool := f.modBits 26 26 = 1
/-- SUB, MOD[30:27] (09 R213). -/
def lsub (f : LongFields) : Nat := f.modBits 30 27
/-- Berth number, EXT[5:0] (12 R290, 13 R311, 14 R337, 16 R376). -/
def berth (f : LongFields) : Nat := f.extBits 5 0
/-- Ring number, EXT[9:6] (12 R290, 13 R312). -/
def ring (f : LongFields) : Nat := f.extBits 9 6

end LongFields

/-- Is the type code one of a 64-bit type (03 R79)? -/
def wideType (t : Nat) : Bool := t = 3 || t = 4 || t = 10

/-- 32-bit or pair, by a type code (03 R72). -/
def Use.ofType (t : Nat) : Use := if wideType t then .w64 else .w32

/-- Bytes of a load-store access (09 R215). -/
def accessBytes (f : LongFields) : Nat :=
  if f.quad then 16
  else
    let t := f.ty
    if t = 7 || t = 8 then 1
    else if t = 5 || t = 6 || t = 11 || t = 12 then 2
    else if wideType t then 8
    else 4

/-- The register use of a load-store datum (09 R215). -/
def Use.ofAccess (f : LongFields) : Use :=
  match accessBytes f with
  | 8 => .w64
  | 16 => .w128
  | _ => .w32

/-- System registers of 64 bits (10 R250). -/
def wideSysReg (n : Nat) : Bool := n = 0x00 || n = 0x06 || n = 0x08

/-- Latency class of the floating operations that are slower in f64 (08 R190). -/
def fpClass (c32 c64 : Nat) (f : LongFields) : Latency := .fixed (if f.ty = 10 then c64 else c32)

/-- A shape with no register result. -/
def Shape.cmd (a b c : Use) : Shape := ⟨.no, a, b, c, .none, .none⟩

/-- A fixed-latency per-lane result. -/
def Shape.alu (d a b c : Use) (lat : Latency) : Shape := ⟨d, a, b, c, .perLane, lat⟩

/-- The use of each operand field, the kind of result and its latency (07 R166, R180; 08 R190; 09 R214; 10 R240;
11 R281; 12 R290, R299; 13 R311; 14 R337; 15 R355; 16 R376; 17 R396). -/
def shape (op : Op) (f : LongFields) : Shape :=
  let w := Use.ofType f.ty
  let x := Use.ofAccess f
  match op with
  | .nop => .cmd .no .no .no
  | .bra => .cmd .w32 .no .no
  | .brx => .cmd .w64 .no .no
  | .call => ⟨.w64, .w32, .no, .no, .uniform, .variable⟩
  | .ret => .cmd .w64 .no .no
  | .bany => .cmd .w32 .no .no
  | .ball => .cmd .w32 .no .no
  | .bnone => .cmd .w32 .no .no
  | .emset => ⟨.w32, if f.modBits 15 15 = 1 then .no else .w32, .no, .no, .uniform, .fixed 1⟩
  | .emand => ⟨.w32, if f.modBits 15 15 = 1 then .no else .w32, .no, .no, .uniform, .fixed 1⟩
  | .emor => ⟨.w32, if f.modBits 15 15 = 1 then .no else .w32, .no, .no, .uniform, .fixed 1⟩
  | .emnot => ⟨.w32, if f.modBits 15 15 = 1 then .no else .w32, .no, .no, .uniform, .fixed 1⟩
  | .yield => .cmd .no .no .no
  | .bar => .cmd .no .no .no
  | .barArrive => .cmd .no .no .no
  | .barWait => .cmd .no .no .no
  | .waitbAll => .cmd .w64 .no .no
  | .waitbAny => .cmd .w64 .no .no
  | .ffb => ⟨.w32, .w64, .no, .no, .uniform, .fixed 1⟩
  | .bclr => .cmd .w64 .no .no
  | .trap => .cmd .no .no .no
  | .tret => .cmd .no .no .no
  | .svc => .cmd .no .no .no
  | .exit => .cmd .no .no .no
  | .sleep => .cmd .w32 .no .no
  | .msr => .cmd (if wideSysReg (f.extBits 7 0) then .w64 else .w32) .no .no
  | .mrs => ⟨if wideSysReg (f.extBits 7 0) then .w64 else .w32, .no, .no, .no,
      if f.extBits 7 0 = 1 then .perLane else .uniform, .fixed 1⟩
  | .brk => .cmd .no .no .no
  | .mov => .alu w w .no .no (.fixed 1)
  | .movx => .alu w .vreg .w32 .no (.fixed 2)
  | .movxw => .alu .vreg w .w32 .no (.fixed 1)
  | .xred => ⟨w, w, .no, .no, .uniform, .fixed 3⟩
  | .xscan => .alu w w .w32 .no (.fixed 3)
  | .xshf => .alu w w .w32 .no (.fixed 2)
  | .xbal => ⟨.w32, .w32, .no, .no, .uniform, .fixed 2⟩
  | .xread => ⟨w, w, .w32, .no, .uniform, .fixed 2⟩
  | .kill => .cmd .vreg .no .no
  | .foot => ⟨.w32, .no, .no, .no, .uniform, .fixed 1⟩
  | .xwrite => .alu .vreg .w32 .w32 .no (.fixed 1)
  | .movp => .cmd .w32 .no .no
  | .xmatch => .alu .w32 w .no .no (.fixed 2)
  | .xrot => .alu w w .w32 .no (.fixed 2)
  | .xfirst => ⟨if f.sub = 1 then .w32 else w, w, .no, .no, .uniform, .fixed 2⟩
  | .movw => .alu w w .no .no (.fixed 1)
  | .iadd => .alu w w w .no (.fixed 1)
  | .isub => .alu w w w .no (.fixed 1)
  | .imul => if f.sub = 2 then .alu .w64 .w32 .w32 .no (.fixed 2) else .alu w w w .no (.fixed 2)
  | .imad => if f.sub = 2 then .alu .w64 .w32 .w32 .w64 (.fixed 2) else .alu w w w w (.fixed 2)
  | .imin => .alu w w w .no (.fixed 1)
  | .imax => .alu w w w .no (.fixed 1)
  | .iabs => .alu w w .no .no (.fixed 1)
  | .ineg => .alu w w .no .no (.fixed 1)
  | .and => .alu w w w .no (.fixed 1)
  | .or => .alu w w w .no (.fixed 1)
  | .xor => .alu w w w .no (.fixed 1)
  | .not => .alu w w .no .no (.fixed 1)
  | .shl => .alu w w .w32 .no (.fixed 1)
  | .shr => .alu w w .w32 .no (.fixed 1)
  | .sar => .alu w w .w32 .no (.fixed 1)
  | .rot => .alu w w .w32 .no (.fixed 1)
  | .bfe => .alu w w .w32 .no (.fixed 1)
  | .bfi => .alu w w .w32 w (.fixed 1)
  | .popc => .alu .w32 w .no .no (.fixed 1)
  | .clz => .alu .w32 w .no .no (.fixed 1)
  | .brev => .alu w w .no .no (.fixed 1)
  | .icmp => .cmd w w .no
  | .fadd => .alu w w w .no (fpClass 2 3 f)
  | .fsub => .alu w w w .no (fpClass 2 3 f)
  | .fmul => .alu w w w .no (fpClass 2 3 f)
  | .ffma => .alu w w w w (fpClass 2 3 f)
  | .fmin => .alu w w w .no (fpClass 1 3 f)
  | .fmax => .alu w w w .no (fpClass 1 3 f)
  | .frcp => .alu w w .no .no (fpClass 3 6 f)
  | .frsq => .alu w w .no .no (fpClass 3 6 f)
  | .fsqrt => .alu w w .no .no (fpClass 4 6 f)
  | .fdiv => .alu w w w .no (fpClass 4 6 f)
  | .fexp2 => .alu w w .no .no (.fixed 3)
  | .flog2 => .alu w w .no .no (.fixed 3)
  | .fsin => .alu w w .no .no (.fixed 3)
  | .fcos => .alu w w .no .no (.fixed 3)
  | .frnd => .alu w w .no .no (fpClass 2 3 f)
  | .fcmp => .cmd w w .no
  | .fclass => .alu w w .no .no (.fixed 1)
  | .fabs => .alu w w .no .no (fpClass 1 3 f)
  | .fneg => .alu w w .no .no (fpClass 1 3 f)
  | .fscale => .alu w w .w32 .no (.fixed 2)
  | .cvt => .alu w (Use.ofType f.sub) .no .no (.fixed 2)
  | .cvtBfx => .alu .w32 .w32 .no .no (.fixed 3)
  | .cvtt => .alu w (Use.ofType f.sub) .no .no (.fixed 2)
  | .hadd2 => .alu .w32 .w32 .w32 .no (.fixed 2)
  | .hmul2 => .alu .w32 .w32 .w32 .no (.fixed 2)
  | .hfma2 => .alu .w32 .w32 .w32 .w32 (.fixed 2)
  | .hmin2 => .alu .w32 .w32 .w32 .no (.fixed 2)
  | .hmax2 => .alu .w32 .w32 .w32 .no (.fixed 2)
  | .dot2 => .alu .w32 .w32 .w32 .w32 (.fixed 2)
  | .dot4 => .alu .w32 .w32 .w32 .w32 (.fixed 2)
  | .sel => .alu w w w .no (.fixed 1)
  | .fpstClear => .cmd .no .no .no
  | .bperm => .alu .w32 .w32 .w32 .w32 (.fixed 1)
  | .bool3 => .alu w w w w (.fixed 1)
  | .isad => .alu .w32 .w32 .w32 .w32 (.fixed 2)
  | .iclamp => .alu w w w w (.fixed 1)
  | .fclamp => .alu .w32 .w32 .w32 .w32 (.fixed 1)
  | .ld => ⟨x, .base64, .w32, .no, .perLane, .variable⟩
  | .st => .cmd .base64 .w32 x
  | .lds => ⟨x, .w32, .w32, .no, .perLane, .variable⟩
  | .sts => .cmd .w32 .w32 x
  | .ldw => ⟨x, .w32, .w32, .no, .perLane, .variable⟩
  | .stw => .cmd .w32 .w32 x
  | .ldu => ⟨x, .base64, .w32, .no, .uniform, .variable⟩
  | .atom => ⟨w, .base64, .w32, if f.lsub = 7 then (if f.ty = 4 then .w128 else .pair) else w, .perLane, .variable⟩
  | .atoms => ⟨w, .w32, .w32, if f.lsub = 7 then (if f.ty = 4 then .w128 else .pair) else w, .perLane, .variable⟩
  | .red => .cmd .base64 .w32 w
  | .reds => .cmd .w32 .w32 w
  | .fence => .cmd .no .no .no
  | .pref => .cmd .base64 .w32 .no
  | .frameEnter => .cmd .no .no .no
  | .frameLeave => .cmd .no .no .no
  | .icinv => .cmd .no .no .no
  | .cctl => if f.lsub = 1 then .cmd .no .no .no else .cmd .base64 .w32 .no
  | .ldl => ⟨x, .w32, .w32, .no, .perLane, .variable⟩
  | .stl => .cmd .w32 .w32 x
  | .stm => .cmd .base64 .w32 x
  | .crnLd => .cmd .base64 .coords (if f.modBits 13 13 = 1 then .no else .w32)
  | .crnSt => .cmd .base64 .coords .w32
  | .crnCp => .cmd .base64 .coords .base64
  | .crnSet => .cmd .base64 .coords .w64
  | .crnGather => .cmd .base64 .coords (if f.modBits 13 13 = 1 then .no else .w32)
  | .crnChain => .cmd .w32 .coords .no
  | .crnFence => .cmd .no .no .no
  | .crnMode => .cmd .no .no .no
  | .ringDecl => .cmd .w64 .no .no
  | .ringAdv => .cmd .w32 .no .no
  | .ringStat => ⟨.w64, .no, .no, .no, .uniform, .variable⟩
  | .mxb => if f.ty = 2 then ⟨.w32, .no, .no, .no, .uniform, .variable⟩ else .cmd .no .no .no
  | .mma => .cmd .w32 .w32 .w32
  | .mzero => .cmd .no .no .no
  | .mlda => .cmd .w32 .no .no
  | .bld => .cmd .w32 .w32 .w32
  | .mdrain => if f.ty = 0 then .cmd .no .no .w32 else .cmd .w32 .no .no
  | .mdresume => .cmd .w32 .no .no
  | .mwait => .cmd .w32 .no .no
  | .srgOpen => ⟨.vreg, .vreg, .w32, .no, .perLane, .variable⟩
  | .srgClose => .cmd .no .no .no
  | .srg =>
    if f.ty = 0 then ⟨.w32, .base64, .w32, .no, .uniform, .variable⟩
    else if f.ty = 1 then .cmd .w32 .no .no
    else .cmd .no .w32 .no
  | .srgStat => ⟨.w64, .no, .w32, .no, .uniform, .variable⟩
  | .liftPush => .cmd (if f.modBits 14 12 = 0 then .w32 else .vreg) .no .no
  | .liftPop => ⟨.vreg, .no, .no, .no, .perLane, .variable⟩
  | .liftFree => ⟨.w32, .no, .no, .no, .uniform, .variable⟩
  | .liftWait => .cmd .w32 .no .no
  | .enq => .cmd .base64 .image .no
  | .spawn => .cmd .image .w32 .no
  | .phase => .cmd .w32 .no .no
  | .retire => .cmd .no .no .no
  | .depInc => .cmd .base64 .w32 .no
  | .depDec => .cmd .base64 .w32 .no
  | .depWait => .cmd .base64 .no .no
  | .qstat =>
    match f.modBits 13 11 with
    | 0 => ⟨.w64, .no, .w32, .no, .uniform, .variable⟩
    | 1 => ⟨.w32, .base64, .no, .no, .uniform, .variable⟩
    | 2 => ⟨.w32, .base64, .no, .no, .uniform, .variable⟩
    | _ => ⟨.w64, .no, .no, .no, .uniform, .variable⟩
  | .probe => ⟨.w64, .base64, .no, .no, .perLane, .variable⟩
  | .mapp => ⟨.w32, .base64, .w32, if f.modBits 12 11 = 1 then .w64 else .no, .perLane, .variable⟩
  | .tlbiLocal => .cmd .no .no .no
  | .unmap => ⟨.w64, .base64, .no, .no, .perLane, .variable⟩
  | .tlbiPage => .cmd .base64 .no .no
  | .mapstat => ⟨.w32, .no, .no, .no, .uniform, .variable⟩

/-- R80's layout with the values given; `rnd` says whether RND codes other than 0 are accepted, `pd` whether PD is. -/
def aluMod (f : LongFields) (types subs : List Nat) (sat rnd pd : Bool) : Bool :=
  f.modBits 31 25 = 0 && types.contains f.ty && subs.contains f.sub
    && (sat || !f.sat) && (rnd || f.rnd = 0) && (pd || f.pd = 0)

/-- The MOD layout of 09 R213 with the values given. -/
def memMod (f : LongFields) (types ords cps subs : List Nat) (quad scaled atomic : Bool) : Bool :=
  f.modBits 31 31 = 0 && subs.contains f.lsub && ords.contains f.ord && cps.contains f.cp
    && f.scp < 6 && (atomic || f.ord ≠ 0 || f.scp = 0)
    && (if f.quad then quad && (f.ty = 0 || f.ty = 15) else types.contains f.ty)
    && (if scaled then f.scale < 5 else f.scale = 0 && !f.ixu)

/-- All MOD bits are 0 outside the range [hi:lo]. -/
def modOnly (f : LongFields) (hi lo : Nat) : Bool :=
  f.modBits hi lo * 2 ^ (lo - 11) = f.mod.toNat

/-- The integer types (03 R79) with code 0 as the base type s32. -/
def intTypes : List Nat := [0, 1, 2, 3, 4]
/-- The bit types: b32 as the base type, and n64. -/
def bitTypes : List Nat := [0, 15, 4]
/-- f32 as the base type, and f64. -/
def f3264 : List Nat := [0, 9, 10]
/-- The access types of 09 R215 with Q = 0. -/
def accessTypes : List Nat := [0, 1, 2, 3, 4, 5, 6, 7, 8, 9, 10, 11, 12, 15]

/-- The MOD values and, where the opcode uses it, the EXT and predicate values that the opcode accepts (R83 check 5; 07
R180, 08 R190-R191, 09 R213-R227, 10 R239-R240, 11 R281, 12 R290, R299, 13 R311-R313, 14 R337, 15 R355, 16 R376,
17 R396). -/
def modOk (op : Op) (f : LongFields) : Bool :=
  let ext0 := f.ext = 0
  let p7 := f.ps = 7 && !f.pn
  let extTop (n : Nat) : Bool := f.extBits 14 n = 0
  match op with
  | .nop => f.mod = 0 && ext0
  | .bra | .brx | .call | .ret | .yield | .waitbAny | .bclr | .exit | .sleep => f.mod = 0 && ext0 && p7
  | .bany | .ball | .bnone => modOnly f 14 11 && ext0 && p7
  | .emset | .emand | .emor | .emnot => modOnly f 15 11 && ext0 && p7
  | .bar | .barArrive => f.mod = 0 && extTop 10 && p7
  | .barWait => f.mod = 0 && extTop 4 && p7
  | .waitbAll | .ffb => modOnly f 16 16 && ext0 && p7
  | .trap | .svc | .brk => f.mod = 0 && p7
  | .tret => modOnly f 17 17 && ext0 && p7
  | .msr | .mrs => f.mod = 0 && extTop 14
  | .mov | .movx | .movxw | .xread | .xmatch | .xrot | .movw => aluMod f bitTypes [0] false false false && ext0
  | .xred =>
    (aluMod f [0, 1, 2, 3, 4, 9, 10] [0, 1, 2] false (f.sub = 0 && (f.ty = 9 || f.ty = 10)) false
      || aluMod f bitTypes [3, 4, 5] false false false) && ext0
  | .xscan =>
    (aluMod f [0, 1, 2, 3, 4, 9, 10] [0, 1, 2, 8, 9, 10] false (f.sub % 8 = 0 && (f.ty = 9 || f.ty = 10)) false
      || aluMod f bitTypes [3, 4, 5, 11, 12, 13] false false false) && ext0
  | .xshf => aluMod f bitTypes [0, 1, 2, 3] false false false && ext0
  | .xbal => aluMod f [0, 15] [0, 1] false false false && ext0
  | .kill => aluMod f [0] [0] false false false && extTop 4
  | .foot => aluMod f [0] [0] false false false && ext0
  | .xwrite => aluMod f [0, 15] [0] false false false && ext0
  | .movp => aluMod f [0] [0, 1] false false (f.sub = 1) && ext0
  | .xfirst => aluMod f bitTypes [0, 1] false false false && ext0
  | .iadd | .isub | .ineg => aluMod f intTypes [0] true false false && ext0
  | .imul =>
    (aluMod f intTypes [0] true false false || aluMod f intTypes [1] false false false
      || aluMod f [0, 1, 2] [2] false false false) && ext0
  -- SAT with wide: R196 against the "lo only" of R190 (DEDUCED, log entry 72)
  | .imad => (aluMod f intTypes [0] true false false || aluMod f [0, 1, 2] [2] true false false) && ext0
  | .imin | .imax | .iclamp | .bfe => aluMod f intTypes [0] false false false && ext0
  | .iabs => aluMod f [0, 1, 3] [0] true false false && ext0
  | .and | .or | .xor | .not | .shl | .shr | .sar | .rot | .bfi | .popc | .clz | .brev =>
    aluMod f bitTypes [0] false false false && ext0
  | .icmp => aluMod f intTypes [0, 1, 2, 3, 4, 5] false false true && ext0
  | .fadd | .fsub | .fmul | .ffma | .frcp | .frsq | .fsqrt | .fdiv | .frnd => aluMod f f3264 [0] false true false && ext0
  | .fmin | .fmax | .fabs | .fneg => aluMod f [0, 9, 10, 11, 12] [0] false false false && ext0
  | .fexp2 | .flog2 | .fsin | .fcos | .fscale => aluMod f [0, 9] [0] false true false && ext0
  | .fcmp => aluMod f [0, 9, 10, 11, 12] [0, 1, 2, 3, 4, 5, 6, 7] false false true && ext0
  | .fclass | .fclamp => aluMod f [0, 9, 11, 12] [0] false false false && ext0
  | .cvt =>
    let ints := [1, 2, 3, 4, 5, 6, 7, 8]
    aluMod f [0, 1, 2, 3, 4, 5, 6, 7, 8, 9, 10, 11, 12] [0, 1, 2, 3, 4, 5, 6, 7, 8, 9, 10, 11, 12]
      (ints.contains f.ty && ints.contains f.sub) false false && ext0
  | .cvtBfx =>
    (aluMod f [13, 14] [9, 11, 12] false false false || aluMod f [9, 11, 12] [13, 14] false false false) && ext0
  | .cvtt => aluMod f [0, 1, 2, 3, 4, 5, 6, 7, 8] [0, 9, 10, 11, 12] false false false && ext0
  | .hadd2 | .hmul2 | .hfma2 | .dot2 => aluMod f [0, 11, 12] [0] false true false && ext0
  | .hmin2 | .hmax2 => aluMod f [0, 11, 12] [0] false false false && ext0
  | .dot4 => aluMod f [0, 7, 8] [0] true false false && ext0
  | .sel => aluMod f bitTypes [0] false false true && ext0
  | .fpstClear => aluMod f [0] [0] false false false && ext0
  | .bperm => aluMod f [0, 15] [0] false false false && ext0
  | .bool3 => aluMod f bitTypes [0] false false false && extTop 8
  | .isad => aluMod f [0, 1, 2, 8] [0] true false false && ext0
  | .ld => memMod f accessTypes [0, 1] [0, 1, 2] [0] true true false
  | .ldu => memMod f accessTypes [0, 1] [0, 1, 2] [0] false true false
  | .lds => memMod f accessTypes [0, 1] [0] [0] true true false
  | .ldw => memMod f accessTypes [0, 1] [0] [0] true false false
  | .st => memMod f accessTypes [0, 2] [0, 1, 2] [0] true true false
  | .stm => memMod f accessTypes [0, 2] [0, 1, 2] [0] true false false
  | .sts => memMod f accessTypes [0, 2] [0] [0] true true false
  | .stw => memMod f accessTypes [0, 2] [0] [0] true false false
  | .ldl | .stl => memMod f accessTypes [0] [0] [0] true true false
  | .atom | .atoms =>
    memMod f [0, 1, 2, 3, 4, 9] [0, 1, 2, 3] [0] [0] false true true
      || memMod f intTypes [0, 1, 2, 3] [0] [1, 2] false true true
      || memMod f bitTypes [0, 1, 2, 3] [0] [3, 4, 5, 6, 7] false true true
  | .red | .reds =>
    memMod f [0, 1, 2, 3, 4, 9] [0, 2] [0] [0] false true true
      || memMod f intTypes [0, 2] [0] [1, 2] false true true
      || memMod f bitTypes [0, 2] [0] [3, 4, 5, 6] false true true
  | .fence => memMod f [0] [1, 2, 3] [0] [0] false false true && ext0
  | .pref => memMod f [0] [0] [0, 1] [0] false true false
  | .frameEnter | .frameLeave => memMod f [0] [0] [0] [0] false false false && !f.quad
      && f.extBits 14 12 = 0
  | .icinv => f.mod = 0 && ext0
  | .cctl =>
    memMod f [0] [0] [0] [0, 2, 3] false true false || (memMod f [0] [0] [0] [1] false false false && ext0)
  | .crnLd | .crnGather | .crnSet =>
    modOnly f 14 11 && extTop 10 && (f.modBits 13 13 = 1 || f.ring = 0)
  | .crnSt | .crnCp | .crnChain => modOnly f 14 11 && f.modBits 13 13 = 0 && extTop 6
  | .crnFence => f.mod = 0 && extTop 4 && f.extBits 3 0 ≠ 0 && p7
  | .crnMode => f.mod = 0 && extTop 1 && p7
  | .ringDecl | .ringStat => f.mod = 0 && extTop 4
  | .ringAdv => modOnly f 11 11 && extTop 4
  | .mxb => modOnly f 14 11 && f.ty < 3 && ext0 && p7
  | .mma =>
    let a := f.ty
    let b := f.modBits 18 15
    let int := (a = 7 || a = 8) && (b = 7 || b = 8)
    (int || (a = b && [9, 11, 12, 13, 14].contains a)) && (int || f.modBits 19 19 = 0)
      && (f.modBits 21 21 = 1 || (f.modBits 26 22 = 0 && f.modBits 27 27 = 0))
      && (f.modBits 27 27 = 1 || f.modBits 31 28 = 0) && extTop 11
  | .mzero => modOnly f 20 20 && extTop 6 && p7
  | .mlda => modOnly f 20 20 && extTop 6
  | .bld => modOnly f 14 11 && [7, 8, 9, 11, 12, 13, 14].contains f.ty && extTop 6
  | .mdrain =>
    f.modBits 21 21 = 0 && f.modBits 19 15 = 0 && extTop 6
      && (f.modBits 27 27 = 1 || f.modBits 31 28 = 0)
      && (f.ty = 0 || (f.modBits 27 27 = 0 && f.modBits 20 20 = 0))
      && (f.ty < 2 || (f.ty = 2 && f.modBits 26 22 < 21))
  | .mdresume => f.mod = 0 && ext0
  | .mwait => modOnly f 11 11 && ext0
  | .srgOpen => modOnly f 16 11 && extTop 6
  | .srgClose => f.mod = 0 && extTop 6 && p7
  | .srg => modOnly f 14 11 && f.ty < 4 && (if f.ty = 1 then extTop 6 else ext0)
  | .srgStat => modOnly f 14 11 && f.ty < 11 && ext0
  | .liftPush =>
    modOnly f 14 11 && (if f.modBits 11 11 = 1 then extTop 6 else ext0)
  | .liftPop => modOnly f 14 12 && ext0
  | .liftFree | .liftWait => f.mod = 0 && ext0
  | .enq | .depInc | .depDec => f.mod = 0 && ext0
  | .spawn => f.mod = 0 && extTop 3
  | .phase => f.mod = 0 && extTop 3 && p7
  | .retire | .depWait => f.mod = 0 && ext0 && p7
  | .qstat => modOnly f 13 11 && f.modBits 13 11 < 4 && ext0
  | .probe => modOnly f 14 13 && f.modBits 14 13 < 3 && ext0
  | .mapp | .mapstat => modOnly f 12 11 && f.modBits 12 11 < 2 && ext0
  | .tlbiLocal | .unmap | .tlbiPage => f.mod = 0 && ext0

/-- Does the opcode have a short form (03 R66)? -/
def hasShort (op8 : Nat) : Bool := op8 < 0xA0 || op8 = 0xA0 || op8 = 0xA2 || op8 = 0xA6

/-- Does the operand code name a register v0-v239, which alone may carry a last-read mark (03 R75)? -/
def Operand.markable : Operand → Bool
  | .v n => n < 240
  | _ => false

/-- Words of a register operand that a use spans. -/
def Use.words : Use → Nat
  | .w64 | .base64 | .pair => 2
  | .w128 => 4
  | _ => 1

/-- Is the operand code valid as a source of this use (R83 check 7: R71, R72, 09 R214, R215, R227)? -/
def Use.srcOk (u : Use) (o : Operand) : Bool :=
  match u, o with
  | .no, _ => true
  | _, .reserved => false
  | .w32, _ => true
  | .coords, _ => true
  | .w64, .v n => n % 2 = 0
  | .w64, .s n => n % 2 = 0
  | .w64, .lit => true
  | .w64, .special _ => true
  | .base64, .v n => n % 2 = 0
  | .base64, .s n => n % 2 = 0
  | .base64, .lit => true
  | .pair, .v n => n % 2 = 0
  | .pair, .s n => n % 2 = 0
  | .w128, .v n => n % 4 = 0
  | .w128, .s n => n % 4 = 0
  | .vreg, .v _ => true
  | .image, .s _ => true
  | _, _ => false

/-- Is the operand code valid as a destination (R71, R72)? An s or k register needs U = 1 or a uniform result. -/
def Use.dstOk (u : Use) (o : Operand) (scalarOk : Bool) : Bool :=
  match u, o with
  | .no, _ => true
  | .w32, .v _ => true
  | .w32, .s _ => scalarOk
  | .w64, .v n => n % 2 = 0
  | .w64, .s n => n % 2 = 0 && scalarOk
  | .w128, .v n => n % 4 = 0
  | .w128, .s n => n % 4 = 0 && scalarOk
  | .vreg, .v _ => true
  | _, _ => false

/-- Does the opcode take a literal other than through an operand: the remote counter of a Crane command (12 R290)? -/
def consumesLiteral (op : Op) (f : LongFields) : Bool :=
  match op with
  | .crnLd | .crnSt | .crnCp | .crnSet | .crnGather | .crnChain => f.modBits 14 14 = 1
  | _ => false

/-- Does the instruction take part in OCE (R77): a fixed-latency result of 32 bits per lane? A result whose D is a base
register is as wide as the type (07 R182: movxw.n64). -/
def Shape.copyable (sh : Shape) (f : LongFields) : Bool :=
  match sh.lat with
  | .fixed _ => sh.d = .w32 || (sh.d = .vreg && !wideType f.ty)
  | _ => false

/-- May operand A carry a last-read mark, where it names a register: the opcode reads A (R75; kill only names the
registers it frees, 07 R186), and the Lift allows the mark on lift.push with CNT 0 alone (16 R376)? -/
def marksA (op : Op) (f : LongFields) : Bool :=
  match op with
  | .kill | .liftWait | .srgOpen => false
  | .liftPush => f.modBits 14 12 = 0
  | _ => true

/-- Must a code be 0 because the field is not used? In the long form C of a Crane command that appends to a ring is
%zero (12 R290). -/
def unusedOk (op : Op) (sh : Shape) (f : LongFields) : Bool :=
  let ringEnd := (op = .crnLd || op = .crnGather) && f.modBits 13 13 = 1
  (sh.a ≠ .no || f.a = 0) && (sh.b ≠ .no || f.b = 0)
    && (sh.c ≠ .no || (if ringEnd then f.c = 332 else f.c = 0))
    && (sh.result ≠ .none || f.d = 0)

/-- R83 check 5 for a long form: accepted MOD values, must-be-zero bits, and R74, R75, R77. -/
def formOk (op : Op) (f : LongFields) : Bool :=
  let sh := shape op f
  modOk op f && unusedOk op sh f
    && (!f.nwb || (f.d = 0 && sh.result ≠ .none && sh.lat ≠ .variable))
    && (!f.la || (sh.a ≠ .no && marksA op f && (Operand.ofCode f.a).markable))
    && (!f.lb || (sh.b ≠ .no && (Operand.ofCode f.b).markable))
    && (!f.lc || (sh.c ≠ .no && (Operand.ofCode f.c).markable))
    && (if f.oce then sh.copyable f else f.oci = 0)

/-- Does an operand of the instruction name the literal: a destination that does so passes check 6 and fails check 7
(R71)? -/
def namesLiteral (sh : Shape) (f : LongFields) : Bool :=
  let names (u : Use) (c : BitVec 9) : Bool := u ≠ .no && c = 331
  names sh.a f.a || names sh.b f.b || names sh.c f.c || (sh.result ≠ .none && names sh.d f.d)

/-- R83 check 6: a literal is present only if an operand names it or the opcode consumes it; a remote counter takes the
literal for itself (12 R290). -/
def literalOk (op : Op) (f : LongFields) : Bool :=
  let sh := shape op f
  if consumesLiteral op f then f.lit.isSome && !namesLiteral sh f
  else f.lit.isNone || namesLiteral sh f

/-- R83 check 7: every operand code is valid for its field (R71, R72), the literal included. -/
def operandsOk (op : Op) (f : LongFields) : Bool :=
  let sh := shape op f
  sh.a.srcOk (Operand.ofCode f.a) && sh.b.srcOk (Operand.ofCode f.b) && sh.c.srcOk (Operand.ofCode f.c)
    && (sh.result = .none || f.nwb || sh.d.dstOk (Operand.ofCode f.d) (f.u || sh.result = .uniform))
    && (f.lit.isSome || !namesLiteral sh f)

/-- The checks of R83 orders 5 to 7 on a long form, in their order. -/
def checkLong (op : Op) (f : LongFields) : Option Reject :=
  if !formOk op f then some .malformed
  else if !literalOk op f then some .malformed
  else if !operandsOk op f then some .illegalOperand
  else none

/-- Does the opcode read C, with MOD 0 (03 R65)? -/
def readsC (op : Op) : Bool := (shape op ⟨0, false, 0, 0, 0, 0, false, false, false, false, 0, false, 0, false, 7, none⟩).c ≠ .no

/-- The long form that a short form executes as (03 R65). -/
def ShortFields.widen (op : Op) (f : ShortFields) : LongFields :=
  { mod := 0, u := f.u, d := fullCode f.d, a := fullCode f.a, b := fullCode f.b, c := if readsC op then 332 else 0
    nwb := false, la := false, lb := false, lc := false, ext := 0, oce := false, oci := 0, pn := false, ps := 7
    lit := f.lit }

/-- The checks of R83 orders 5 to 7 on a short form. -/
def checkShort (op : Op) (f : ShortFields) : Option Reject := checkLong op (f.widen op)

end Sys2Proof
end

