-- ==== Sys2Proof/Syntax.lean ====
section
/-! DEFINITION. The instructions of SW9 and the steps of the device: one constructor for each row of the opcode table. -/

namespace Sys2Proof

/-- The instructions and steps: one constructor for each row of the opcode table (spec/opcode_table.json), the
steps of the device first and then the instructions, each in the table's order. Each docstring gives the row's rule and the head of its summary. -/
inductive Instr where
  /-- R444. A cold start senses fuses, extends MEAS0 and MEAS1, derives the identity key, trains memory, self-tests, scrubs all ... -/
  | coldStart (inp : StartInput)
  /-- R444. A warm start re-extends MEAS0 and MEAS1, reuses the saved training values, scrubs all memory, verifies the image, ... -/
  | warmStart (inp : StartInput)
  /-- R445. A start step fails, or READY is not written within 10 s, so FAILS is incremented and the module enters SAFE after ... -/
  | startFailure
  /-- R445. The Pilot writes READY in SECSTAT, which sets STATE to RUNNING and clears FAILS. -/
  | ready
  /-- R445. A write to MBOX names the firmware image and, in SAFE, starts a cold start with the new image. -/
  | mboxWrite (val : BitVec 64) (inp : StartInput)
  /-- R453. The junction temperature rises above the trip limit, so the block logs UNCORRECTABLE, removes power from every die ... -/
  | thermalTrip
  /-- R441. EXTCMD GO extends MEAS5, MEAS6 or MEAS7 with EXTDATA. -/
  | measExtend (cmd : BitVec 32)
  /-- R442. ATTCMD GO captures the measurements, the audit state and the nonce and writes a signed report of 0x1500 bytes, or ... -/
  | attestationReport (cmd : BitVec 64)
  /-- R448. CTXCMD with OP CREATE checks the descriptor, sets the creation values, sets VALID and logs the creation, or refuses ... -/
  | ctxCreate (ctx : Fin 64)
  /-- R447. CTXCMD with OP RELEASE scrubs and unassigns the context's cores, zeroes its L2 lines, resets the per-context state ... -/
  | ctxRelease (ctx : Fin 64)
  /-- R449. A write to a core's CORECTX assigns the core to a context or unassigns it, scrubbing the core first, or is refused ... -/
  | corectxWrite (core : Fin 384) (val : BitVec 64)
  /-- R451. A write of an event code to APPENDCMD appends a firmware entry with the APPEND data to the hash-chained audit log, ... -/
  | auditAppend (event : BitVec 16) (tug : Bool)
  /-- R452. The block writes an unspilled audit entry to the host spill region, freeing its ring entry, and writes a LOST entry ... -/
  | auditSpill
  /-- R405. An aligned 8-byte write to a queue's doorbell is checked against RIDX and WIDX, and it either advances WIDX or sets ... -/
  | doorbellWrite (q : Fin 1024) (val : BitVec 64) (func : Nat)
  /-- R406. An aligned 8-byte write of a run-list entry sets the queue's QCB address, context and VALID bit, and is ignored ... -/
  | runListWrite (q : Fin 1024) (val : BitVec 64)
  /-- R424. HQCMD OP MAP attaches a queue to a hardware slot, reads its QCB, applies a recorded doorbell and resumes at SIDX, or ... -/
  | map (slot : Fin 128) (q : Fin 1024)
  /-- R424. HQCMD OP UNMAP with MODE 0 suspends a queue, abandons an incomplete BARRIER or PRED, and waits until every started ... -/
  | unmapSuspend (slot : Fin 128)
  /-- R425. HQCMD OP UNMAP with MODE 1 destroys a queue: its launches are set draining and aborted, and every unstarted packet ... -/
  | unmapDestroy (slot : Fin 128)
  /-- R425. Once every launch of a destroyed queue has completed, the front-end Crane zeroes the queue's areas and ring, ... -/
  | queueDestroyed (q : Fin 1024)
  /-- R424. HQCMD OP SWITCH suspends a slot's queue and maps another queue to the slot in one operation. -/
  | switch (slot : Fin 128) (q : Fin 1024)
  /-- R269. A write of POOLTAIL in a context descriptor advances the producer count of the frame pool, and is ignored when the ... -/
  | pooltailWrite (ctx : Fin 64) (val : Word)
  /-- R5. A write to a register that has no behaviour of its own stores its RW fields under the access codes and leaves RO and ... -/
  | registerWrite (addr : BitVec 48) (size : Nat) (val : BitVec 64)
  /-- R263. The debug request ATTACH attaches a debugger to a context and logs the attach. -/
  | debugAttach
  /-- R263. The debug request DETACH resumes every stopped team of the context, detaches the debugger and logs the detach. -/
  | debugDetach
  /-- R261. The debug request STOP halts a team as a fault would, with CAUSE 0 and without killing it. -/
  | debugStop
  /-- R261. The debug request RESUME lets every group of a stopped team continue at its recorded address with its saved latches ... -/
  | debugResume
  /-- R261. The debug request STEP lets one group of a stopped team issue one instruction, after which it stops again. -/
  | debugStep
  /-- R261. The debug request READ returns a register, latch, operand-cache entry, predicate, em, PC or system register of a ... -/
  | debugRead
  /-- R261. The debug request WRITE writes such an object of a stopped group, allocating an unallocated renamed register, or is ... -/
  | debugWrite
  /-- R419. A LAUNCH packet checks the packet, the LPB, the kernel header and the launch area, and then starts a grid or seed ... -/
  | launchPacket (q : Fin 1024)
  /-- R414. A BARRIER packet starts and evaluates its signal conditions, holding every later packet of its queue until it ... -/
  | barrierPacket (q : Fin 1024)
  /-- R414. A waiting BARRIER packet re-evaluates its signals after a write to one of them, or after one microsecond for a host ... -/
  | barrierEvaluation (q : Fin 1024)
  /-- R412. A SIGNAL packet stores VALUE at ADDR, or adds it, as a release at sys scope. -/
  | signalPacket (q : Fin 1024)
  /-- R412. A COPY packet starts a copy of BYTES bytes from SRC to DST through the front-end Crane. -/
  | copyPacket (q : Fin 1024)
  /-- R411. Every byte of a front-end COPY has been performed, or the copy has failed, so the packet completes and its ... -/
  | copyComplete (q : Fin 1024) (index : BitVec 64)
  /-- R417. A PRED packet reads a signal, compares it with VALUE and lets only the true arm or only the false arm of the ... -/
  | predPacket (q : Fin 1024)
  /-- R412. An INVAL packet starts a shootdown of a VA range, or of the whole context, in the queue's context. -/
  | invalPacket (q : Fin 1024)
  /-- R412. A MARKER packet writes sr.time at TADDR and, when AUDIT is 1, appends DATA to the audit log. -/
  | markerPacket (q : Fin 1024)
  /-- R411. A NOP packet completes at its start. -/
  | nopPacket (q : Fin 1024)
  /-- R426. A team's residency clock reaches T1, so pre-emption of the team is requested. -/
  | watchdogT1 (team : TeamRef)
  /-- R426. A team's residency clock reaches T2, so the team is killed with cause WATCHDOG. -/
  | watchdogT2 (team : TeamRef)
  /-- R426. A team's residency clock reaches T3 while the team still holds a reservation, so its core is fenced until a warm start. -/
  | watchdogT3 (team : TeamRef)
  /-- R393. At the end of each scheduling round the Pilot changes the cores' assignments by queue occupancy and blocked lists. -/
  | pilotSchedulingRound (plan : List Assignment)
  /-- R392. A Tug selects an eviction record, a stage record or a ticket, reserves the resources of the selected variant, claims ... -/
  | tugClaim (core : Fin 384) (placement : Placement)
  /-- R54. A team with a pending pre-emption request reaches a pre-emption point, and its whole state is saved in an eviction ... -/
  | eviction (team : TeamRef)
  /-- R57. The halt reaches a sibling group, which issues at most 3 more instructions and then records its halt record. -/
  | haltDelivery (group : GroupRef)
  /-- R58. Once the halted team's accepted engine commands have completed and its berths have settled, the team is killed, its ... -/
  | teamKill (team : TeamRef)
  /-- R46. The 64th instruction of a run issues, so the run ends, the latches are emptied and the group rejoins the ready queue. -/
  | runLimit (group : GroupRef)
  /-- R49. A stall passes sr.swapth.THRESH cycles, so the group's latches, operand cache and run count are saved and its barrel ... -/
  | transparentSwap (group : GroupRef)
  /-- R165. A variable-latency result arrives and is written to its register, clearing the pending bit and waking a stalled or ... -/
  | loadReturn (group : GroupRef) (id : Nat)
  /-- R157. A store held in the store buffer is performed at its home slice or storage. -/
  | storePerform (core : Fin 384) (id : Nat)
  /-- R236. The stack cache writes private stack bytes back to their backing pages, or refills them, in the background. -/
  | stackWriteback (group : GroupRef) (offset : Nat) (refill : Bool)
  /-- R243. Instruction words missing from the instruction cache arrive, and the stalled group issues its branch target. -/
  | instructionFetch (group : GroupRef)
  /-- R245. The time of a sleep has passed, so the sleeping group issues again. -/
  | sleepExpiry (group : GroupRef)
  /-- R266. A page walk ends with a translation or a fault, installs the TLB entry, sets A, and lets waiting or predicted ... -/
  | pageWalkComplete (core : Fin 384) (ctx : Fin 64) (va : BitVec 64)
  /-- R277. The host answers a page request, so the waiting groups reissue their instruction, or the team is halted with KILLED. -/
  | hostPageResponse (ctx : Fin 64) (page : BitVec 64) (mapped : Bool)
  /-- R270. An ATS completion for the host-shared half arrives and is installed as a translation, or it grants no access and a ... -/
  | atsCompletion (ctx : Fin 64) (page : BitVec 64) (r w : Bool)
  /-- R270. A Page Request Group response arrives, so the access is retried on success and raises HOST_PAGE otherwise. -/
  | priResponse (ctx : Fin 64) (page : BitVec 64) (ok : Bool)
  /-- R270. The host sends an ATS Invalidate Request, which completes once every access accepted under the invalidated ... -/
  | atsInvalidateRequest (ctx : Fin 64) (page : BitVec 64)
  /-- R278. All eight logic dies and the I/O die have acknowledged a shootdown, so it completes and its waiting instruction or ... -/
  | shootdownComplete (id : Nat)
  /-- R429. A host read, write or atomic through BAR2 is performed at the home slice or at the target core's window, or is ... -/
  | hostBar2Access (addr : BitVec 48) (access : OutsideAccess)
  /-- R433. A remote access arrives over a Proeri link and is translated and performed at the target's home slice under the ... -/
  | remoteAccess (ctx : Fin 64) (va : BitVec 64) (access : OutsideAccess)
  /-- R434. A Proeri link goes down, so its accepted remote accesses are resent over another UP link, or the issuing team is ... -/
  | linkDown (link : Fin 18)
  /-- R384. While the gate is PENDING, the upper core becomes empty of teams, engine work and downward entries, so the state ... -/
  | gateEntry (core : Fin 384)
  /-- R384. The upper core's Tug has restarted after a wake, so the gate state goes from WAKING to ON. -/
  | gateWakeComplete (core : Fin 384)
  /-- R326. A 1,024-cycle governor window ends, so the next window's limit is computed and HELD advances when a step was held. -/
  | governorWindow (core : Fin 384)
  /-- R294. A Crane command reaches its turn in the queue, with ring room when it appends, and reads and checks its records, ... -/
  | craneCommandBegin (core : Fin 384) (cq : Fin 4)
  /-- R295. Every element of a Crane command has been performed, so the ring is advanced, the remote counter is incremented and ... -/
  | craneCommandComplete (core : Fin 384) (cq : Fin 4)
  /-- R301. The chain walker reaches a COPY entry and performs it as a Crane command with the walker's coordinates and offset bias. -/
  | chainCopy (core : Fin 384) (cq : Fin 4)
  /-- R301. The chain walker reaches a LOOP entry, then adds the increments and goes back, or restores the coordinates and goes on. -/
  | chainLoop (core : Fin 384) (cq : Fin 4)
  /-- R301. The chain walker reaches an IFCNT entry, reads the counter as an acquire and skips SKIP entries when the counter is ... -/
  | chainIfcnt (core : Fin 384) (cq : Fin 4)
  /-- R301. The chain walker reaches a SIGNAL entry and writes or adds to an n64 as a release after the earlier entries. -/
  | chainSignal (core : Fin 384) (cq : Fin 4)
  /-- R301. The chain walker reaches a FENCE entry, which acts as crn.fence on the mask and the chain's own queue. -/
  | chainFence (core : Fin 384) (cq : Fin 4)
  /-- R301. The chain walker reaches END, which ends the chain and lets its berth become ready. -/
  | chainEnd (core : Fin 384) (cq : Fin 4)
  /-- R317. The mma at the head of the matrix queue fires when its A data, bank, drain entry and output room are available, ... -/
  | mmaFire (core : Fin 384)
  /-- R318. An mma's array phase ends, so the bank holds the product and the berth becomes ready or the automatic drain is entered. -/
  | arrayPhaseEnd (core : Fin 384)
  /-- R319. An mzero, mlda or bld at the queue head writes its bank or B-store and makes its berth ready. -/
  | matrixCommandComplete (core : Fin 384)
  /-- R339. A drain command reaches its turn after the bank is written, latches its program, constants and table, checks them ... -/
  | drainStart (core : Fin 384)
  /-- R339. An mdrain.load or mdrain.const in the drain queue copies its scratchpad bytes into the slot, constants or table, and ... -/
  | drainConstantLoad (core : Fin 384)
  /-- R329. A drain row leaves the stages and is stored, or appended to the ring, in ascending row order. -/
  | drainRowStore (core : Fin 384)
  /-- R339. Every row of a drain is performed, so prod advances in reservation order and the berth becomes ready with its flags. -/
  | drainComplete (core : Fin 384)
  /-- R357. The surrogate engine decides a call in queue order: mode A answers accepted lanes and sends rejected and sampled ... -/
  | surrogateDecision (core : Fin 384)
  /-- R367. An srg.load in the surrogate queue finishes reading its image, makes it resident or not, and writes its status. -/
  | srgLoadComplete (core : Fin 384)
  /-- R361. A recovery group is formed from up to 32 Slipway records of one key when a slot is free and the key is full, old or ... -/
  | recoveryGroupFormation (core : Fin 384)
  /-- R365. A disable or enable reaches a core's ENABLED and GEN copies. -/
  | surrogateDisableArrival (core : Fin 384) (id : Fin 256) (enabled : Bool) (gen : Word)
  /-- R375. A pushed entry becomes present in the partner's AVAIL, which can wake a group waiting at lift.pop. -/
  | liftEntryArrival (core : Fin 384)
  /-- R378. A bulk push enters its captured entries into the FIFO as slots free, and its berth becomes ready after the last entry. -/
  | liftBulkEntry (core : Fin 384)
  /-- R83. A group issues an instruction word whose OP8 is 0xFF, an FL cell or an unassigned dash, which raises ... -/
  | illegalInstruction (words : List Word)
  /-- R430. A Proeri link becomes trained and carrying flits, so LINKSTAT.UP becomes 1 and PEER becomes valid for remote traffic. -/
  | linkUp (link : Fin 18) (peer : BitVec 16)
  /-- R454. An uncorrectable ECC error arises in a structure, poisoning a home-slice line, aborting a launch for a poisoned ... -/
  | uncorrectableError (where_ : ErrorPlace)
  /-- R240. Short form of nop: does nothing. -/
  | nopShort (f : ShortFields)
  /-- R240. Long form of nop: does nothing. -/
  | nopLong (f : LongFields)
  /-- R242. Short form of bra: branches by a relative offset. -/
  | braShort (f : ShortFields)
  /-- R242. Long form of bra: branches by a relative offset. -/
  | braLong (f : LongFields)
  /-- R242. Short form of brx: branches to an absolute 64-bit target. -/
  | brxShort (f : ShortFields)
  /-- R242. Long form of brx: branches to an absolute 64-bit target. -/
  | brxLong (f : LongFields)
  /-- R242. Short form of call: writes the return address and branches. -/
  | callShort (f : ShortFields)
  /-- R242. Long form of call: writes the return address and branches. -/
  | callLong (f : LongFields)
  /-- R242. Short form of ret: returns to a 64-bit address. -/
  | retShort (f : ShortFields)
  /-- R242. Long form of ret: returns to a 64-bit address. -/
  | retLong (f : LongFields)
  /-- R242. Short form of bany: branches when the tested predicate holds in some em lane. -/
  | banyShort (f : ShortFields)
  /-- R242. Long form of bany: branches when the tested predicate holds in some em lane. -/
  | banyLong (f : LongFields)
  /-- R242. Short form of ball: branches when the tested predicate holds in every em lane. -/
  | ballShort (f : ShortFields)
  /-- R242. Long form of ball: branches when the tested predicate holds in every em lane. -/
  | ballLong (f : LongFields)
  /-- R242. Short form of bnone: branches when the tested predicate holds in no em lane. -/
  | bnoneShort (f : ShortFields)
  /-- R242. Long form of bnone: branches when the tested predicate holds in no em lane. -/
  | bnoneLong (f : LongFields)
  /-- R244. Short form of emset: sets em to a mask and returns the old em. -/
  | emsetShort (f : ShortFields)
  /-- R244. Long form of emset: sets em to a mask or predicate and returns the old em. -/
  | emsetLong (f : LongFields)
  /-- R244. Short form of emand: ANDs a mask into em. -/
  | emandShort (f : ShortFields)
  /-- R244. Long form of emand: ANDs a mask or predicate into em. -/
  | emandLong (f : LongFields)
  /-- R244. Short form of emor: ORs a mask into em. -/
  | emorShort (f : ShortFields)
  /-- R244. Long form of emor: ORs a mask or predicate into em. -/
  | emorLong (f : LongFields)
  /-- R244. Short form of emnot: clears the mask's lanes from em. -/
  | emnotShort (f : ShortFields)
  /-- R244. Long form of emnot: clears the mask's or predicate's lanes from em. -/
  | emnotLong (f : LongFields)
  /-- R245. Short form of yield: ends the run, and the group is ready at once. -/
  | yieldShort (f : ShortFields)
  /-- R245. Long form of yield: ends the run. -/
  | yieldLong (f : LongFields)
  /-- R246. Short form of bar: arrives at barrier 0 and waits. -/
  | barShort (f : ShortFields)
  /-- R246. Long form of bar: arrives at a barrier with a count and waits for the instance. -/
  | barLong (f : LongFields)
  /-- R246. Short form of bar.arrive: arrives at barrier 0 without waiting. -/
  | barArriveShort (f : ShortFields)
  /-- R246. Long form of bar.arrive: arrives at a barrier without waiting. -/
  | barArriveLong (f : LongFields)
  /-- R246. Short form of bar.wait: waits for the instance of barrier 0 at which the group arrived. -/
  | barWaitShort (f : ShortFields)
  /-- R246. Long form of bar.wait: waits for the barrier instance at which the group arrived. -/
  | barWaitLong (f : LongFields)
  /-- R248. Short form of waitb.all: waits until every masked berth is ready. -/
  | waitbAllShort (f : ShortFields)
  /-- R248. Long form of waitb.all: waits until every masked berth is ready, and consumes them with .c. -/
  | waitbAllLong (f : LongFields)
  /-- R248. Short form of waitb.any: waits until some masked berth is ready. -/
  | waitbAnyShort (f : ShortFields)
  /-- R248. Long form of waitb.any: waits until some masked berth is ready. -/
  | waitbAnyLong (f : LongFields)
  /-- R248. Short form of ffb: writes the lowest masked ready berth, or 64. -/
  | ffbShort (f : ShortFields)
  /-- R248. Long form of ffb: writes the lowest masked ready berth, and frees it with .c. -/
  | ffbLong (f : LongFields)
  /-- R248. Short form of bclr: frees every masked berth that is ready. -/
  | bclrShort (f : ShortFields)
  /-- R248. Long form of bclr: frees every masked berth that is ready. -/
  | bclrLong (f : LongFields)
  /-- R258. Short form of trap: raises SOFTWARE with code 0. -/
  | trapShort (f : ShortFields)
  /-- R258. Long form of trap: raises SOFTWARE with a code. -/
  | trapLong (f : LongFields)
  /-- R257. Short form of tret: restores the interrupted state from the frame and resumes. -/
  | tretShort (f : ShortFields)
  /-- R257. Long form of tret: restores the interrupted state from the frame and resumes. -/
  | tretLong (f : LongFields)
  /-- R257. tret.kill halts the team with the frame's cause and the KILLED flag. -/
  | tretKill (f : LongFields)
  /-- R258. Short form of svc: raises SVC with code 0. -/
  | svcShort (f : ShortFields)
  /-- R258. Long form of svc: raises SVC with a code. -/
  | svcLong (f : LongFields)
  /-- R260. Short form of exit: ends the group, frees its registers, leaves barriers, and retires the team at the last group. -/
  | exitShort (f : ShortFields)
  /-- R260. Long form of exit: ends the group. -/
  | exitLong (f : LongFields)
  /-- R245. Short form of sleep: stalls for up to a time in nanoseconds. -/
  | sleepShort (f : ShortFields)
  /-- R245. Long form of sleep: stalls for up to a time in nanoseconds. -/
  | sleepLong (f : LongFields)
  /-- R251. Short form of msr: writes system register 0 (sr.bmap), which is read only. -/
  | msrShort (f : ShortFields)
  /-- R251. Long form of msr: writes a system register under its privilege. -/
  | msrLong (f : LongFields)
  /-- R251. Short form of mrs: reads system register 0 (sr.bmap). -/
  | mrsShort (f : ShortFields)
  /-- R251. Long form of mrs: reads a system register. -/
  | mrsLong (f : LongFields)
  /-- R258. Short form of brk: raises BREAKPOINT, or stops the team when a debugger is attached. -/
  | brkShort (f : ShortFields)
  /-- R258. Long form of brk with a code. -/
  | brkLong (f : LongFields)
  /-- R181. Short form of mov: copies the source in active lanes. -/
  | movShort (f : ShortFields)
  /-- R181. Long form of mov. -/
  | movLong (f : LongFields)
  /-- R182. Short form of movx: reads a register chosen by a uniform index. -/
  | movxShort (f : ShortFields)
  /-- R182. Long form of movx. -/
  | movxLong (f : LongFields)
  /-- R182. Short form of movxw: writes a register chosen by a uniform index. -/
  | movxwShort (f : ShortFields)
  /-- R182. Long form of movxw. -/
  | movxwLong (f : LongFields)
  /-- R183. Short form of xred: reduces the lanes by a fixed tree. -/
  | xredShort (f : ShortFields)
  /-- R183. Long form of xred. -/
  | xredLong (f : LongFields)
  /-- R183. Short form of xscan: a segmented inclusive scan. -/
  | xscanShort (f : ShortFields)
  /-- R183. Long form of xscan. -/
  | xscanLong (f : LongFields)
  /-- R184. Short form of xshf: pick lane exchange. -/
  | xshfShort (f : ShortFields)
  /-- R184. Long form of xshf: pick, scatter, slide or swap lane exchange. -/
  | xshfLong (f : LongFields)
  /-- R184. Short form of xbal: mask of active lanes with a non-zero source. -/
  | xbalShort (f : ShortFields)
  /-- R184. Long form of xbal: the mask or its count. -/
  | xbalLong (f : LongFields)
  /-- R184. Short form of xread: reads one lane as a uniform result. -/
  | xreadShort (f : ShortFields)
  /-- R184. Long form of xread. -/
  | xreadLong (f : LongFields)
  /-- R186. Short form of kill: frees one register. -/
  | killShort (f : ShortFields)
  /-- R186. Long form of kill: frees up to 16 registers. -/
  | killLong (f : LongFields)
  /-- R186. Short form of foot: writes sr.foot as a uniform result. -/
  | footShort (f : ShortFields)
  /-- R186. Long form of foot. -/
  | footLong (f : LongFields)
  /-- R184. Short form of xwrite: writes one lane of D with a uniform value. -/
  | xwriteShort (f : ShortFields)
  /-- R184. Long form of xwrite. -/
  | xwriteLong (f : LongFields)
  /-- R185. Short form of movp: movp.all sets p0-p6 from the source's bits. -/
  | movpShort (f : ShortFields)
  /-- R185. Long form of movp: movp.all, or movp.one to one predicate. -/
  | movpLong (f : LongFields)
  /-- R184. Short form of xmatch: mask of active lanes with an equal value. -/
  | xmatchShort (f : ShortFields)
  /-- R184. Long form of xmatch. -/
  | xmatchLong (f : LongFields)
  /-- R184. Short form of xrot: rotates the lanes by a uniform distance. -/
  | xrotShort (f : ShortFields)
  /-- R184. Long form of xrot. -/
  | xrotLong (f : LongFields)
  /-- R184. Short form of xfirst: the value of the lowest active lane. -/
  | xfirstShort (f : ShortFields)
  /-- R184. Long form of xfirst: the lowest active lane's value or index. -/
  | xfirstLong (f : LongFields)
  /-- R181. Short form of movw: copies all 32 lanes. -/
  | movwShort (f : ShortFields)
  /-- R181. Long form of movw. -/
  | movwLong (f : LongFields)
  /-- R196. Short form of iadd: integer add. -/
  | iaddShort (f : ShortFields)
  /-- R196. Long form of iadd. -/
  | iaddLong (f : LongFields)
  /-- R196. Short form of isub: integer subtract. -/
  | isubShort (f : ShortFields)
  /-- R196. Long form of isub. -/
  | isubLong (f : LongFields)
  /-- R196. Short form of imul: low half of the integer product. -/
  | imulShort (f : ShortFields)
  /-- R196. Long form of imul: lo, hi or wide product. -/
  | imulLong (f : LongFields)
  /-- R196. Short form of imad: multiply and add of %zero. -/
  | imadShort (f : ShortFields)
  /-- R196. Long form of imad: multiply and add. -/
  | imadLong (f : LongFields)
  /-- R196. Short form of imin. -/
  | iminShort (f : ShortFields)
  /-- R196. Long form of imin. -/
  | iminLong (f : LongFields)
  /-- R196. Short form of imax. -/
  | imaxShort (f : ShortFields)
  /-- R196. Long form of imax. -/
  | imaxLong (f : LongFields)
  /-- R196. Short form of iabs. -/
  | iabsShort (f : ShortFields)
  /-- R196. Long form of iabs. -/
  | iabsLong (f : LongFields)
  /-- R196. Short form of ineg. -/
  | inegShort (f : ShortFields)
  /-- R196. Long form of ineg. -/
  | inegLong (f : LongFields)
  /-- R198. Short form of and. -/
  | andShort (f : ShortFields)
  /-- R198. Long form of and. -/
  | andLong (f : LongFields)
  /-- R198. Short form of or. -/
  | orShort (f : ShortFields)
  /-- R198. Long form of or. -/
  | orLong (f : LongFields)
  /-- R198. Short form of xor. -/
  | xorShort (f : ShortFields)
  /-- R198. Long form of xor. -/
  | xorLong (f : LongFields)
  /-- R198. Short form of not. -/
  | notShort (f : ShortFields)
  /-- R198. Long form of not. -/
  | notLong (f : LongFields)
  /-- R198. Short form of shl. -/
  | shlShort (f : ShortFields)
  /-- R198. Long form of shl. -/
  | shlLong (f : LongFields)
  /-- R198. Short form of shr. -/
  | shrShort (f : ShortFields)
  /-- R198. Long form of shr. -/
  | shrLong (f : LongFields)
  /-- R198. Short form of sar. -/
  | sarShort (f : ShortFields)
  /-- R198. Long form of sar. -/
  | sarLong (f : LongFields)
  /-- R198. Short form of rot. -/
  | rotShort (f : ShortFields)
  /-- R198. Long form of rot. -/
  | rotLong (f : LongFields)
  /-- R199. Short form of bfe: bit-field extract. -/
  | bfeShort (f : ShortFields)
  /-- R199. Long form of bfe. -/
  | bfeLong (f : LongFields)
  /-- R199. Short form of bfi: bit-field insert into %zero. -/
  | bfiShort (f : ShortFields)
  /-- R199. Long form of bfi. -/
  | bfiLong (f : LongFields)
  /-- R199. Short form of popc. -/
  | popcShort (f : ShortFields)
  /-- R199. Long form of popc. -/
  | popcLong (f : LongFields)
  /-- R199. Short form of clz. -/
  | clzShort (f : ShortFields)
  /-- R199. Long form of clz. -/
  | clzLong (f : LongFields)
  /-- R199. Short form of brev. -/
  | brevShort (f : ShortFields)
  /-- R199. Long form of brev. -/
  | brevLong (f : LongFields)
  /-- R200. Short form of icmp: icmp.eq.s32 into p0. -/
  | icmpShort (f : ShortFields)
  /-- R200. Long form of icmp: integer compare into a predicate. -/
  | icmpLong (f : LongFields)
  /-- R202. Short form of fadd. -/
  | faddShort (f : ShortFields)
  /-- R202. Long form of fadd. -/
  | faddLong (f : LongFields)
  /-- R202. Short form of fsub. -/
  | fsubShort (f : ShortFields)
  /-- R202. Long form of fsub. -/
  | fsubLong (f : LongFields)
  /-- R202. Short form of fmul. -/
  | fmulShort (f : ShortFields)
  /-- R202. Long form of fmul. -/
  | fmulLong (f : LongFields)
  /-- R202. Short form of ffma with C = %zero. -/
  | ffmaShort (f : ShortFields)
  /-- R202. Long form of ffma. -/
  | ffmaLong (f : LongFields)
  /-- R203. Short form of fmin. -/
  | fminShort (f : ShortFields)
  /-- R203. Long form of fmin. -/
  | fminLong (f : LongFields)
  /-- R203. Short form of fmax. -/
  | fmaxShort (f : ShortFields)
  /-- R203. Long form of fmax. -/
  | fmaxLong (f : LongFields)
  /-- R205. Short form of frcp. -/
  | frcpShort (f : ShortFields)
  /-- R205. Long form of frcp. -/
  | frcpLong (f : LongFields)
  /-- R205. Short form of frsq. -/
  | frsqShort (f : ShortFields)
  /-- R205. Long form of frsq. -/
  | frsqLong (f : LongFields)
  /-- R202. Short form of fsqrt. -/
  | fsqrtShort (f : ShortFields)
  /-- R202. Long form of fsqrt. -/
  | fsqrtLong (f : LongFields)
  /-- R202. Short form of fdiv. -/
  | fdivShort (f : ShortFields)
  /-- R202. Long form of fdiv. -/
  | fdivLong (f : LongFields)
  /-- R205. Short form of fexp2. -/
  | fexp2Short (f : ShortFields)
  /-- R205. Long form of fexp2. -/
  | fexp2Long (f : LongFields)
  /-- R205. Short form of flog2. -/
  | flog2Short (f : ShortFields)
  /-- R205. Long form of flog2. -/
  | flog2Long (f : LongFields)
  /-- R205. Short form of fsin. -/
  | fsinShort (f : ShortFields)
  /-- R205. Long form of fsin. -/
  | fsinLong (f : LongFields)
  /-- R205. Short form of fcos. -/
  | fcosShort (f : ShortFields)
  /-- R205. Long form of fcos. -/
  | fcosLong (f : LongFields)
  /-- R202. Short form of frnd. -/
  | frndShort (f : ShortFields)
  /-- R202. Long form of frnd. -/
  | frndLong (f : LongFields)
  /-- R200. Short form of fcmp: fcmp.eq.f32 into p0. -/
  | fcmpShort (f : ShortFields)
  /-- R200. Long form of fcmp: floating compare into a predicate. -/
  | fcmpLong (f : LongFields)
  /-- R204. Short form of fclass. -/
  | fclassShort (f : ShortFields)
  /-- R204. Long form of fclass. -/
  | fclassLong (f : LongFields)
  /-- R203. Short form of fabs. -/
  | fabsShort (f : ShortFields)
  /-- R203. Long form of fabs. -/
  | fabsLong (f : LongFields)
  /-- R203. Short form of fneg. -/
  | fnegShort (f : ShortFields)
  /-- R203. Long form of fneg. -/
  | fnegLong (f : LongFields)
  /-- R202. Short form of fscale. -/
  | fscaleShort (f : ShortFields)
  /-- R202. Long form of fscale. -/
  | fscaleLong (f : LongFields)
  /-- R209. Short form of cvt: f32 to f32. -/
  | cvtShort (f : ShortFields)
  /-- R209. Long form of cvt: converts between numeric types. -/
  | cvtLong (f : LongFields)
  /-- R210. cvt.bfx packs 32 lanes into a BFX block or unpacks one, in long form only. -/
  | cvtBfx (f : LongFields)
  /-- R209. Short form of cvtt: f32 to s32 toward zero. -/
  | cvttShort (f : ShortFields)
  /-- R209. Long form of cvtt. -/
  | cvttLong (f : LongFields)
  /-- R207. Short form of hadd2. -/
  | hadd2Short (f : ShortFields)
  /-- R207. Long form of hadd2. -/
  | hadd2Long (f : LongFields)
  /-- R207. Short form of hmul2. -/
  | hmul2Short (f : ShortFields)
  /-- R207. Long form of hmul2. -/
  | hmul2Long (f : LongFields)
  /-- R207. Short form of hfma2. -/
  | hfma2Short (f : ShortFields)
  /-- R207. Long form of hfma2. -/
  | hfma2Long (f : LongFields)
  /-- R207. Short form of hmin2. -/
  | hmin2Short (f : ShortFields)
  /-- R207. Long form of hmin2. -/
  | hmin2Long (f : LongFields)
  /-- R207. Short form of hmax2. -/
  | hmax2Short (f : ShortFields)
  /-- R207. Long form of hmax2. -/
  | hmax2Long (f : LongFields)
  /-- R208. Short form of dot2. -/
  | dot2Short (f : ShortFields)
  /-- R208. Long form of dot2. -/
  | dot2Long (f : LongFields)
  /-- R197. Short form of dot4. -/
  | dot4Short (f : ShortFields)
  /-- R197. Long form of dot4. -/
  | dot4Long (f : LongFields)
  /-- R201. Short form of sel: selects by p0. -/
  | selShort (f : ShortFields)
  /-- R201. Long form of sel. -/
  | selLong (f : LongFields)
  /-- R212. Short form of fpst.clear: clears sr.fpst in active lanes. -/
  | fpstClearShort (f : ShortFields)
  /-- R212. Long form of fpst.clear. -/
  | fpstClearLong (f : LongFields)
  /-- R199. Short form of bperm. -/
  | bpermShort (f : ShortFields)
  /-- R199. Long form of bperm. -/
  | bpermLong (f : LongFields)
  /-- R199. Short form of bool3, which always yields 0. -/
  | bool3Short (f : ShortFields)
  /-- R199. Long form of bool3: three-input truth table. -/
  | bool3Long (f : LongFields)
  /-- R197. Short form of isad. -/
  | isadShort (f : ShortFields)
  /-- R197. Long form of isad. -/
  | isadLong (f : LongFields)
  /-- R196. Short form of iclamp. -/
  | iclampShort (f : ShortFields)
  /-- R196. Long form of iclamp. -/
  | iclampLong (f : LongFields)
  /-- R203. Short form of fclamp. -/
  | fclampShort (f : ShortFields)
  /-- R203. Long form of fclamp. -/
  | fclampLong (f : LongFields)
  /-- R222. Short form of ld: unscaled b32 load from memory. -/
  | ldShort (f : ShortFields)
  /-- R222. Long form of ld: load from virtual memory. -/
  | ldLong (f : LongFields)
  /-- R222. Short form of lds: b32 load from the team's scratchpad. -/
  | ldsShort (f : ShortFields)
  /-- R222. Long form of lds. -/
  | ldsLong (f : LongFields)
  /-- R223. Short form of ldu: one uniform b32 load. -/
  | lduShort (f : ShortFields)
  /-- R223. Long form of ldu. -/
  | lduLong (f : LongFields)
  /-- R222. Stores to virtual memory. -/
  | st (f : LongFields)
  /-- R222. Stores to the team's scratchpad. -/
  | sts (f : LongFields)
  /-- R217. Loads from a core's on-chip window by core id and offset. -/
  | ldw (f : LongFields)
  /-- R217. Stores to a core's on-chip window. -/
  | stw (f : LongFields)
  /-- R228. Atomic read-modify-write in memory, returning the old value. -/
  | atom (f : LongFields)
  /-- R228. Atomic read-modify-write in scratchpad, returning the old value. -/
  | atoms (f : LongFields)
  /-- R228. Atomic reduction in memory without a result. -/
  | red (f : LongFields)
  /-- R228. Atomic reduction in scratchpad without a result. -/
  | reds (f : LongFields)
  /-- R229. Orders the group's accesses at a scope. -/
  | fence (f : LongFields)
  /-- R230. Prefetches lines into L1 and L2, or L2 only. -/
  | pref (f : LongFields)
  /-- R234. Grows every lane's private stack by a frame. -/
  | frameEnter (f : LongFields)
  /-- R234. Shrinks every lane's private stack by a frame. -/
  | frameLeave (f : LongFields)
  /-- R232. Invalidates the core's instruction cache. -/
  | icinv (f : LongFields)
  /-- R231. Drops L1 copies, or writes back or evicts L2 lines. -/
  | cctl (f : LongFields)
  /-- R235. Loads from the lane's private stack. -/
  | ldl (f : LongFields)
  /-- R235. Stores to the lane's private stack. -/
  | stl (f : LongFields)
  /-- R222. Stores the bytes of a datum that a byte mask enables. -/
  | stm (f : LongFields)
  /-- R294. Crane command: copies a tensor box into scratchpad or appends it to a ring. -/
  | crnLd (f : LongFields)
  /-- R294. Crane command: stores a scratchpad image into a tensor box. -/
  | crnSt (f : LongFields)
  /-- R294. Crane command: copies a box from one tensor to another. -/
  | crnCp (f : LongFields)
  /-- R294. Crane command: fills a box, or a ring image, with one value. -/
  | crnSet (f : LongFields)
  /-- R294. Crane command: gathers tensor rows by an index list. -/
  | crnGather (f : LongFields)
  /-- R301. Crane command: runs a chain of entries held in scratchpad. -/
  | crnChain (f : LongFields)
  /-- R297. Orders the entries of the Crane queues named in a mask. -/
  | crnFence (f : LongFields)
  /-- R298. Enters or leaves checkpoint mode. -/
  | crnMode (f : LongFields)
  /-- R299. Declares a ring's base and size and zeroes its pointers. -/
  | ringDecl (f : LongFields)
  /-- R299. Advances a ring's producer or consumer pointer. -/
  | ringAdv (f : LongFields)
  /-- R299. Reads both ring pointers. -/
  | ringStat (f : LongFields)
  /-- R308. Takes the team's matrix baton or queues for it. -/
  | mxbTake (f : LongFields)
  /-- R308. Releases the baton to the next waiter. -/
  | mxbPass (f : LongFields)
  /-- R308. Reads the baton's state. -/
  | mxbQuery (f : LongFields)
  /-- R316. Enqueues a matrix product of a ring A and the B-store into a bank, with an optional automatic drain. -/
  | mma (f : LongFields)
  /-- R319. Enqueues the zeroing of an accumulator bank. -/
  | mzero (f : LongFields)
  /-- R319. Enqueues a load of an accumulator bank from scratchpad. -/
  | mlda (f : LongFields)
  /-- R320. Enqueues a load of a B operand into the B-store. -/
  | bld (f : LongFields)
  /-- R324. Waits for a berth, merges its held flags, and frees it with .c. -/
  | mwait (f : LongFields)
  /-- R339. Enqueues a drain of a bank through a program slot. -/
  | mdrain (f : LongFields)
  /-- R339. Enqueues a load of a drain program slot from scratchpad. -/
  | mdrainLoad (f : LongFields)
  /-- R339. Enqueues a load of drain constants or the activation table. -/
  | mdrainConst (f : LongFields)
  /-- R343. Restarts the held drain of a berth. -/
  | mdresume (f : LongFields)
  /-- R356. Opens a surrogate call for a region and enters it in the surrogate queue. -/
  | srgOpen (f : LongFields)
  /-- R358. Ends or waits on a surrogate call; in a recovery group it deposits exact outputs and records samples. -/
  | srgClose (f : LongFields)
  /-- R367. Enqueues the loading of a surrogate image into the store. -/
  | srgLoad (f : LongFields)
  /-- R368. Sets a region's quality bound. -/
  | srgBound (f : LongFields)
  /-- R368. Re-enables a surrogate and clears its window. -/
  | srgEnable (f : LongFields)
  /-- R367. Enqueues the removal of a surrogate from the store. -/
  | srgEvict (f : LongFields)
  /-- R369. Reads a surrogate counter or state. -/
  | srgStat (f : LongFields)
  /-- R378. Pushes registers into the FIFO toward the partner. -/
  | liftPush (f : LongFields)
  /-- R378. Captures registers as a bulk push that reports at a berth. -/
  | liftPushBulk (f : LongFields)
  /-- R379. Pops entries from the FIFO toward the core into registers. -/
  | liftPop (f : LongFields)
  /-- R380. Reads the free slots of the FIFO from the core. -/
  | liftFree (f : LongFields)
  /-- R380. Stalls until the FIFO from the core has a count of free slots. -/
  | liftWait (f : LongFields)
  /-- R398. Enqueues a phase record into a stage queue. -/
  | enq (f : LongFields)
  /-- R398. Enqueues a run of records with consecutive TX into a stage. -/
  | spawn (f : LongFields)
  /-- R399. Ends the phase as a team barrier and enqueues the continuation with its carry set. -/
  | phase (f : LongFields)
  /-- R399. Ends the team at once. -/
  | retire (f : LongFields)
  /-- R398. Adds to a dependence counter as a release. -/
  | depInc (f : LongFields)
  /-- R398. Subtracts from a dependence counter as a release, waking waiters when it reaches 0 or less. -/
  | depDec (f : LongFields)
  /-- R398. Waits until a dependence counter is at most 0. -/
  | depWait (f : LongFields)
  /-- R398. Reads the descriptor address of a stage. -/
  | qstatQaddr (f : LongFields)
  /-- R398. Reads a queue's occupancy. -/
  | qstatOcc (f : LongFields)
  /-- R398. Reads a queue's room. -/
  | qstatRoom (f : LongFields)
  /-- R398. Reads the launch's spawn-tree counter. -/
  | qstatTree (f : LongFields)
  /-- R282. Translates addresses without faulting and returns status and attributes. -/
  | probe (f : LongFields)
  /-- R283. Installs a 64 KiB leaf using frames from the pool. -/
  | mapp (f : LongFields)
  /-- R283. Installs a 64 KiB leaf on a named frame, with system privilege. -/
  | mappFrame (f : LongFields)
  /-- R284. Drops the context's entries from the core's first-level TLB. -/
  | tlbiLocal (f : LongFields)
  /-- R284. Clears a leaf and shoots down its page. -/
  | unmap (f : LongFields)
  /-- R284. Shoots down a 64 KiB page without changing any entry. -/
  | tlbiPage (f : LongFields)
  /-- R285. Reads the pool count or the outstanding host requests. -/
  | mapstat (f : LongFields)
  deriving DecidableEq, Repr

end Sys2Proof
end

