-- ==== Sys2Proof/Machine/Encoding.lean ====
section
/-! DEFINITION. The opcode map (03 R82), and the instructions of the table as an opcode with its fields. -/

namespace Sys2Proof

/-- The major opcode (03 R82). -/
def Op.op8 (op : Op) : BitVec 8 :=
  match op with
  | .nop => 0x00
  | .bra => 0x01
  | .brx => 0x02
  | .call => 0x03
  | .ret => 0x04
  | .bany => 0x05
  | .ball => 0x06
  | .bnone => 0x07
  | .emset => 0x08
  | .emand => 0x09
  | .emor => 0x0A
  | .emnot => 0x0B
  | .yield => 0x0C
  | .bar => 0x0D
  | .barArrive => 0x0E
  | .barWait => 0x0F
  | .waitbAll => 0x10
  | .waitbAny => 0x11
  | .ffb => 0x12
  | .bclr => 0x13
  | .trap => 0x14
  | .tret => 0x15
  | .svc => 0x16
  | .exit => 0x17
  | .sleep => 0x18
  | .msr => 0x19
  | .mrs => 0x1A
  | .brk => 0x1B
  | .mov => 0x20
  | .movx => 0x21
  | .movxw => 0x22
  | .xred => 0x23
  | .xscan => 0x24
  | .xshf => 0x25
  | .xbal => 0x26
  | .xread => 0x27
  | .kill => 0x28
  | .foot => 0x29
  | .xwrite => 0x2A
  | .movp => 0x2B
  | .xmatch => 0x2C
  | .xrot => 0x2D
  | .xfirst => 0x2E
  | .movw => 0x2F
  | .iadd => 0x40
  | .isub => 0x41
  | .imul => 0x42
  | .imad => 0x43
  | .imin => 0x44
  | .imax => 0x45
  | .iabs => 0x46
  | .ineg => 0x47
  | .and => 0x48
  | .or => 0x49
  | .xor => 0x4A
  | .not => 0x4B
  | .shl => 0x4C
  | .shr => 0x4D
  | .sar => 0x4E
  | .rot => 0x4F
  | .bfe => 0x50
  | .bfi => 0x51
  | .popc => 0x52
  | .clz => 0x53
  | .brev => 0x54
  | .icmp => 0x55
  | .fadd => 0x60
  | .fsub => 0x61
  | .fmul => 0x62
  | .ffma => 0x63
  | .fmin => 0x64
  | .fmax => 0x65
  | .frcp => 0x66
  | .frsq => 0x67
  | .fsqrt => 0x68
  | .fdiv => 0x69
  | .fexp2 => 0x6A
  | .flog2 => 0x6B
  | .fsin => 0x6C
  | .fcos => 0x6D
  | .frnd => 0x6E
  | .fcmp => 0x6F
  | .fclass => 0x70
  | .fabs => 0x71
  | .fneg => 0x72
  | .fscale => 0x73
  | .cvt => 0x80
  | .cvtBfx => 0x81
  | .cvtt => 0x82
  | .hadd2 => 0x83
  | .hmul2 => 0x84
  | .hfma2 => 0x85
  | .hmin2 => 0x86
  | .hmax2 => 0x87
  | .dot2 => 0x88
  | .dot4 => 0x89
  | .sel => 0x8A
  | .fpstClear => 0x8B
  | .bperm => 0x8C
  | .bool3 => 0x8D
  | .isad => 0x8E
  | .iclamp => 0x8F
  | .fclamp => 0x90
  | .ld => 0xA0
  | .st => 0xA1
  | .lds => 0xA2
  | .sts => 0xA3
  | .ldw => 0xA4
  | .stw => 0xA5
  | .ldu => 0xA6
  | .atom => 0xA7
  | .atoms => 0xA8
  | .red => 0xA9
  | .reds => 0xAA
  | .fence => 0xAB
  | .pref => 0xAC
  | .frameEnter => 0xAD
  | .frameLeave => 0xAE
  | .icinv => 0xAF
  | .cctl => 0xB0
  | .ldl => 0xB1
  | .stl => 0xB2
  | .stm => 0xB3
  | .crnLd => 0xC0
  | .crnSt => 0xC1
  | .crnCp => 0xC2
  | .crnSet => 0xC3
  | .crnGather => 0xC4
  | .crnChain => 0xC5
  | .crnFence => 0xC6
  | .crnMode => 0xC7
  | .ringDecl => 0xCC
  | .ringAdv => 0xCD
  | .ringStat => 0xCE
  | .mxb => 0xD0
  | .mma => 0xD1
  | .mzero => 0xD2
  | .mlda => 0xD3
  | .bld => 0xD4
  | .mdrain => 0xD5
  | .mdresume => 0xD6
  | .mwait => 0xD7
  | .srgOpen => 0xD8
  | .srgClose => 0xD9
  | .srg => 0xDA
  | .srgStat => 0xDB
  | .liftPush => 0xDC
  | .liftPop => 0xDD
  | .liftFree => 0xDE
  | .liftWait => 0xDF
  | .enq => 0xE0
  | .spawn => 0xE1
  | .phase => 0xE2
  | .retire => 0xE3
  | .depInc => 0xE4
  | .depDec => 0xE5
  | .depWait => 0xE6
  | .qstat => 0xE7
  | .probe => 0xE8
  | .mapp => 0xE9
  | .tlbiLocal => 0xEA
  | .unmap => 0xEB
  | .tlbiPage => 0xEC
  | .mapstat => 0xED

/-- The assigned cells, by the row of the map (03 R82). -/
def Op.all : List Op :=
  ([.nop, .bra, .brx, .call, .ret, .bany, .ball, .bnone, .emset, .emand, .emor, .emnot] : List Op)
  ++ ([.yield, .bar, .barArrive, .barWait, .waitbAll, .waitbAny, .ffb, .bclr, .trap, .tret, .svc, .exit] : List Op)
  ++ ([.sleep, .msr, .mrs, .brk, .mov, .movx, .movxw, .xred, .xscan, .xshf, .xbal, .xread] : List Op)
  ++ ([.kill, .foot, .xwrite, .movp, .xmatch, .xrot, .xfirst, .movw, .iadd, .isub, .imul, .imad] : List Op)
  ++ ([.imin, .imax, .iabs, .ineg, .and, .or, .xor, .not, .shl, .shr, .sar, .rot] : List Op)
  ++ ([.bfe, .bfi, .popc, .clz, .brev, .icmp, .fadd, .fsub, .fmul, .ffma, .fmin, .fmax] : List Op)
  ++ ([.frcp, .frsq, .fsqrt, .fdiv, .fexp2, .flog2, .fsin, .fcos, .frnd, .fcmp, .fclass, .fabs] : List Op)
  ++ ([.fneg, .fscale, .cvt, .cvtBfx, .cvtt, .hadd2, .hmul2, .hfma2, .hmin2, .hmax2, .dot2, .dot4] : List Op)
  ++ ([.sel, .fpstClear, .bperm, .bool3, .isad, .iclamp, .fclamp, .ld, .st, .lds, .sts, .ldw] : List Op)
  ++ ([.stw, .ldu, .atom, .atoms, .red, .reds, .fence, .pref, .frameEnter, .frameLeave, .icinv, .cctl] : List Op)
  ++ ([.ldl, .stl, .stm, .crnLd, .crnSt, .crnCp, .crnSet, .crnGather, .crnChain, .crnFence, .crnMode, .ringDecl] : List Op)
  ++ ([.ringAdv, .ringStat, .mxb, .mma, .mzero, .mlda, .bld, .mdrain, .mdresume, .mwait, .srgOpen, .srgClose] : List Op)
  ++ ([.srg, .srgStat, .liftPush, .liftPop, .liftFree, .liftWait, .enq, .spawn, .phase, .retire, .depInc, .depDec] : List Op)
  ++ ([.depWait, .qstat, .probe, .mapp, .tlbiLocal, .unmap, .tlbiPage, .mapstat] : List Op)

/-- The opcode assigned to a cell of the map, if any (03 R82). -/
def Op.ofOp8 (n : BitVec 8) : Option Op := Op.all.find? (fun op => op.op8 = n)

/-- The fields of one of the two forms (03 R65, R67). -/
inductive Form where
  | short (f : ShortFields)
  | long (f : LongFields)
  deriving DecidableEq, Repr

/-- An SW9 instruction as its opcode and its fields; none for a step of the device. -/
def Instr.view (i : Instr) : Option (Op × Form) :=
  match i with
  | .nopShort f => some (.nop, .short f)
  | .braShort f => some (.bra, .short f)
  | .brxShort f => some (.brx, .short f)
  | .callShort f => some (.call, .short f)
  | .retShort f => some (.ret, .short f)
  | .banyShort f => some (.bany, .short f)
  | .ballShort f => some (.ball, .short f)
  | .bnoneShort f => some (.bnone, .short f)
  | .emsetShort f => some (.emset, .short f)
  | .emandShort f => some (.emand, .short f)
  | .emorShort f => some (.emor, .short f)
  | .emnotShort f => some (.emnot, .short f)
  | .yieldShort f => some (.yield, .short f)
  | .barShort f => some (.bar, .short f)
  | .barArriveShort f => some (.barArrive, .short f)
  | .barWaitShort f => some (.barWait, .short f)
  | .waitbAllShort f => some (.waitbAll, .short f)
  | .waitbAnyShort f => some (.waitbAny, .short f)
  | .ffbShort f => some (.ffb, .short f)
  | .bclrShort f => some (.bclr, .short f)
  | .trapShort f => some (.trap, .short f)
  | .tretShort f => some (.tret, .short f)
  | .svcShort f => some (.svc, .short f)
  | .exitShort f => some (.exit, .short f)
  | .sleepShort f => some (.sleep, .short f)
  | .msrShort f => some (.msr, .short f)
  | .mrsShort f => some (.mrs, .short f)
  | .brkShort f => some (.brk, .short f)
  | .movShort f => some (.mov, .short f)
  | .movxShort f => some (.movx, .short f)
  | .movxwShort f => some (.movxw, .short f)
  | .xredShort f => some (.xred, .short f)
  | .xscanShort f => some (.xscan, .short f)
  | .xshfShort f => some (.xshf, .short f)
  | .xbalShort f => some (.xbal, .short f)
  | .xreadShort f => some (.xread, .short f)
  | .killShort f => some (.kill, .short f)
  | .footShort f => some (.foot, .short f)
  | .xwriteShort f => some (.xwrite, .short f)
  | .movpShort f => some (.movp, .short f)
  | .xmatchShort f => some (.xmatch, .short f)
  | .xrotShort f => some (.xrot, .short f)
  | .xfirstShort f => some (.xfirst, .short f)
  | .movwShort f => some (.movw, .short f)
  | .iaddShort f => some (.iadd, .short f)
  | .isubShort f => some (.isub, .short f)
  | .imulShort f => some (.imul, .short f)
  | .imadShort f => some (.imad, .short f)
  | .iminShort f => some (.imin, .short f)
  | .imaxShort f => some (.imax, .short f)
  | .iabsShort f => some (.iabs, .short f)
  | .inegShort f => some (.ineg, .short f)
  | .andShort f => some (.and, .short f)
  | .orShort f => some (.or, .short f)
  | .xorShort f => some (.xor, .short f)
  | .notShort f => some (.not, .short f)
  | .shlShort f => some (.shl, .short f)
  | .shrShort f => some (.shr, .short f)
  | .sarShort f => some (.sar, .short f)
  | .rotShort f => some (.rot, .short f)
  | .bfeShort f => some (.bfe, .short f)
  | .bfiShort f => some (.bfi, .short f)
  | .popcShort f => some (.popc, .short f)
  | .clzShort f => some (.clz, .short f)
  | .brevShort f => some (.brev, .short f)
  | .icmpShort f => some (.icmp, .short f)
  | .faddShort f => some (.fadd, .short f)
  | .fsubShort f => some (.fsub, .short f)
  | .fmulShort f => some (.fmul, .short f)
  | .ffmaShort f => some (.ffma, .short f)
  | .fminShort f => some (.fmin, .short f)
  | .fmaxShort f => some (.fmax, .short f)
  | .frcpShort f => some (.frcp, .short f)
  | .frsqShort f => some (.frsq, .short f)
  | .fsqrtShort f => some (.fsqrt, .short f)
  | .fdivShort f => some (.fdiv, .short f)
  | .fexp2Short f => some (.fexp2, .short f)
  | .flog2Short f => some (.flog2, .short f)
  | .fsinShort f => some (.fsin, .short f)
  | .fcosShort f => some (.fcos, .short f)
  | .frndShort f => some (.frnd, .short f)
  | .fcmpShort f => some (.fcmp, .short f)
  | .fclassShort f => some (.fclass, .short f)
  | .fabsShort f => some (.fabs, .short f)
  | .fnegShort f => some (.fneg, .short f)
  | .fscaleShort f => some (.fscale, .short f)
  | .cvtShort f => some (.cvt, .short f)
  | .cvttShort f => some (.cvtt, .short f)
  | .hadd2Short f => some (.hadd2, .short f)
  | .hmul2Short f => some (.hmul2, .short f)
  | .hfma2Short f => some (.hfma2, .short f)
  | .hmin2Short f => some (.hmin2, .short f)
  | .hmax2Short f => some (.hmax2, .short f)
  | .dot2Short f => some (.dot2, .short f)
  | .dot4Short f => some (.dot4, .short f)
  | .selShort f => some (.sel, .short f)
  | .fpstClearShort f => some (.fpstClear, .short f)
  | .bpermShort f => some (.bperm, .short f)
  | .bool3Short f => some (.bool3, .short f)
  | .isadShort f => some (.isad, .short f)
  | .iclampShort f => some (.iclamp, .short f)
  | .fclampShort f => some (.fclamp, .short f)
  | .ldShort f => some (.ld, .short f)
  | .ldsShort f => some (.lds, .short f)
  | .lduShort f => some (.ldu, .short f)
  | .nopLong f => some (.nop, .long f)
  | .braLong f => some (.bra, .long f)
  | .brxLong f => some (.brx, .long f)
  | .callLong f => some (.call, .long f)
  | .retLong f => some (.ret, .long f)
  | .banyLong f => some (.bany, .long f)
  | .ballLong f => some (.ball, .long f)
  | .bnoneLong f => some (.bnone, .long f)
  | .emsetLong f => some (.emset, .long f)
  | .emandLong f => some (.emand, .long f)
  | .emorLong f => some (.emor, .long f)
  | .emnotLong f => some (.emnot, .long f)
  | .yieldLong f => some (.yield, .long f)
  | .barLong f => some (.bar, .long f)
  | .barArriveLong f => some (.barArrive, .long f)
  | .barWaitLong f => some (.barWait, .long f)
  | .waitbAllLong f => some (.waitbAll, .long f)
  | .waitbAnyLong f => some (.waitbAny, .long f)
  | .ffbLong f => some (.ffb, .long f)
  | .bclrLong f => some (.bclr, .long f)
  | .trapLong f => some (.trap, .long f)
  | .tretLong f => some (.tret, .long f)
  | .tretKill f => some (.tret, .long f)
  | .svcLong f => some (.svc, .long f)
  | .exitLong f => some (.exit, .long f)
  | .sleepLong f => some (.sleep, .long f)
  | .msrLong f => some (.msr, .long f)
  | .mrsLong f => some (.mrs, .long f)
  | .brkLong f => some (.brk, .long f)
  | .movLong f => some (.mov, .long f)
  | .movxLong f => some (.movx, .long f)
  | .movxwLong f => some (.movxw, .long f)
  | .xredLong f => some (.xred, .long f)
  | .xscanLong f => some (.xscan, .long f)
  | .xshfLong f => some (.xshf, .long f)
  | .xbalLong f => some (.xbal, .long f)
  | .xreadLong f => some (.xread, .long f)
  | .killLong f => some (.kill, .long f)
  | .footLong f => some (.foot, .long f)
  | .xwriteLong f => some (.xwrite, .long f)
  | .movpLong f => some (.movp, .long f)
  | .xmatchLong f => some (.xmatch, .long f)
  | .xrotLong f => some (.xrot, .long f)
  | .xfirstLong f => some (.xfirst, .long f)
  | .movwLong f => some (.movw, .long f)
  | .iaddLong f => some (.iadd, .long f)
  | .isubLong f => some (.isub, .long f)
  | .imulLong f => some (.imul, .long f)
  | .imadLong f => some (.imad, .long f)
  | .iminLong f => some (.imin, .long f)
  | .imaxLong f => some (.imax, .long f)
  | .iabsLong f => some (.iabs, .long f)
  | .inegLong f => some (.ineg, .long f)
  | .andLong f => some (.and, .long f)
  | .orLong f => some (.or, .long f)
  | .xorLong f => some (.xor, .long f)
  | .notLong f => some (.not, .long f)
  | .shlLong f => some (.shl, .long f)
  | .shrLong f => some (.shr, .long f)
  | .sarLong f => some (.sar, .long f)
  | .rotLong f => some (.rot, .long f)
  | .bfeLong f => some (.bfe, .long f)
  | .bfiLong f => some (.bfi, .long f)
  | .popcLong f => some (.popc, .long f)
  | .clzLong f => some (.clz, .long f)
  | .brevLong f => some (.brev, .long f)
  | .icmpLong f => some (.icmp, .long f)
  | .faddLong f => some (.fadd, .long f)
  | .fsubLong f => some (.fsub, .long f)
  | .fmulLong f => some (.fmul, .long f)
  | .ffmaLong f => some (.ffma, .long f)
  | .fminLong f => some (.fmin, .long f)
  | .fmaxLong f => some (.fmax, .long f)
  | .frcpLong f => some (.frcp, .long f)
  | .frsqLong f => some (.frsq, .long f)
  | .fsqrtLong f => some (.fsqrt, .long f)
  | .fdivLong f => some (.fdiv, .long f)
  | .fexp2Long f => some (.fexp2, .long f)
  | .flog2Long f => some (.flog2, .long f)
  | .fsinLong f => some (.fsin, .long f)
  | .fcosLong f => some (.fcos, .long f)
  | .frndLong f => some (.frnd, .long f)
  | .fcmpLong f => some (.fcmp, .long f)
  | .fclassLong f => some (.fclass, .long f)
  | .fabsLong f => some (.fabs, .long f)
  | .fnegLong f => some (.fneg, .long f)
  | .fscaleLong f => some (.fscale, .long f)
  | .cvtLong f => some (.cvt, .long f)
  | .cvtBfx f => some (.cvtBfx, .long f)
  | .cvttLong f => some (.cvtt, .long f)
  | .hadd2Long f => some (.hadd2, .long f)
  | .hmul2Long f => some (.hmul2, .long f)
  | .hfma2Long f => some (.hfma2, .long f)
  | .hmin2Long f => some (.hmin2, .long f)
  | .hmax2Long f => some (.hmax2, .long f)
  | .dot2Long f => some (.dot2, .long f)
  | .dot4Long f => some (.dot4, .long f)
  | .selLong f => some (.sel, .long f)
  | .fpstClearLong f => some (.fpstClear, .long f)
  | .bpermLong f => some (.bperm, .long f)
  | .bool3Long f => some (.bool3, .long f)
  | .isadLong f => some (.isad, .long f)
  | .iclampLong f => some (.iclamp, .long f)
  | .fclampLong f => some (.fclamp, .long f)
  | .ldLong f => some (.ld, .long f)
  | .ldsLong f => some (.lds, .long f)
  | .lduLong f => some (.ldu, .long f)
  | .st f => some (.st, .long f)
  | .sts f => some (.sts, .long f)
  | .ldw f => some (.ldw, .long f)
  | .stw f => some (.stw, .long f)
  | .atom f => some (.atom, .long f)
  | .atoms f => some (.atoms, .long f)
  | .red f => some (.red, .long f)
  | .reds f => some (.reds, .long f)
  | .fence f => some (.fence, .long f)
  | .pref f => some (.pref, .long f)
  | .frameEnter f => some (.frameEnter, .long f)
  | .frameLeave f => some (.frameLeave, .long f)
  | .icinv f => some (.icinv, .long f)
  | .cctl f => some (.cctl, .long f)
  | .ldl f => some (.ldl, .long f)
  | .stl f => some (.stl, .long f)
  | .stm f => some (.stm, .long f)
  | .crnLd f => some (.crnLd, .long f)
  | .crnSt f => some (.crnSt, .long f)
  | .crnCp f => some (.crnCp, .long f)
  | .crnSet f => some (.crnSet, .long f)
  | .crnGather f => some (.crnGather, .long f)
  | .crnChain f => some (.crnChain, .long f)
  | .crnFence f => some (.crnFence, .long f)
  | .crnMode f => some (.crnMode, .long f)
  | .ringDecl f => some (.ringDecl, .long f)
  | .ringAdv f => some (.ringAdv, .long f)
  | .ringStat f => some (.ringStat, .long f)
  | .mxbTake f => some (.mxb, .long f)
  | .mxbPass f => some (.mxb, .long f)
  | .mxbQuery f => some (.mxb, .long f)
  | .mma f => some (.mma, .long f)
  | .mzero f => some (.mzero, .long f)
  | .mlda f => some (.mlda, .long f)
  | .bld f => some (.bld, .long f)
  | .mwait f => some (.mwait, .long f)
  | .mdrain f => some (.mdrain, .long f)
  | .mdrainLoad f => some (.mdrain, .long f)
  | .mdrainConst f => some (.mdrain, .long f)
  | .mdresume f => some (.mdresume, .long f)
  | .srgOpen f => some (.srgOpen, .long f)
  | .srgClose f => some (.srgClose, .long f)
  | .srgLoad f => some (.srg, .long f)
  | .srgBound f => some (.srg, .long f)
  | .srgEnable f => some (.srg, .long f)
  | .srgEvict f => some (.srg, .long f)
  | .srgStat f => some (.srgStat, .long f)
  | .liftPush f => some (.liftPush, .long f)
  | .liftPushBulk f => some (.liftPush, .long f)
  | .liftPop f => some (.liftPop, .long f)
  | .liftFree f => some (.liftFree, .long f)
  | .liftWait f => some (.liftWait, .long f)
  | .enq f => some (.enq, .long f)
  | .spawn f => some (.spawn, .long f)
  | .phase f => some (.phase, .long f)
  | .retire f => some (.retire, .long f)
  | .depInc f => some (.depInc, .long f)
  | .depDec f => some (.depDec, .long f)
  | .depWait f => some (.depWait, .long f)
  | .qstatQaddr f => some (.qstat, .long f)
  | .qstatOcc f => some (.qstat, .long f)
  | .qstatRoom f => some (.qstat, .long f)
  | .qstatTree f => some (.qstat, .long f)
  | .probe f => some (.probe, .long f)
  | .mapp f => some (.mapp, .long f)
  | .mappFrame f => some (.mapp, .long f)
  | .tlbiLocal f => some (.tlbiLocal, .long f)
  | .unmap f => some (.unmap, .long f)
  | .tlbiPage f => some (.tlbiPage, .long f)
  | .mapstat f => some (.mapstat, .long f)
  | _ => none

/-- The instruction of the table that an opcode's short form is; none where the opcode has no short form (03 R66). -/
noncomputable def Op.short (op : Op) (f : ShortFields) : Option Instr :=
  match op with
  | .nop => some (.nopShort f)
  | .bra => some (.braShort f)
  | .brx => some (.brxShort f)
  | .call => some (.callShort f)
  | .ret => some (.retShort f)
  | .bany => some (.banyShort f)
  | .ball => some (.ballShort f)
  | .bnone => some (.bnoneShort f)
  | .emset => some (.emsetShort f)
  | .emand => some (.emandShort f)
  | .emor => some (.emorShort f)
  | .emnot => some (.emnotShort f)
  | .yield => some (.yieldShort f)
  | .bar => some (.barShort f)
  | .barArrive => some (.barArriveShort f)
  | .barWait => some (.barWaitShort f)
  | .waitbAll => some (.waitbAllShort f)
  | .waitbAny => some (.waitbAnyShort f)
  | .ffb => some (.ffbShort f)
  | .bclr => some (.bclrShort f)
  | .trap => some (.trapShort f)
  | .tret => some (.tretShort f)
  | .svc => some (.svcShort f)
  | .exit => some (.exitShort f)
  | .sleep => some (.sleepShort f)
  | .msr => some (.msrShort f)
  | .mrs => some (.mrsShort f)
  | .brk => some (.brkShort f)
  | .mov => some (.movShort f)
  | .movx => some (.movxShort f)
  | .movxw => some (.movxwShort f)
  | .xred => some (.xredShort f)
  | .xscan => some (.xscanShort f)
  | .xshf => some (.xshfShort f)
  | .xbal => some (.xbalShort f)
  | .xread => some (.xreadShort f)
  | .kill => some (.killShort f)
  | .foot => some (.footShort f)
  | .xwrite => some (.xwriteShort f)
  | .movp => some (.movpShort f)
  | .xmatch => some (.xmatchShort f)
  | .xrot => some (.xrotShort f)
  | .xfirst => some (.xfirstShort f)
  | .movw => some (.movwShort f)
  | .iadd => some (.iaddShort f)
  | .isub => some (.isubShort f)
  | .imul => some (.imulShort f)
  | .imad => some (.imadShort f)
  | .imin => some (.iminShort f)
  | .imax => some (.imaxShort f)
  | .iabs => some (.iabsShort f)
  | .ineg => some (.inegShort f)
  | .and => some (.andShort f)
  | .or => some (.orShort f)
  | .xor => some (.xorShort f)
  | .not => some (.notShort f)
  | .shl => some (.shlShort f)
  | .shr => some (.shrShort f)
  | .sar => some (.sarShort f)
  | .rot => some (.rotShort f)
  | .bfe => some (.bfeShort f)
  | .bfi => some (.bfiShort f)
  | .popc => some (.popcShort f)
  | .clz => some (.clzShort f)
  | .brev => some (.brevShort f)
  | .icmp => some (.icmpShort f)
  | .fadd => some (.faddShort f)
  | .fsub => some (.fsubShort f)
  | .fmul => some (.fmulShort f)
  | .ffma => some (.ffmaShort f)
  | .fmin => some (.fminShort f)
  | .fmax => some (.fmaxShort f)
  | .frcp => some (.frcpShort f)
  | .frsq => some (.frsqShort f)
  | .fsqrt => some (.fsqrtShort f)
  | .fdiv => some (.fdivShort f)
  | .fexp2 => some (.fexp2Short f)
  | .flog2 => some (.flog2Short f)
  | .fsin => some (.fsinShort f)
  | .fcos => some (.fcosShort f)
  | .frnd => some (.frndShort f)
  | .fcmp => some (.fcmpShort f)
  | .fclass => some (.fclassShort f)
  | .fabs => some (.fabsShort f)
  | .fneg => some (.fnegShort f)
  | .fscale => some (.fscaleShort f)
  | .cvt => some (.cvtShort f)
  | .cvtt => some (.cvttShort f)
  | .hadd2 => some (.hadd2Short f)
  | .hmul2 => some (.hmul2Short f)
  | .hfma2 => some (.hfma2Short f)
  | .hmin2 => some (.hmin2Short f)
  | .hmax2 => some (.hmax2Short f)
  | .dot2 => some (.dot2Short f)
  | .dot4 => some (.dot4Short f)
  | .sel => some (.selShort f)
  | .fpstClear => some (.fpstClearShort f)
  | .bperm => some (.bpermShort f)
  | .bool3 => some (.bool3Short f)
  | .isad => some (.isadShort f)
  | .iclamp => some (.iclampShort f)
  | .fclamp => some (.fclampShort f)
  | .ld => some (.ldShort f)
  | .lds => some (.ldsShort f)
  | .ldu => some (.lduShort f)
  | _ => none

/-- The instruction of the table that an opcode's long form is; the cells that hold several mnemonics or rows are told
apart by their modifier bits (03 R81; 10 R257, 16 R376, 17 R396, 11 R281), and a reserved value gives none. -/
noncomputable def Op.long (op : Op) (f : LongFields) : Option Instr :=
  match op with
  | .nop => some (.nopLong f)
  | .bra => some (.braLong f)
  | .brx => some (.brxLong f)
  | .call => some (.callLong f)
  | .ret => some (.retLong f)
  | .bany => some (.banyLong f)
  | .ball => some (.ballLong f)
  | .bnone => some (.bnoneLong f)
  | .emset => some (.emsetLong f)
  | .emand => some (.emandLong f)
  | .emor => some (.emorLong f)
  | .emnot => some (.emnotLong f)
  | .yield => some (.yieldLong f)
  | .bar => some (.barLong f)
  | .barArrive => some (.barArriveLong f)
  | .barWait => some (.barWaitLong f)
  | .waitbAll => some (.waitbAllLong f)
  | .waitbAny => some (.waitbAnyLong f)
  | .ffb => some (.ffbLong f)
  | .bclr => some (.bclrLong f)
  | .trap => some (.trapLong f)
  | .svc => some (.svcLong f)
  | .exit => some (.exitLong f)
  | .sleep => some (.sleepLong f)
  | .msr => some (.msrLong f)
  | .mrs => some (.mrsLong f)
  | .brk => some (.brkLong f)
  | .mov => some (.movLong f)
  | .movx => some (.movxLong f)
  | .movxw => some (.movxwLong f)
  | .xred => some (.xredLong f)
  | .xscan => some (.xscanLong f)
  | .xshf => some (.xshfLong f)
  | .xbal => some (.xbalLong f)
  | .xread => some (.xreadLong f)
  | .kill => some (.killLong f)
  | .foot => some (.footLong f)
  | .xwrite => some (.xwriteLong f)
  | .movp => some (.movpLong f)
  | .xmatch => some (.xmatchLong f)
  | .xrot => some (.xrotLong f)
  | .xfirst => some (.xfirstLong f)
  | .movw => some (.movwLong f)
  | .iadd => some (.iaddLong f)
  | .isub => some (.isubLong f)
  | .imul => some (.imulLong f)
  | .imad => some (.imadLong f)
  | .imin => some (.iminLong f)
  | .imax => some (.imaxLong f)
  | .iabs => some (.iabsLong f)
  | .ineg => some (.inegLong f)
  | .and => some (.andLong f)
  | .or => some (.orLong f)
  | .xor => some (.xorLong f)
  | .not => some (.notLong f)
  | .shl => some (.shlLong f)
  | .shr => some (.shrLong f)
  | .sar => some (.sarLong f)
  | .rot => some (.rotLong f)
  | .bfe => some (.bfeLong f)
  | .bfi => some (.bfiLong f)
  | .popc => some (.popcLong f)
  | .clz => some (.clzLong f)
  | .brev => some (.brevLong f)
  | .icmp => some (.icmpLong f)
  | .fadd => some (.faddLong f)
  | .fsub => some (.fsubLong f)
  | .fmul => some (.fmulLong f)
  | .ffma => some (.ffmaLong f)
  | .fmin => some (.fminLong f)
  | .fmax => some (.fmaxLong f)
  | .frcp => some (.frcpLong f)
  | .frsq => some (.frsqLong f)
  | .fsqrt => some (.fsqrtLong f)
  | .fdiv => some (.fdivLong f)
  | .fexp2 => some (.fexp2Long f)
  | .flog2 => some (.flog2Long f)
  | .fsin => some (.fsinLong f)
  | .fcos => some (.fcosLong f)
  | .frnd => some (.frndLong f)
  | .fcmp => some (.fcmpLong f)
  | .fclass => some (.fclassLong f)
  | .fabs => some (.fabsLong f)
  | .fneg => some (.fnegLong f)
  | .fscale => some (.fscaleLong f)
  | .cvt => some (.cvtLong f)
  | .cvtBfx => some (.cvtBfx f)
  | .cvtt => some (.cvttLong f)
  | .hadd2 => some (.hadd2Long f)
  | .hmul2 => some (.hmul2Long f)
  | .hfma2 => some (.hfma2Long f)
  | .hmin2 => some (.hmin2Long f)
  | .hmax2 => some (.hmax2Long f)
  | .dot2 => some (.dot2Long f)
  | .dot4 => some (.dot4Long f)
  | .sel => some (.selLong f)
  | .fpstClear => some (.fpstClearLong f)
  | .bperm => some (.bpermLong f)
  | .bool3 => some (.bool3Long f)
  | .isad => some (.isadLong f)
  | .iclamp => some (.iclampLong f)
  | .fclamp => some (.fclampLong f)
  | .ld => some (.ldLong f)
  | .lds => some (.ldsLong f)
  | .ldu => some (.lduLong f)
  | .st => some (.st f)
  | .sts => some (.sts f)
  | .ldw => some (.ldw f)
  | .stw => some (.stw f)
  | .atom => some (.atom f)
  | .atoms => some (.atoms f)
  | .red => some (.red f)
  | .reds => some (.reds f)
  | .fence => some (.fence f)
  | .pref => some (.pref f)
  | .frameEnter => some (.frameEnter f)
  | .frameLeave => some (.frameLeave f)
  | .icinv => some (.icinv f)
  | .cctl => some (.cctl f)
  | .ldl => some (.ldl f)
  | .stl => some (.stl f)
  | .stm => some (.stm f)
  | .crnLd => some (.crnLd f)
  | .crnSt => some (.crnSt f)
  | .crnCp => some (.crnCp f)
  | .crnSet => some (.crnSet f)
  | .crnGather => some (.crnGather f)
  | .crnChain => some (.crnChain f)
  | .crnFence => some (.crnFence f)
  | .crnMode => some (.crnMode f)
  | .ringDecl => some (.ringDecl f)
  | .ringAdv => some (.ringAdv f)
  | .ringStat => some (.ringStat f)
  | .mma => some (.mma f)
  | .mzero => some (.mzero f)
  | .mlda => some (.mlda f)
  | .bld => some (.bld f)
  | .mwait => some (.mwait f)
  | .mdresume => some (.mdresume f)
  | .srgOpen => some (.srgOpen f)
  | .srgClose => some (.srgClose f)
  | .srgStat => some (.srgStat f)
  | .liftPop => some (.liftPop f)
  | .liftFree => some (.liftFree f)
  | .liftWait => some (.liftWait f)
  | .enq => some (.enq f)
  | .spawn => some (.spawn f)
  | .phase => some (.phase f)
  | .retire => some (.retire f)
  | .depInc => some (.depInc f)
  | .depDec => some (.depDec f)
  | .depWait => some (.depWait f)
  | .probe => some (.probe f)
  | .tlbiLocal => some (.tlbiLocal f)
  | .unmap => some (.unmap f)
  | .tlbiPage => some (.tlbiPage f)
  | .mapstat => some (.mapstat f)
  | .tret =>
    match f.modBits 17 17 with
    | 0 => some (.tretLong f)
    | _ => some (.tretKill f)
  | .mxb =>
    match f.modBits 14 11 with
    | 0 => some (.mxbTake f)
    | 1 => some (.mxbPass f)
    | 2 => some (.mxbQuery f)
    | _ => none
  | .mdrain =>
    match f.modBits 14 11 with
    | 0 => some (.mdrain f)
    | 1 => some (.mdrainLoad f)
    | 2 => some (.mdrainConst f)
    | _ => none
  | .srg =>
    match f.modBits 14 11 with
    | 0 => some (.srgLoad f)
    | 1 => some (.srgBound f)
    | 2 => some (.srgEnable f)
    | 3 => some (.srgEvict f)
    | _ => none
  | .liftPush =>
    match f.modBits 11 11 with
    | 0 => some (.liftPush f)
    | _ => some (.liftPushBulk f)
  | .qstat =>
    match f.modBits 13 11 with
    | 0 => some (.qstatQaddr f)
    | 1 => some (.qstatOcc f)
    | 2 => some (.qstatRoom f)
    | 3 => some (.qstatTree f)
    | _ => none
  | .mapp =>
    match f.modBits 12 11 with
    | 0 => some (.mapp f)
    | 1 => some (.mappFrame f)
    | _ => none

/-- The instruction of an opcode and a form. (Not compiled: the compiler makes no constructor past the 244th.) -/
noncomputable def Op.build (op : Op) (form : Form) : Option Instr :=
  match form with
  | .short f => op.short f
  | .long f => op.long f

/-- Does the opcode have this form (03 R66), and is the value that selects its mnemonic or row not reserved (03 R81)? -/
def Op.has (op : Op) (form : Form) : Bool :=
  match form with
  | .short _ => hasShort op.op8.toNat
  | .long f =>
    match op with
    | .mxb => f.modBits 14 11 < 3
    | .mdrain => f.modBits 14 11 < 3
    | .srg => f.modBits 14 11 < 4
    | .qstat => f.modBits 13 11 < 4
    | .mapp => f.modBits 12 11 < 2
    | _ => true

/-- Does the constructor agree with the modifier bits that select it among the rows of its opcode (03 R81)? -/
def Instr.subOk (i : Instr) : Bool :=
  match i with
  | .tretLong f => f.modBits 17 17 = 0
  | .tretKill f => f.modBits 17 17 = 1
  | .mxbTake f => f.modBits 14 11 = 0
  | .mxbPass f => f.modBits 14 11 = 1
  | .mxbQuery f => f.modBits 14 11 = 2
  | .mdrain f => f.modBits 14 11 = 0
  | .mdrainLoad f => f.modBits 14 11 = 1
  | .mdrainConst f => f.modBits 14 11 = 2
  | .srgLoad f => f.modBits 14 11 = 0
  | .srgBound f => f.modBits 14 11 = 1
  | .srgEnable f => f.modBits 14 11 = 2
  | .srgEvict f => f.modBits 14 11 = 3
  | .liftPush f => f.modBits 11 11 = 0
  | .liftPushBulk f => f.modBits 11 11 = 1
  | .qstatQaddr f => f.modBits 13 11 = 0
  | .qstatOcc f => f.modBits 13 11 = 1
  | .qstatRoom f => f.modBits 13 11 = 2
  | .qstatTree f => f.modBits 13 11 = 3
  | .mapp f => f.modBits 12 11 = 0
  | .mappFrame f => f.modBits 12 11 = 1
  | _ => true

/-- The checks of R83 orders 4 to 7 on an opcode and a form. -/
def Form.check (op : Op) (form : Form) : Option Reject :=
  if !op.has form then some .malformed
  else
    match form with
    | .short f => checkShort op f
    | .long f => checkLong op f

/-- The words that are no assigned opcode, with the length that LEN gives (03 R62, R83). -/
def unassignedWords (ws : List Word) : Bool :=
  match ws with
  | [] => false
  | w :: _ =>
    Op.ofOp8 (w.extractLsb' 3 8) = none
      && ws.length = (match w.toNat % 4 with | 0 => 1 | 1 => 3 | 2 => 3 | _ => 5)

/-- Is the instruction one that the checks of R83 accept? An SW9 instruction must be the one that its opcode and fields
make, and pass the checks; ILLEGAL_INSTRUCTION holds unassigned words; the steps of the device have no encoding. -/
def Instr.accepted (i : Instr) : Bool :=
  match i with
  | .illegalInstruction ws => unassignedWords ws
  | _ =>
    match i.view with
    | some (op, form) => i.subOk && Form.check op form = none
    | none => true

end Sys2Proof
end

