-- ==== Sys2Proof/WellFormed.lean ====
section
/-! DEFINITION. Which instructions are well-formed. -/

namespace Sys2Proof

/-- An instruction is well-formed when the checks of R83 that its words alone decide accept it. -/
def Instr.wellFormed (i : Instr) : Bool := i.accepted

end Sys2Proof
end

