-- ==== Sys2Proof/Decode.lean ====
section
/-! DEFINITION. From words to instructions in decode modes 9, 8 and 7 (03, 04), and from instructions to words. -/

namespace Sys2Proof

/-! ### Words in memory -/

/-- The little-endian word of four bytes (00 R2). -/
def wordOfBytes (b0 b1 b2 b3 : Byte) : Word := b3 ++ b2 ++ b1 ++ b0

/-- The bytes of a word, lowest address first (00 R2). -/
def bytesOfWord (w : Word) : List Byte :=
  [w.extractLsb' 0 8, w.extractLsb' 8 8, w.extractLsb' 16 8, w.extractLsb' 24 8]

/-- The whole words of a list of bytes (00 R2). -/
def wordsOfBytes (bs : List Byte) : List Word :=
  match bs with
  | b0 :: b1 :: b2 :: b3 :: rest => wordOfBytes b0 b1 b2 b3 :: wordsOfBytes rest
  | _ => []

/-! ### Length -/

/-- Words of a mode-9 instruction, by LEN of its first word (03 R62). -/
def length9 (w0 : Word) : Nat :=
  match w0.toNat % 4 with
  | 0 => 1
  | 1 => 3
  | 2 => 3
  | _ => 5

/-- Words of a mode-8 instruction, by W of its first word (04 R103). -/
def length8 (w0 : Word) : Nat := if w0.getLsbD 0 then 2 else 1

/-- Is a mode-7 word the modifier prefix (04 R107)? -/
def isModPrefix (w : Word) : Bool := w.extractLsb' 0 8 = 0x30
/-- Is a mode-7 word the literal prefix (04 R107)? -/
def isLitPrefix (w : Word) : Bool := w.extractLsb' 0 8 = 0x31

/-- Does a further word belong to the instruction whose first words are `ws`, in decode mode 9, 8 or 7? In mode 7 a
prefix is followed by another word unless it repeats the prefix before it, which is malformed at once (04 R108). -/
def anotherWord (mode : Nat) (ws : List Word) : Bool :=
  match ws with
  | [] => true
  | w0 :: rest =>
    if mode = 8 then ws.length < length8 w0
    else if mode = 7 then
      match rest with
      | [] => isModPrefix w0 || isLitPrefix w0
      | [w1] => (isModPrefix w0 && isLitPrefix w1) || (isLitPrefix w0 && isModPrefix w1)
      | _ => false
    else ws.length < length9 w0

/-- The words of the first instruction of a list of words, and no more: `fuel` bounds their number. -/
def firstWords (mode : Nat) (fuel : Nat) (got rest : List Word) : List Word :=
  match fuel, rest with
  | fuel + 1, w :: rest' => if anotherWord mode got then firstWords mode fuel (got ++ [w]) rest' else got
  | _, _ => got

/-! ### Decode mode 9 -/

/-- The fields of a short form in word 0 (03 R65). -/
def shortOfWord (w0 : Word) (lit : Option DWord) : ShortFields :=
  { u := w0.getLsbD 2, d := w0.extractLsb' 11 7, a := w0.extractLsb' 18 7, b := w0.extractLsb' 25 7, lit := lit }

/-- The fields of a long form in words 0 to 2 (03 R67). -/
def longOfWords (w0 w1 w2 : Word) (lit : Option DWord) : LongFields :=
  { mod := w0.extractLsb' 11 21, u := w0.getLsbD 2
    d := w1.extractLsb' 0 9, a := w1.extractLsb' 9 9, b := w1.extractLsb' 18 9
    nwb := w1.getLsbD 27, la := w1.getLsbD 28, lb := w1.getLsbD 29, lc := w1.getLsbD 30
    c := w2.extractLsb' 0 9, ps := w2.extractLsb' 9 3, pn := w2.getLsbD 12
    oci := w2.extractLsb' 13 3, oce := w2.getLsbD 16, ext := w2.extractLsb' 17 15
    lit := lit }

/-- The fields of the words of one instruction, by LEN, with the reserved bit 31 of word 1 (03 R62, R67); none when the
number of words is not the one LEN asks for. -/
def formOfWords (ws : List Word) : Option (Form × Bool) :=
  match ws with
  | [w0] => if w0.toNat % 4 = 0 then some (.short (shortOfWord w0 none), false) else none
  | [w0, w1, w2] =>
    if w0.toNat % 4 = 2 then some (.short (shortOfWord w0 (some (w2 ++ w1))), false)
    else if w0.toNat % 4 = 1 then some (.long (longOfWords w0 w1 w2 none), w1.getLsbD 31)
    else none
  | [w0, w1, w2, w3, w4] =>
    if w0.toNat % 4 = 3 then some (.long (longOfWords w0 w1 w2 (some (w4 ++ w3))), w1.getLsbD 31) else none
  | _ => none

/-- Decode mode 9 to an opcode and its fields, with the checks of R83 in their order. -/
def parse9 (ws : List Word) : Except Reject (Op × Form) :=
  match ws with
  | [] => .error .truncated
  | w0 :: _ =>
    let op8 := w0.extractLsb' 3 8
    if op8 = 0xFF then .error .neverAssigned
    else
      match Op.ofOp8 op8 with
      | none => .error .laterLevel
      | some op =>
        match formOfWords ws with
        | none => .error .truncated
        | some (form, reserved) =>
          if reserved then .error .malformed
          else
            match form.check op with
            | some r => .error r
            | none => .ok (op, form)

/-! ### Decode modes 8 and 7 -/

/-- The cells of feature level FL7 (04 R99). -/
def cellFL7 (n : Nat) : Bool :=
  n ≤ 0x0D || (0x14 ≤ n && n ≤ 0x17) || n = 0x19 || n = 0x1A || n = 0x20 || (0x23 ≤ n && n ≤ 0x25) || n = 0x27
    || (0x40 ≤ n && n ≤ 0x55) || (0x60 ≤ n && n ≤ 0x70) || (0x80 ≤ n && n ≤ 0x82) || n = 0x8A || n = 0x8B
    || (0xA0 ≤ n && n ≤ 0xA3) || n = 0xA7 || n = 0xA9 || n = 0xAB || n = 0xAF

/-- The cells of feature level FL8, those of FL7 among them (04 R99). -/
def cellFL8 (n : Nat) : Bool :=
  cellFL7 n || n = 0x0E || n = 0x0F || n = 0x1B || n = 0x21 || n = 0x22 || n = 0x26 || n = 0x71 || n = 0x72
    || (0x83 ≤ n && n ≤ 0x89) || (0xA4 ≤ n && n ≤ 0xA6) || n = 0xA8 || n = 0xAC

/-- The branches by offset, which take OFF25 or LIT24 in the legacy modes (04 R106, R109). -/
def offsetBranch (op : Op) : Bool :=
  match op with
  | .bra | .call | .bany | .ball | .bnone => true
  | _ => false

/-- Has operand B of the opcode a floating type (04 R105, R109)? -/
def floatingB (op : Op) : Bool :=
  match op with
  | .fadd | .fsub | .fmul | .ffma | .fmin | .fmax | .fdiv | .fcmp | .hadd2 | .hmul2 | .hfma2 | .hmin2 | .hmax2
  | .dot2 => true
  | _ => false

/-- A reserved full operand code. -/
def reservedCode : BitVec 9 := 511
/-- A reserved short operand code. -/
def reservedShort : BitVec 7 := 127

/-- A mode-8 short code as an SW9 short code (04 R104: 84-91 are reserved). -/
def short8 (c : BitVec 7) : BitVec 7 := if 84 ≤ c.toNat && c.toNat ≤ 91 then reservedShort else c

/-- A mode-8 full code as an SW9 full code (04 R104: 324-331 and 352-511 are reserved). -/
def full8 (c : BitVec 9) : BitVec 9 :=
  if (324 ≤ c.toNat && c.toNat ≤ 331) || 352 ≤ c.toNat then reservedCode else c

/-- The byte offset of a legacy branch: the field times 4, as a signed offset (04 R106, R109; 03 R90).
DEDUCED: the field is signed, as the offset it makes is; log entry 10. -/
def legacyOffset {n : Nat} (field : BitVec n) : DWord := field.signExtend 64 * 4

/-- A long form with nothing set: predicate p7 and no marks. -/
def LongFields.blank : LongFields :=
  { mod := 0, u := false, d := 0, a := 0, b := 0, c := 0, nwb := false, la := false, lb := false, lc := false, ext := 0
    oce := false, oci := 0, pn := false, ps := 7, lit := none }

/-- The SW9 form of a one-word mode-8 instruction (04 R105); none where it is malformed. -/
def form8One (op : Op) (w : Word) : Option Form :=
  let imm := w.getLsbD 31
  let b := w.extractLsb' 24 7
  if offsetBranch op || (imm && floatingB op) then none
  else
    some (.short
      { u := w.getLsbD 1, d := short8 (w.extractLsb' 10 7), a := short8 (w.extractLsb' 17 7)
        b := if imm then 91 else short8 b, lit := if imm then some (b.signExtend 64) else none })

/-- The SW9 form of a two-word mode-8 instruction (04 R105, R106); none where it is malformed. -/
def form8Two (op : Op) (w0 w1 : Word) : Option Form :=
  let base : LongFields :=
    { LongFields.blank with
      mod := (w0.extractLsb' 10 13).setWidth 21, u := w0.getLsbD 1, d := full8 (w0.extractLsb' 23 9)
      pn := w1.getLsbD 28, ps := w1.extractLsb' 25 3 }
  if offsetBranch op then
    if w1.extractLsb' 29 3 ≠ 0 then none
    else some (.long { base with a := 331, lit := some (legacyOffset (w1.extractLsb' 0 25)) })
  else
    some (.long
      { base with
        a := full8 (w1.extractLsb' 0 9), b := full8 (w1.extractLsb' 9 9), c := fullCode (short8 (w1.extractLsb' 18 7))
        oce := w1.getLsbD 29, oci := (w1.extractLsb' 30 2).setWidth 3 })

/-- Decode mode 8 (04 R99, R103-R106, R110). -/
def parse8 (ws : List Word) : Except Reject (Op × Form) :=
  match ws with
  | [] => .error .truncated
  | w0 :: rest =>
    let op8 := w0.extractLsb' 2 8
    if op8 = 0xFF then .error .neverAssigned
    else
      match Op.ofOp8 op8 with
      | none => .error .laterLevel
      | some op =>
        if !cellFL8 op8.toNat then .error .laterLevel
        else
          let form :=
            match rest with
            | [] => form8One op w0
            | w1 :: _ => form8Two op w0 w1
          match form with
          | none => .error .malformed
          | some form =>
            match form.check op with
            | some r => .error r
            | none => .ok (op, form)

/-- The binary64 bits of a finite or infinite binary32 value, or of a NaN with its payload kept (05 R114). -/
def widenF32 (w : Word) : DWord :=
  let sign : BitVec 1 := w.extractLsb' 31 1
  let e := (w.extractLsb' 23 8).toNat
  let m := (w.extractLsb' 0 23).toNat
  let mk (e m : Nat) : DWord := sign ++ BitVec.ofNat 11 e ++ BitVec.ofNat 52 m
  if e = 255 then mk 2047 (m * 2 ^ 29)
  else if e ≠ 0 then mk (e + 896) (m * 2 ^ 29)
  else if m = 0 then mk 0 0
  else
    let k := Nat.log2 m
    mk (k + 874) (m * 2 ^ (52 - k))

/-- The literal of a mode-7 instruction (04 R109). DEDUCED: a binary64 operand takes the same number, and an f16, bf16 or
packed one the low bits of the 32-bit pattern; log entry 11. -/
def literal7 (op : Op) (type : Nat) (lit : BitVec 24) : DWord :=
  if floatingB op then
    let w : Word := lit ++ (0 : BitVec 8)
    if type = 10 then widenF32 w else w.setWidth 64
  else lit.signExtend 64

/-- A mode-7 operand field, with AX or BX (04 R107); none when the bit is set and bit 6 of the field is 1 (R108). -/
def operand7 (field : BitVec 7) (scalar : Bool) : Option (BitVec 9) :=
  if scalar then if field.getLsbD 6 then none else some (field.setWidth 9 + 256)
  else some (field.setWidth 9)

/-- The SW9 form of a mode-7 instruction word with its prefixes (04 R107-R109); none where it is malformed. The modifier
prefix read as 0 stands for an absent one, but for PS, which is then p7. An offset branch with a literal and a non-zero A is
malformed (DEDUCED, log entry 81). -/
def form7 (op : Op) (modPrefix litPrefix : Option Word) (w : Word) : Option Form :=
  let p := modPrefix.getD (BitVec.ofNat 32 0x1C000030)
  let reserved := p.getLsbD 25 || p.extractLsb' 8 3 ≠ 0 || p.extractLsb' 15 2 ≠ 0
  let rnd := (w.extractLsb' 30 2).setWidth 21
  let mod : BitVec 21 := (p.extractLsb' 11 14).setWidth 21 ||| (rnd <<< 4)
  let lit : Option (BitVec 24) := litPrefix.map (fun l => l.extractLsb' 8 24)
  match operand7 (w.extractLsb' 16 7) (p.getLsbD 31), operand7 (w.extractLsb' 23 7) (p.getLsbD 30) with
  | some a, some b =>
    let base : LongFields :=
      { LongFields.blank with
        mod := mod, u := w.getLsbD 8, d := (w.extractLsb' 9 7).setWidth 9, a := a, b := b
        c := if readsC op then 332 else 0, pn := p.getLsbD 29, ps := p.extractLsb' 26 3 }
    if reserved then none
    else
      match lit with
      | none => if offsetBranch op then none else some (.long base)
      | some l =>
        if w.extractLsb' 23 7 ≠ 0 then none
        else if offsetBranch op then
          if a ≠ 0 then none else some (.long { base with a := 331, lit := some (legacyOffset l) })
        else some (.long { base with b := 331, lit := some (literal7 op base.ty l) })
  | _, _ => none

/-- The prefixes and the instruction word of a mode-7 instruction (04 R108); none when a prefix is repeated. -/
def split7 (ws : List Word) : Option (Option Word × Option Word × Word) :=
  match ws with
  | [w] => if isModPrefix w || isLitPrefix w then none else some (none, none, w)
  | [p, w] =>
    if isModPrefix w || isLitPrefix w then none
    else if isModPrefix p then some (some p, none, w)
    else if isLitPrefix p then some (none, some p, w)
    else none
  | [p, q, w] =>
    if isModPrefix w || isLitPrefix w then none
    else if isModPrefix p && isLitPrefix q then some (some p, some q, w)
    else if isLitPrefix p && isModPrefix q then some (some q, some p, w)
    else none
  | _ => none

/-- Decode mode 7 (04 R99, R107-R110). -/
def parse7 (ws : List Word) : Except Reject (Op × Form) :=
  match split7 ws with
  | none => .error (if ws = [] then .truncated else .malformed)
  | some (modPrefix, litPrefix, w) =>
    let op8 := w.extractLsb' 0 8
    let prefixed := modPrefix.isSome || litPrefix.isSome
    match (if cellFL7 op8.toNat then Op.ofOp8 op8 else none) with
    | none =>
      if prefixed then .error .malformed
      else .error (if op8 = 0xFF then .neverAssigned else .laterLevel)
    | some op =>
      match form7 op modPrefix litPrefix w with
      | none => .error .malformed
      | some form =>
        match form.check op with
        | some r => .error r
        | none => .ok (op, form)

/-! ### Decoding -/

/-- The opcode and fields of the words of one instruction in decode mode 9, 8 or 7 (03 R62-R83, 04). -/
def parse (mode : Nat) (ws : List Word) : Except Reject (Op × Form) :=
  if mode = 8 then parse8 ws else if mode = 7 then parse7 ws else parse9 ws

/-- The instruction that the words of one instruction are, or why they are none. Words with an unassigned or
never-assigned opcode are the instruction ILLEGAL_INSTRUCTION (03 R83 orders 2 and 3). -/
noncomputable def decode (mode : Nat) (ws : List Word) : Except Reject Instr :=
  match parse mode ws with
  | .ok (op, form) =>
    match op.build form with
    | some i => .ok i
    | none => .error .malformed
  | .error .neverAssigned => .ok (.illegalInstruction ws)
  | .error .laterLevel => .ok (.illegalInstruction ws)
  | .error r => .error r

/-- The first mode-9 instruction of some bytes. -/
noncomputable def decodeBytes (bs : List Byte) : Except Reject Instr :=
  decode 9 (firstWords 9 5 [] (wordsOfBytes bs))

/-- The bytes of a number, `n` of them, lowest first (00 R2). -/
def bytesOfNat (n x : Nat) : List Byte := (List.range n).map (fun k => BitVec.ofNat 8 (x / 2 ^ (8 * k)))

/-- The instruction whose bits are `w`, numbered from the least significant bit of its first word; bits from `nbits` up
are 0. -/
noncomputable def decodeTableWord (nbits w : Nat) : Option Instr :=
  match decodeBytes (bytesOfNat 20 (w % 2 ^ nbits)) with
  | .ok i => some i
  | .error _ => none

/-! ### Encoding -/

/-- The words of a literal (03 R62). -/
def literalWords (lit : Option DWord) : List Word :=
  match lit with
  | none => []
  | some l => [l.extractLsb' 0 32, l.extractLsb' 32 32]

/-- The word of a short form (03 R62, R64, R65). -/
def shortWord (op : Op) (f : ShortFields) : Word :=
  f.b ++ f.a ++ f.d ++ op.op8 ++ BitVec.ofBool f.u ++ BitVec.ofBool f.lit.isSome ++ BitVec.ofBool false

/-- Word 0 of a long form (03 R62, R64, R67). -/
def longWord0 (op : Op) (f : LongFields) : Word :=
  f.mod ++ op.op8 ++ BitVec.ofBool f.u ++ BitVec.ofBool f.lit.isSome ++ BitVec.ofBool true

/-- Word 1 of a long form (03 R67). -/
def longWord1 (f : LongFields) : Word :=
  BitVec.ofBool false ++ BitVec.ofBool f.lc ++ BitVec.ofBool f.lb ++ BitVec.ofBool f.la ++ BitVec.ofBool f.nwb
    ++ f.b ++ f.a ++ f.d

/-- Word 2 of a long form (03 R67). -/
def longWord2 (f : LongFields) : Word :=
  f.ext ++ BitVec.ofBool f.oce ++ f.oci ++ BitVec.ofBool f.pn ++ f.ps ++ f.c

/-- The words of a form (03 R62-R67). -/
def Form.encode (op : Op) (form : Form) : List Word :=
  match form with
  | .short f => shortWord op f :: literalWords f.lit
  | .long f => longWord0 op f :: longWord1 f :: longWord2 f :: literalWords f.lit

/-- The mode-9 words of an instruction; none for a step of the device. -/
def encode (i : Instr) : List Word :=
  match i with
  | .illegalInstruction ws => ws
  | _ =>
    match i.view with
    | some (op, form) => form.encode op
    | none => []

end Sys2Proof
end

