-- ==== Sys2Proof/Machine/GroupState.lean ====
section
/-! DEFINITION. The state of a group and of a team (02, 07, 10). -/

namespace Sys2Proof.Machine

/-- A register of a group: v0-v255, s0-s63, k0-k15. -/
inductive Reg where
  | v (n : Nat)
  | s (n : Nat)
  | k (n : Nat)
  deriving DecidableEq, Repr

/-- A renamed register that is allocated or compressed (07 R168, R174): its lanes, and whether it is compressed. A
register with no entry is free. -/
structure VReg where
  vals : Lanes
  compressed : Bool
  deriving DecidableEq, Repr

/-- A fixed-latency write in flight (07 R163): the cycle of its file write, the lanes it writes, and whether it takes the
write port of its bank (07 R164). -/
structure FileWrite where
  due : Nat
  reg : Reg
  port : Bool
  mask : Mask
  vals : Lanes
  deriving DecidableEq, Repr

/-- An operand-cache copy in flight (07 R161). -/
structure CacheWrite where
  due : Nat
  entry : Nat
  mask : Mask
  vals : Lanes
  deriving DecidableEq, Repr

/-- A result of variable latency that has not returned (07 R165, R177): the registers that are pending, and the lanes
that each takes at the return. -/
structure Outstanding where
  id : Nat
  regs : List (Reg × Lanes)
  mask : Mask
  poisoned : Bool
  /-- Is it an access of the load-store engine (09 R219)? -/
  access : Bool
  /-- The Lift slots that become free at the return (16 R379). -/
  slots : Nat
  /-- The remote ranges through which the access went (19 R434). -/
  remote : List (DWord × DWord)
  deriving DecidableEq, Repr

/-- An access whose predicted translation the walk has not confirmed, because it met a fault (11 R273): the instruction with its
operands, the lanes that it accesses, whether a handler issued it, the number of its result, and the page and the cause of the
fault. A cause of 0 marks an access that has met no fault and waits behind the held ones, so that they are performed in program
order (06 R143, R144). -/
structure HeldAccess where
  op : Op
  f : LongFields
  a : List Lanes
  b : List Lanes
  c : List Lanes
  active : Mask
  lanes : List Nat
  sup : Bool
  result : Nat
  page : DWord
  cause : Nat
  deriving DecidableEq, Repr

/-- Why a group waits at a deschedule instruction whose condition does not hold yet (02 R47): what it waits for. -/
inductive Wait where
  /-- waitb.all: the masked berths, and whether the wait consumes them (10 R248). -/
  | berthsAll (mask : DWord) (consume : Bool)
  /-- waitb.any (10 R248). -/
  | berthsAny (mask : DWord)
  /-- bar, bar.wait: the barrier and the generation arrived at (10 R246). -/
  | barrier (id : Nat) (generation : Nat)
  /-- dep.wait: the counter's address (17 R398). -/
  | dep (addr : DWord)
  /-- enq, spawn into a full queue: the blocked request's number, if it has one still, and what it enqueues (17 R389). -/
  | queue (request : Option Nat) (launch stage : Nat) (records : List (List Byte))
  /-- phase: until every group that has not exited has issued it (17 R399). -/
  | phase
  /-- srg.close (15 R359). -/
  | srgClose
  /-- lift.pop: the instruction is evaluated afresh when the FIFO holds enough entries (16 R379). -/
  | liftPop (count : Nat)
  deriving DecidableEq, Repr

/-- What an instruction that its engine has not taken waits for. -/
inductive Awaited where
  /-- Room among the sub-core's accesses that await a return (09 R219). -/
  | loads
  /-- The host's answer to an ATS request for a page (11 R270). -/
  | ats (page : DWord)
  /-- A free entry in every Crane queue of a mask (12 R293, R297). -/
  | crane (mask : Nat)
  /-- No accepted, unfinished command names a ring of the core (12 R299). -/
  | ring (n : Nat)
  /-- No reservation of a ring of the core is outstanding (12 R299). -/
  | ringIdle (n : Nat)
  /-- An entry of the matrix queue (13 R307). -/
  | matrix
  /-- The baton (13 R308). -/
  | baton
  /-- An entry of the drain queue (14 R339). -/
  | drain
  /-- An entry of the surrogate queue (15 R356). -/
  | surrogate
  /-- The acceptance of a push of some entries (16 R378). -/
  | lift (n : Nat)
  /-- An entry of the core's bulk queue (16 R378). -/
  | bulk
  /-- mwait: a berth of the core becomes ready (13 R324). -/
  | berth (n : Nat)
  /-- lift.wait: so many free slots (16 R380). -/
  | liftWait (n : Nat)
  /-- A release or a fence: the accesses that a failed prediction holds (11 R273; 06 R144, R145). -/
  | stores
  deriving DecidableEq, Repr

/-- What a stalled or swapped-out group waits for besides pending registers (02 R49; 09 R219; 10 R243, R245). -/
inductive Hold where
  | none
  /-- The pending bits of these registers (02 R49). -/
  | pending (regs : List Reg)
  /-- The words at the PC are not in the instruction cache (10 R243). -/
  | fetch
  /-- sleep, until this time in nanoseconds (10 R245). -/
  | sleep (until_ : Nat)
  /-- An instruction that waits for its engine; it is tried again once the engine may take it. -/
  | accept (what : Awaited)
  /-- tlbi.page, unmap: until the shootdown completes (11 R284). -/
  | shootdown (id : Nat)
  deriving DecidableEq, Repr

/-- What a group is doing. -/
inductive Status where
  /-- In the ready queue or in a barrel slot (02 R44, R48). -/
  | running
  /-- Its run ended at a wait (02 R47). -/
  | waiting (w : Wait)
  /-- Swapped out (02 R49). -/
  | swapped
  /-- Held on the host path, for this page (11 R277). -/
  | hostHeld (page : DWord)
  /-- Stopped by a halt or by the debugger; its record is in `halt` (02 R57, 10 R259). -/
  | halted
  | exited
  deriving DecidableEq, Repr

/-- A halt record (10 R259). -/
structure HaltRecord where
  pc : DWord
  cause : Nat
  reason : Nat
  skid : Nat
  flags : Nat
  detail : Word
  deriving DecidableEq, Repr

/-- Who a group is (02 R41). -/
inductive GroupKind where
  | general
  | tug
  | recovery
  deriving DecidableEq, Repr

/-- The state of a surrogate call (15 R356-R359). -/
inductive CallState where
  | deciding
  | done
  | inPlace
  | bodyRun
  | answered
  deriving DecidableEq, Repr

/-- A surrogate call of a group (15 R356-R359): the lanes of the call, those accepted and not sampled that have had no
exact output yet, and the lanes to run in place. -/
structure SurrogateCall where
  state : CallState
  region : Nat
  surrogate : Nat
  gen : Word
  lanes : Mask
  uniform : Bool
  emAtOpen : Mask
  firstIn : Nat
  numIn : Nat
  firstOut : Nat
  numOut : Nat
  trusted : Mask
  inPlaceLanes : Mask
  /-- The region's bound as of the decision (15 R360). -/
  bound : Word
  body : DWord
  /-- The number of the pending result that holds its output registers until the decision. -/
  result : Nat
  deriving DecidableEq, Repr

/-- What a recovery group runs (15 R360, R362): its context, the key of its records, its region, the strict bit and the
code object's address of the origin's kernel. -/
structure Recovery where
  ctx : Nat
  body : DWord
  region : Nat
  firstIn : Nat
  firstOut : Nat
  numIn : Nat
  numOut : Nat
  strict : Bool
  launch : Nat
  deriving DecidableEq, Repr

/-- A group (02 R32, R46; 07; 09 R233-R236; 10). -/
structure Group where
  kind : GroupKind
  team : Nat
  number : Nat
  status : Status
  pc : DWord
  /-- The words of the instruction being issued; the model's own field. -/
  ir : List Word
  em : Mask
  preds : List Mask
  s : List Word
  k : List Word
  v : Table VReg
  poison : List Reg
  inflight : List FileWrite
  copies : List CacheWrite
  /-- The results of the last three issues of the run, newest first: the class and the lanes (R159). -/
  history : List (Option (Nat × Lanes))
  cache : List (Option Lanes)
  outstanding : List Outstanding
  /-- The registers whose pending bits have cleared in this cycle: an instruction may read them from the next cycle on (02
  R49). -/
  landed : List Reg
  /-- Accesses that a failed prediction holds, oldest first (11 R273). -/
  predicted : List HeldAccess
  run : Nat
  /-- Cycles of the stall under way (R49), and what it waits for. -/
  stall : Nat
  hold : Hold
  /-- The cycle in which the group first asked for what it waits to have accepted (R51). -/
  asked : Nat
  /-- Penalised turns that the instruction at the PC has taken (R45). -/
  paid : Nat
  /-- Penalised turns that an f64 instruction leaves to the group's next turns (08 R195). -/
  owed : Nat
  /-- Until this cycle the turns of the group are stalled turns that count for nothing (R255, R232). -/
  holdUntil : Nat
  /-- Legacy modes: registers and cache entries that fixed-latency results interlock, with the first cycle in which
  each may be read (04 R111). -/
  locks : List (Nat × Reg)
  cacheLocks : List (Nat × Nat)
  fpst : Lanes
  nonUniform : Bool
  sp : Nat
  limit : Nat
  /-- Changes of SP in flight: the cycle of each and the value it leaves (R234). -/
  spWrites : List (Nat × Nat)
  privateBase : DWord
  stack : Memory
  /-- Blocks of 16 bytes per lane, by number (09 R236; 06 R131): those that the stack cache holds, newest first; those
  stored to since they were last written back; those whose backing pages hold what was last stored; and, of these, those
  that the stack cache has dropped. -/
  held : List Nat
  dirty : List Nat
  backed : List Nat
  missing : List Nat
  /-- The 16-byte units of the stack, by place, that were refilled from a poisoned line (09 R221). -/
  stackPoison : List Nat
  sup : Bool
  cause : Nat
  checkpoint : Bool
  /-- The generation of each barrier at which the group last arrived (R246). -/
  arrivals : Table Nat
  call : Option SurrogateCall
  recovery : Option Recovery
  halt : Option HaltRecord
  /-- A delivered halt lets this many instructions still issue (R57). -/
  skidLeft : Option Nat
  skid : Nat
  /-- The debugger lets one instruction issue (R261). -/
  stepping : Bool
  /-- The wait that the group takes up afresh, without the part of its instruction already performed (R54, R261). -/
  resumeWait : Option Wait
  /-- The marked sources of a berth wait, which are freed when it ends and not by a fault in its place (10 R249). -/
  waitMarks : List Nat
  /-- NU as that wait's instruction found it, for a fault in its place (00 R6). -/
  waitNU : Bool
  deriving DecidableEq, Repr

/-- The expected count and arrivals of a barrier instance (10 R246). -/
structure Barrier where
  generation : Nat
  count : Option Nat
  arrived : List Nat
  deriving DecidableEq, Repr

/-- Barrier at placement: generation 0, nobody arrived (R246). -/
def Barrier.init : Barrier := ⟨0, none, []⟩

/-- How the life of a team began (02 R59, 17 R402). -/
inductive Origin where
  | ticket (t : Nat)
  | seed
  | record (bytes : List Byte)
  deriving DecidableEq, Repr

/-- Did the life begin with a record of KIND 0 that a program enqueued (17 R402)? -/
def Origin.isRecord (o : Origin) : Bool :=
  match o with
  | .record _ => true
  | _ => false

/-- A team's life across its phases (02 R59): how it began, and the place in the save area of the copy of the record that
began it (17 R402). -/
structure Life where
  origin : Origin
  copy : Option Nat
  deriving DecidableEq, Repr

/-- What is ending a team. -/
inductive Ending where
  | no
  /-- Retirement: retire, or the exit of the last group (17 R399). -/
  | retire
  /-- The phase instruction (02 R39, 17 R399). -/
  | phase
  /-- A halt; the team is killed once its commands have settled (02 R57, R58). -/
  | kill (tcause : Nat)
  /-- A debugger's STOP (10 R261). -/
  | stop
  deriving DecidableEq, Repr

/-- A resident team (02 R33, R36, R42). -/
structure Team where
  launch : Nat
  ctx : Nat
  stage : Nat
  variant : Nat
  tx : Word
  ty : Word
  tz : Word
  size : Word
  user : DWord
  dep : DWord
  parent : DWord
  retry : Nat
  origin : Origin
  /-- The offset in the save area of the copy of the record that began the life (17 R402). -/
  copy : Option Nat
  slots : List Nat
  foot : Nat
  moored : Nat
  strict : Bool
  decode : Nat
  scratchBase : Nat
  scratchBytes : Nat
  berthBase : Nat
  berthCount : Nat
  ringBase : Nat
  ringCount : Nat
  barriers : Table Barrier
  batonHolder : Option Nat
  batonQueue : List Nat
  /-- The cycle from which the holder holds the baton (13 R308). -/
  batonFrom : Nat
  phaseSize : Word
  phaseStage : Nat
  phaseArrived : List Nat
  clockStart : Nat
  clockFrozen : Nat
  frozenAt : Option Nat
  /-- What the residency clock had reached when the watchdog last looked at it, in nanoseconds (18 R426). -/
  clockSeen : Nat
  preempt : Bool
  ending : Ending
  deriving DecidableEq, Repr

end Sys2Proof.Machine
end

