-- ==== Sys2Proof/Machine/DeviceState.lean ====
section
/-! DEFINITION. The state of contexts, translation, launches, the front end, the links and the security block
(03 R93-R96, 11, 17, 18, 19, 20). -/

namespace Sys2Proof.Machine

/-! ### Translation (11) -/

/-- A translation held by a TLB (R271, R272): the pages that the entry covers, each with its frame and its D bit as
last seen, and the attributes they share. `level` gives the page size (R264). -/
structure TlbEntry where
  ctx : Nat
  level : Nat
  pages : List (Nat × Nat)
  dirty : List Nat
  r : Bool
  w : Bool
  x : Bool
  user : Bool
  ord : Nat
  cont : Nat
  deriving DecidableEq, Repr

/-- A host-path request for a page of a context (R277): the groups held for it and the front-end queues that wait. -/
structure HostRequest where
  page : DWord
  groups : List GroupRef
  queues : List Nat
  deriving DecidableEq, Repr

/-- An ATS translation of a host-shared page (R270), with the function whose tables granted it (R268). -/
structure AtsEntry where
  page : DWord
  func : Nat
  r : Bool
  w : Bool
  deriving DecidableEq, Repr

/-- A shootdown under way (R278): its context, the range of virtual addresses that it drops, or the whole context, and
the group or the packet that waits for it. -/
structure Shootdown where
  id : Nat
  ctx : Nat
  lo : Nat
  hi : Nat
  group : Option GroupRef
  packet : Option (Nat × Nat)
  deriving DecidableEq, Repr

/-- A surrogate's directory entry (15 R353). -/
structure DirectoryEntry where
  enabled : Bool
  gen : Word
  calls : Nat
  accepted : Nat
  rejected : Nat
  resFb : Nat
  sampled : Nat
  violations : Nat
  late : Nat
  errSum : Word
  errMax : Word
  window : DWord
  deriving DecidableEq, Repr

/-- A directory entry as a context's creation leaves it (15 R353). -/
def DirectoryEntry.created : DirectoryEntry := ⟨true, 0, 0, 0, 0, 0, 0, 0, 0, 0, 0, 0⟩

/-- A context (11 R268, 10 R251, 15 R353, R354, 19 R431). -/
structure Context where
  root : Nat
  func : Nat
  valid : Bool
  poolBase : Nat
  poolSize : Word
  poolTail : Word
  poolHead : Word
  tvec : DWord
  qbound : List Word
  vthresh : Nat
  vwin : Nat
  directory : Table DirectoryEntry
  remote : Table (DWord × DWord)
  debugger : Bool
  hostRequests : List HostRequest
  ats : List AtsEntry
  deriving DecidableEq, Repr

/-- A context after cold start (11 R268, 10 R251, 15 R354). -/
def Context.cold : Context :=
  { root := 0, func := 0, valid := false, poolBase := 0, poolSize := 0, poolTail := 0, poolHead := 0, tvec := 0
    qbound := List.replicate 64 0, vthresh := 0, vwin := 0x40, directory := [], remote := [], debugger := false
    hostRequests := [], ats := [] }

/-! ### Launches (03 R93-R96, 18 R418-R420, 17 R387) -/

/-- A stage of a kernel header (03 R94). -/
structure StageEntry where
  capacity : Nat
  varBase : Nat
  varCount : Nat
  carry : List Nat
  deriving DecidableEq, Repr

/-- A variant of a kernel header (03 R95). -/
structure VariantEntry where
  limit : Word
  entry : Nat
  foot : Nat
  groups : Nat
  scratch : Nat
  deriving DecidableEq, Repr

/-- A surrogate region of a kernel header (03 R96). -/
structure RegionEntry where
  region : Nat
  numIn : Nat
  numOut : Nat
  body : Nat
  close : Nat
  deriving DecidableEq, Repr

/-- A kernel header and its tables (03 R93-R96). -/
structure Header where
  decode : Nat
  feature : Nat
  strict : Bool
  peakFoot : Nat
  moored : Nat
  berths : Nat
  rings : Nat
  scratch : Nat
  stack : Nat
  team : Nat
  textLen : Nat
  textOff : Nat
  stages : List StageEntry
  variants : List VariantEntry
  regions : List RegionEntry
  deriving DecidableEq, Repr

/-- A live launch (18 R420): what the front end keeps of its packet, its LPB and its header. The launch record, the
queue descriptors and the records are in memory. -/
structure Launch where
  ctx : Nat
  queue : Nat
  index : Nat
  compl : DWord
  intr : Bool
  seed : Bool
  gx : Nat
  gy : Nat
  gz : Nat
  size : Word
  user : DWord
  code : DWord
  header : Header
  idemp : Bool
  retry : Nat
  pins : List Nat
  firstTicket : Nat
  t1 : Nat
  t2 : Nat
  t3 : Nat
  save : DWord
  saveSize : Nat
  haltArea : DWord
  haltSize : Nat
  area : DWord
  areaSize : Nat
  /-- The physical pages of the area, 64 KiB each, under the translations that the front end holds (R420, 17 R387), and those
  under which the home slices have the descriptors registered. -/
  frames : List Nat
  homes : List Nat
  /-- Has a shootdown taken a page of the area, so that what goes there waits (11 R278; log entry 36)? -/
  lost : Bool
  aborted : Bool
  draining : Bool
  deriving DecidableEq, Repr

/-- A request that waits for room in a stage queue (17 R389): the records to enqueue with the carry block of a
continuation, the group that waits, or none for a continuation and for a relaunch, and the life that a continuation goes
on with. -/
structure QueueRequest where
  id : Nat
  launch : Nat
  stage : Nat
  records : List (List Byte)
  carry : List Byte
  group : Option GroupRef
  life : Option Life
  deriving DecidableEq, Repr

/-! ### The front end (18) -/

/-- A run-list entry (R406). -/
structure RunEntry where
  qcb : Nat
  ctx : Nat
  valid : Bool
  deriving DecidableEq, Repr

/-- How far a packet has come (R410). -/
inductive Progress where
  | waiting
  | started
  /-- Its effects are done, and its completion write is still to be performed (R411); `coded` when its failure has set ERR. -/
  | finishing (ok intr coded : Bool)
  | done (ok : Bool)
  deriving DecidableEq, Repr

/-- A packet that the front end has read (R407, R408), with what it is doing. `bad` marks one whose read met a fault. -/
structure Packet where
  index : Nat
  bytes : List Byte
  progress : Progress
  bad : Bool
  deriving DecidableEq, Repr

/-- What the front end keeps of a queue: its packets that have not retired, oldest first, the host pages that packets wait
for and those that the host has refused them, by packet index (R277), the arms of its last PRED as packet indices with whether
each is taken (R417), and whether no further packet starts (R424, R425). `areas` are the ranges to zero when the destruction
completes. -/
structure FrontQueue where
  packets : List Packet
  hostWait : List (Nat × DWord)
  arms : List (Nat × Bool)
  refused : List (Nat × DWord)
  stopping : Bool
  destroying : Bool
  areas : List (DWord × Nat)
  deriving DecidableEq, Repr

/-! ### Security, links, debugger (20, 19, 10 R262) -/

/-- An audit entry (20 R450): its first 64 bytes and its hash. -/
structure AuditEntry where
  seq : Nat
  body : List Byte
  hash : BitVec 512
  deriving DecidableEq, Repr

/-- Module state (20 R445). -/
inductive ModuleState where
  | starting
  | running
  | safe
  deriving DecidableEq, Repr

/-- The security block and the always-on storage (20). -/
structure Security where
  state : ModuleState
  fails : Nat
  warm : Bool
  seedHash : BitVec 512
  meas : List (BitVec 512)
  romDigest : BitVec 512
  fuseDigest : BitVec 512
  /-- The fused identity seed (20 R439), minimum SVN and digest of the vendor key, as sensed at the cold start, and the vendor
  key that the last start was given (R443, R444). -/
  seed : BitVec 256
  minSvn : Nat
  vendorDigest : BitVec 512
  vendorKey : List Byte
  /-- Has a start come to its step 6, and waits for READY (20 R445)? -/
  started : Bool
  /-- The firmware image in device memory that no context can map (20 R443). -/
  image : List Byte
  extData : BitVec 512
  extIndex : Nat
  nonce : BitVec 512
  attErr : Bool
  attAddr : Nat
  mbox : DWord
  ctxStatus : Nat
  ctxOp : Nat
  ctxCtx : Nat
  /-- The context whose release waits for a scrub that is due at a wake (20 R446, R447). -/
  releasing : Option Nat
  ring : List AuditEntry
  unspilled : Nat
  head : BitVec 512
  nextSeq : Nat
  lost : Nat
  lostDue : Nat
  spillBase : DWord
  spillM : Nat
  append : BitVec 256
  /-- Firmware appends that wait for the end of the cycle or for room (20 R450, R452): EVENT, whether the Tug's, and DATA. -/
  appends : List (Nat × Bool × BitVec 256)
  powered : Bool
  deriving DecidableEq, Repr

/-- The debug registers (10 R262). -/
structure DebugRegs where
  status : Nat
  op : Nat
  ctx : Nat
  core : Nat
  slot : Nat
  kind : Nat
  num : Nat
  index : Nat
  data : List Word
  deriving DecidableEq, Repr

/-- The module's links (19 R430). -/
structure Links where
  modId : BitVec 16
  up : List Bool
  peer : List (BitVec 16)
  deriving DecidableEq, Repr

end Sys2Proof.Machine
end

