-- ==== Sys2Proof/Machine/EngineState.lean ====
section
/-! DEFINITION. The state of a core: its berths, rings, engines and caches (01, 06, 09, 12-16). -/

namespace Sys2Proof.Machine

/-! ### Berths and rings (01 R17, R20) -/

/-- A fault that an engine holds at a berth (10 R249): its cause, its DETAIL-free address, and for a drain its restart
record (14 R342). -/
structure HeldFault where
  cause : Nat
  addr : DWord
  restart : List Byte
  deriving DecidableEq, Repr

/-- The state of a berth (01 R17). -/
inductive BerthState where
  | free
  | busy
  | ready
  deriving DecidableEq, Repr

/-- A berth: its state, its held fault (10 R249) and its held flags (05 R130). -/
structure Berth where
  state : BerthState
  fault : Option HeldFault
  flags : BitVec 5
  deriving DecidableEq, Repr

/-- A free berth. -/
def Berth.free : Berth := ⟨.free, none, 0⟩

/-- A reservation of ring bytes (12 R300): who holds it, its length, and whether its advance is due. -/
structure Reservation where
  id : Nat
  len : Nat
  done : Bool
  deriving DecidableEq, Repr

/-- A declared ring (01 R20, 12 R300). `base` is a scratchpad byte offset. -/
structure Ring where
  base : Nat
  size : Nat
  prod : Word
  cons : Word
  reserved : List Reservation
  deriving DecidableEq, Repr

/-! ### Crane (12) -/

/-- The operation of a Crane command (12 R290, R301). -/
inductive CraneOp where
  | ld
  | st
  | cp
  | set
  | gather
  | chain
  | fence
  deriving DecidableEq, Repr

/-- Where the walker of a chain is (12 R301): the offset of the entry that it has reached and its bytes as it read them there,
the sixteen coordinates, the offset bias, the iteration counts by entry offset, the entries passed, and the fence entry that
it waits for. -/
structure Walker where
  at_ : Nat
  entry : List Byte
  xs : List Word
  bias : Word
  counts : Table Nat
  passed : Nat
  fenced : Option Nat
  deriving DecidableEq, Repr

/-- An accepted Crane command (12 R293): what it captured. `fence` and `mask` name a crn.fence. -/
structure CraneCommand where
  id : Nat
  op : CraneOp
  team : Nat
  slot : Nat
  ctx : Nat
  user : Bool
  physical : Bool
  berth : Option Nat
  ring : Option Nat
  a : DWord
  c : DWord
  coords : List Word
  counter : Option DWord
  scratchBase : Nat
  scratchBytes : Nat
  mask : Nat
  /-- Its elements have been performed, and its completion is due. -/
  begun : Bool
  /-- The pointer value at which its ring reservation begins, and its length. -/
  reserved : Option (Word × Nat)
  /-- The page that it waits for (R303), with the first byte that it wants there, and the address of the fault that it has
  met. -/
  awaits : Option DWord
  awaitsAt : DWord
  fault : Option DWord
  /-- The records that it has read since it began, by address, and its index list (12 R294). -/
  read : List (DWord × List Byte)
  rows : Option (List Nat)
  walker : Option Walker
  deriving DecidableEq, Repr

/-! ### Matrix engine (13) -/

/-- A matrix-queue entry's command (13 R307). -/
inductive MatrixOp where
  | mma
  | mzero
  | mlda
  | bld
  deriving DecidableEq, Repr

/-- An accepted matrix command (13 R311-R313): what it captured. `steps` holds the array-active cycles still to come
once it has fired (R325), and `out` the bank elements of its product, by window offset. -/
structure MatrixCommand where
  id : Nat
  op : MatrixOp
  team : Nat
  slot : Nat
  berth : Nat
  teamBerth : Nat
  bank : Nat
  aType : Nat
  bType : Nat
  k : Nat
  ob : Nat
  me : Nat
  ne : Nat
  zero : Bool
  sat : Bool
  aRing : Nat
  dr : Bool
  dslot : Nat
  oRing : Option Nat
  teamRing : Nat
  p : Nat
  scratchBase : Nat
  scratchBytes : Nat
  ctx : Nat
  user : Bool
  fired : Bool
  steps : Nat
  out : List (Nat × Word)
  /-- The flags collected (05 R130), and whether it read an uncorrectable error (R322). -/
  flags : BitVec 5
  bad : Bool
  deriving DecidableEq, Repr

/-- The matrix engine (13 R307, R326, R327): its queue, and the governor's counts. -/
structure MatrixEngine where
  queue : List MatrixCommand
  /-- Array-active cycles counted in the current window, and in the one before. -/
  active : Nat
  before : Nat
  heldNow : Bool
  /-- BUDGET and RAMP as the current window took them (R326). -/
  windowBudget : Nat
  windowRamp : Nat
  held : Nat
  ramp : Nat
  budget : Nat
  deriving DecidableEq, Repr

/-- The matrix engine after cold start (13 R327). -/
def MatrixEngine.cold : MatrixEngine :=
  { queue := [], active := 0, before := 0, heldNow := false, windowBudget := 0x400, windowRamp := 0x400, held := 0
    ramp := 0x400, budget := 0x400 }

/-! ### Drain unit (14) -/

/-- What a drain-queue entry does (14 R337). -/
inductive DrainOp where
  | drain
  | load
  | const
  deriving DecidableEq, Repr

/-- What a drain latches when it starts (14 R329): the program, the column and row constants and the table. -/
structure Latched where
  program : List Word
  cols : List Word
  rows : List Word
  table : List Word
  deriving DecidableEq, Repr

/-- A drain-queue entry (14 R329, R339): what it captured, and once it has started its latched program, its next row, its
ring image's place and length, and its flags. `held` marks the held drain and gives its KIND (R341). -/
structure DrainCommand where
  id : Nat
  op : DrainOp
  team : Nat
  slot : Nat
  ctx : Nat
  user : Bool
  berth : Nat
  teamBerth : Nat
  bank : Nat
  sel : Nat
  me : Nat
  ne : Nat
  ring : Option Nat
  teamRing : Nat
  p : Nat
  scratchBase : Nat
  scratchBytes : Nat
  auto : Bool
  /-- The matrix commands accepted before it (R339 bank order). -/
  after : List Nat
  ready : Bool
  latched : Option Latched
  row : Nat
  /-- The rows that have been performed, which a restart never rewrites (06 R154). -/
  stored : Nat
  image : Option (Word × Nat)
  flags : BitVec 5
  held : Option Nat
  resumed : Bool
  cause : Nat
  /-- Has it read an uncorrectable error in a bank element (R341 KIND 6), or has its mma read one (R322)? -/
  bad : Bool
  mmaBad : Bool
  deriving DecidableEq, Repr

/-! ### Caches of the load-store engine and the sequencer (06 R132, R133, R157) -/

/-- A store that the store buffer holds (06 R157): the group, the lane and the bytes, with their physical addresses.
`host` marks the host-shared half, whose addresses are virtual, of the function `func` (11 R270). -/
structure BufferedStore where
  id : Nat
  slot : Nat
  ctx : Nat
  /-- Does it update an L1 copy that the core holds, rather than drop it (09 R224)? -/
  keeps : Bool
  host : Bool
  func : Nat
  cells : List (Nat × Byte)
  poisoned : Bool
  deriving DecidableEq, Repr

/-- An L1 copy of a line (06 R132): the line's bytes as they were. -/
structure L1Line where
  line : Nat
  bytes : List Byte
  deriving DecidableEq, Repr

/-- A line of the instruction cache (06 R133): its words as they were fetched. -/
structure FetchLine where
  line : Nat
  words : List Word
  deriving DecidableEq, Repr

/-! ### Surrogate engine (15) -/

/-- An entry of the surrogate queue (15 R356, R357, R367). -/
inductive SurrogateEntry where
  /-- A call of the group in a slot, with the inputs as they stood: word `m` of lane `l` is in list `m`. -/
  | call (slot : Nat) (inputs : List Lanes)
  /-- srg.load: the group, the number of its outstanding result, the id, the image address, the context and the privilege,
  the page that it waits for, and whether the host has refused it. -/
  | load (slot : Nat) (result : Nat) (id : Nat) (addr : DWord) (ctx : Nat) (user : Bool) (awaits : Option DWord)
      (refused : Bool)
  /-- srg.evict of an id, by the group in a slot. -/
  | evict (slot : Nat) (id : Nat)
  deriving DecidableEq, Repr

/-- A Slipway record and its tag (15 R360). `taken` names the recovery group's slot and lane that runs it. -/
structure SlipRecord where
  slot : Nat
  lane : Nat
  ctx : Nat
  surrogate : Nat
  region : Nat
  body : DWord
  firstIn : Nat
  firstOut : Nat
  numIn : Nat
  numOut : Nat
  strict : Bool
  launch : Nat
  inputs : List Word
  outputs : List Word
  sample : Bool
  late : Bool
  relative : Bool
  bound : Word
  entered : Nat
  taken : Option (Nat × Nat)
  deposited : Bool
  orphan : Bool
  deriving DecidableEq, Repr

/-- A core's copy of ENABLED and GEN of a surrogate (15 R353), with the cycle in which it last changed and what it was
before (15 R372). -/
structure SurrogateCopy where
  enabled : Bool
  gen : Word
  since : Nat
  oldEnabled : Bool
  oldGen : Word
  deriving DecidableEq, Repr

/-- A copy as a directory entry gives it. -/
def SurrogateCopy.of (enabled : Bool) (gen : Word) : SurrogateCopy := ⟨enabled, gen, 0, enabled, gen⟩

/-- A core's surrogate engine (15 R352, R353): the queue, the Slipway, the resident table (offset and size by id), the
copies of ENABLED and GEN by id, and the sampling count. The store is in the window. -/
structure SurrogateEngine where
  queue : List SurrogateEntry
  slipway : List SlipRecord
  resident : Table (Nat × Nat)
  copies : Table SurrogateCopy
  count : Word
  deriving DecidableEq, Repr

/-! ### Lift (16) -/

/-- An entry of a Lift FIFO (16 R373): its lanes, whether it is present at the consumer (R375), and its poison. -/
structure LiftEntry where
  vals : Lanes
  present : Bool
  poisoned : Bool
  deriving DecidableEq, Repr

/-- A bulk push whose entries have not all entered the FIFO (16 R378). -/
structure BulkPush where
  team : Nat
  berth : Nat
  entries : List Lanes
  deriving DecidableEq, Repr

/-- The gate of a lower core's upper partner (16 R383). -/
inductive GateState where
  | on
  | pending
  | gated
  | waking
  deriving DecidableEq, Repr

/-! ### A core -/

/-- A core (01 R11, 02 R41). `incoming` is the Lift FIFO toward this core, and `taking` counts the slots of that FIFO
whose accepted pops have not written their data. `win` holds the window's storage by window offset (01 R23). -/
structure Core where
  ctx : Option Nat
  corectxErr : Bool
  /-- CTX of CORECTX as last written (20 R449). -/
  corectxCtx : Nat
  /-- Has the core held no context since its last scrub (20 R449)? -/
  clean : Bool
  /-- A scrub that fell due while the core was gated: the context that the core left, and the one that it takes after the
  scrub (20 R446). -/
  scrubDue : Option (Nat × Option Nat)
  fenced : Bool
  groups : Table Group
  teams : Table Team
  ready : List (List (Nat × Nat))
  barrel : List (Option Nat)
  /-- The round-robin arbitration (02 R51; 01 R18): the sub-core granted last, by engine; 0 stands for the core. -/
  arb : Table Nat
  win : Memory
  berths : Table Berth
  rings : Table Ring
  swapth : Nat
  crane : List (List CraneCommand)
  matrix : MatrixEngine
  drain : List DrainCommand
  surrogate : SurrogateEngine
  incoming : List LiftEntry
  taking : Nat
  bulk : List BulkPush
  gateReq : Bool
  gate : GateState
  stores : List BufferedStore
  l1 : List L1Line
  tlb : List TlbEntry
  icache : List FetchLine
  deriving DecidableEq, Repr

/-- A core after cold start (02 R50, 12, 13 R327, 15, 16 R375, R383, 20 R446, R449): no context, nothing resident. -/
def Core.cold : Core :=
  { ctx := none, corectxErr := false, corectxCtx := 0, clean := true, scrubDue := none, fenced := false, groups := [], teams := []
    ready := [[], [], [], []], barrel := List.replicate 16 none, arb := [], win := [], berths := [], rings := [], swapth := 0x0200
    crane := [[], [], [], []], matrix := MatrixEngine.cold, drain := []
    surrogate := { queue := [], slipway := [], resident := [], copies := [], count := 0 }
    incoming := [], taking := 0, bulk := [], gateReq := false, gate := .on, stores := [], l1 := [], tlb := []
    icache := [] }

/-! ### Evicted teams and the front end (17, 18) -/

/-- An evicted team (17 R400, R401): its KIND 2 record, and the block's place in the save area with the number of the free
values that its bytes are, none where it could not be written. The block's layout is not architectural: the model keeps the
team, its groups and its storage as they were, with ring bases relative to the allocation (log entry 37). -/
structure Evicted where
  launch : Nat
  wake : Nat
  core : Nat
  block : Nat
  size : Nat
  record : List Byte
  mark : Option Nat
  team : Team
  groups : List Group
  scratch : List Byte
  berths : List (Nat × Berth)
  rings : List (Nat × Ring)
  moored : List (List Byte)
  records : List SlipRecord
  deriving DecidableEq, Repr

/-- An entry of a halt area that is still to be written (18 R422), with the host page that it waits for. -/
structure HaltWrite where
  ctx : Nat
  area : DWord
  size : Nat
  entry : List Byte
  awaits : Option DWord
  deriving DecidableEq, Repr

/-- The front end, the Pilot's registers and its work (18, 17 R392, R393). -/
structure FrontEnd where
  runList : Table RunEntry
  slots : Table Nat
  queues : Table FrontQueue
  hqRefused : Bool
  hqBusy : Bool
  hqOp : Nat
  hqMode : Bool
  hqSlot : Nat
  hqQueue : Nat
  hqQcb : Nat
  hqSwitchTo : Option Nat
  launches : Table Launch
  nextHandle : Nat
  requests : List QueueRequest
  /-- The lives that queued continuations and relaunches go on with: launch, stage, and the record's count in its queue (02 R59). -/
  lives : List (Nat × Nat × Nat × Life)
  /-- The relaunches of this cycle, which arrive at their home slices after its claims (17 R394, R402): launch, record and life. -/
  relaunches : List (Nat × List Byte × Life)
  evicted : List Evicted
  assignments : List Assignment
  halts : List HaltWrite
  /-- Interrupts raised, newest first: function and vector. -/
  interrupts : List (Nat × Nat)
  deriving DecidableEq, Repr

end Sys2Proof.Machine
end

