-- ==== Sys2Proof/Machine/State.lean ====
section
/-! DEFINITION. The state of the device, why a step stops, and the state after reset. -/

namespace Sys2Proof.Machine

/-- Which part of the device the next step advances (log entry 4): the oldest due event of the agenda, of which `left` take
place in this cycle, then one cycle of a sub-core, then the end of the cycle. -/
inductive Turn where
  | event (left : Nat)
  | sub
  | tick
  deriving DecidableEq, Repr

/-- The Gulzor-9 and the module around it. -/
structure State where
  /-- Core clock cycles since cold start (01 R29); sr.time follows from it (R30). -/
  cycle : Nat
  /-- The model's own: whose turn it is, the core whose sub-cores run, those of them that are still to run in this cycle,
  in their order, and the group for which an instruction is executed (log entry 4). -/
  turn : Turn
  cursor : Nat
  order : List Nat
  issuing : GroupRef
  /-- The model's own: the steps of engines, of the front end and of the outside that are due, oldest first (log entry
  4). -/
  agenda : List Instr
  /-- The model's own: how many free values have been used (log entry 5). -/
  fresh : Nat
  /-- Device physical memory outside the windows and control space (01 R22). -/
  mem : Memory
  /-- The host-shared half, by the function whose tables map it (06 R135, 11 R270). -/
  hostMem : Table Memory
  /-- Lines that hold an uncorrectable error (20 R454). -/
  poisoned : List Nat
  cores : Table Core
  contexts : Table Context
  /-- The last-level TLB of each die (11 R271). -/
  dieTlb : Table (List TlbEntry)
  shootdowns : List Shootdown
  front : FrontEnd
  security : Security
  dbg : DebugRegs
  links : Links
  deriving DecidableEq, Repr

/-- Why the machine stops. -/
inductive Fault where
  /-- Power has been removed from every die (20 R453) and no cold start is due: raised by `step`. Safe: nothing runs. -/
  | unpowered
  deriving DecidableEq, Repr

/-- Why an instruction has no meaning. -/
inductive Refusal where
  /-- An instruction that the model does not give its meaning yet: raised by `exec`'s arms. Safe: nothing is claimed. -/
  | notModelled (mnemonic : String)
  deriving DecidableEq, Repr

/-- The front end after cold start (18 R406, R423). -/
def FrontEnd.cold : FrontEnd :=
  { runList := [], slots := [], queues := [], hqRefused := false, hqBusy := false, hqOp := 0, hqMode := false
    hqSlot := 0, hqQueue := 0, hqQcb := 0, hqSwitchTo := none, launches := [], nextHandle := 0, requests := [], lives := [], relaunches := []
    evicted := [], assignments := [], halts := [], interrupts := [] }

/-- The security block after cold start (20 R440-R452). FAILS is kept in always-on storage and no first value is given;
the nonce, the mailbox, the spill region and APPEND are given none either (log entry 3). -/
def Security.cold : Security :=
  { state := .starting, fails := 0, warm := false, seedHash := 0, meas := List.replicate 8 0, romDigest := 0
    fuseDigest := 0, seed := 0, minSvn := 0, vendorDigest := 0, vendorKey := [], started := false, image := [], extData := 0, extIndex := 0, nonce := 0, attErr := false
    attAddr := 0, mbox := 0, ctxStatus := 0, ctxOp := 0, ctxCtx := 0, releasing := none, ring := [], unspilled := 0, head := 0, nextSeq := 0, lost := 0, lostDue := 0
    spillBase := 0, spillM := 0, append := 0, appends := [], powered := true }

/-- The debug registers after cold start (10 R262; log entry 3 for DBGDATA). -/
def DebugRegs.cold : DebugRegs :=
  { status := 0, op := 0, ctx := 0, core := 0, slot := 0, kind := 0, num := 0, index := 0, data := List.replicate 32 0 }

/-- The links after cold start (19 R430). -/
def Links.cold : Links := { modId := 0, up := List.replicate 18 false, peer := List.replicate 18 0 }

/-- The device right after power-on: every register at its cold-start value, memory scrubbed, no context, nothing
resident, and no start made yet (SECSTAT.STATE STARTING). Log entry 6 says how a program comes to run. -/
def State.reset : State :=
  { cycle := 0, turn := .sub, cursor := 0, order := [], issuing := ⟨0, 0⟩, agenda := [], fresh := 0, mem := [], hostMem := []
    poisoned := [], cores := [], contexts := [], dieTlb := [], shootdowns := [], front := FrontEnd.cold
    security := Security.cold, dbg := DebugRegs.cold, links := Links.cold }

end Sys2Proof.Machine
end

