-- ==== Sys2Proof/Machine/IssueTypes.lean ====
section
/-! DEFINITION. What an attempt to issue an instruction can end in. -/

namespace Sys2Proof.Machine

/-- The trap causes (10 R253). -/
inductive Cause where
  | illegalInstruction
  | illegalOperand
  | deadRegister
  | nonUniform
  | footprint
  | berthConflict
  | barrier
  | privilege
  | software
  | svc
  | breakpoint
  | nonCanonical
  | pageNotPresent
  | pagePermission
  | pageOrd
  | hostPage
  | physHole
  | windowContext
  | windowPriv
  | windowAtomic
  | hostAtomic
  | misaligned
  | scratchRange
  | stackRange
  | stackOverflow
  | purity
  | memEcc
  | ringOverrun
  | craneFault
  | drainFault
  | matrixFault
  | surrogateFault
  | liftFault
  | recoveryFault
  | noVariant
  | watchdog
  | launchAbort
  deriving DecidableEq, Repr

/-- A trap that an instruction raises (10 R253-R256): the cause, the REASON, the DETAIL, the failing lanes and the address
of a per-lane cause, and what the frame's FLAGS and DRAIN fields take from it. `next` marks a cause whose frame records
the address after the instruction. -/
structure Trap where
  cause : Cause
  reason : Nat
  detail : Word
  lanes : Option Mask
  addr : DWord
  fetch : Bool
  restart : List Byte
  next : Bool
  deriving DecidableEq, Repr

/-- Why an instruction does not issue in this turn. -/
inductive Stop where
  /-- It raises a trap (10 R253). -/
  | trap (t : Trap)
  /-- Its slot takes a stalled turn, and what it waits for (02 R49; 09 R219; 12 R293 and elsewhere). -/
  | stall (h : Hold)
  /-- A page is not present and the host is asked for it (11 R277). -/
  | hostPath (page : DWord)
  deriving DecidableEq, Repr

/-- The outcome of an attempt. -/
abbrev Attempt (α : Type) := Except Stop α

/-- What a group's team, or its recovery records, give it (02 R42, R43; 15 R362). -/
structure Attrs where
  ctx : Nat
  launch : Nat
  foot : Nat
  moored : Nat
  strict : Bool
  decode : Nat
  scratchBase : Nat
  scratchBytes : Nat
  berthBase : Nat
  berthCount : Nat
  ringBase : Nat
  ringCount : Nat
  deriving DecidableEq, Repr

/-- The three privileges (10 R250). -/
inductive Privilege where
  | user
  | supervisor
  | system
  deriving DecidableEq, Repr

end Sys2Proof.Machine
end

