-- ==== Sys2Proof/Machine/Groups.lean ====
section
/-! DEFINITION. The named operations over cores, groups, the register file, the barrel and issue. -/

namespace Sys2Proof.Machine

/-! ### Cores, groups, teams, contexts -/

/-- A core; one that is not listed is as cold start leaves it. -/
def State.core (s : State) (c : Nat) : Core := Table.get s.cores Core.cold c

/-- The state with a core set. -/
def State.setCore (s : State) (c : Nat) (k : Core) : State := { s with cores := Table.set s.cores c k }

/-- The state with a core changed. -/
def State.modCore (s : State) (c : Nat) (f : Core → Core) : State := s.setCore c (f (s.core c))

/-- A context (11 R268). -/
def State.context (s : State) (n : Nat) : Context := Table.get s.contexts Context.cold n

/-- The state with a context changed. -/
def State.modContext (s : State) (n : Nat) (f : Context → Context) : State :=
  { s with contexts := Table.set s.contexts n (f (s.context n)) }

/-- A group with nothing in it, at placement's values (02 R39, 17 R395). -/
def Group.blank : Group :=
  { kind := .general, team := 0, number := 0, status := .running, pc := 0, ir := [], em := BitVec.allOnes 32
    preds := List.replicate 7 0, s := List.replicate 64 0, k := List.replicate 16 0, v := [], poison := []
    inflight := [], copies := [], history := [], cache := List.replicate 8 none, outstanding := [], landed := [], predicted := [], run := 0
    stall := 0, hold := .none, asked := 0, paid := 0, owed := 0, holdUntil := 0, locks := [], cacheLocks := [], fpst := Lanes.zero
    nonUniform := false, sp := 0, limit := 0, spWrites := [], privateBase := 0, stack := [], held := []
    dirty := [], backed := [], missing := [], stackPoison := [], sup := false, cause := 0
    checkpoint := false, arrivals := [], call := none, recovery := none, halt := none, skidLeft := none, skid := 0
    stepping := false, resumeWait := none, waitMarks := [], waitNU := false }

/-- A resident group, if the slot holds one. -/
def State.group? (s : State) (r : GroupRef) : Option Group := Table.find (s.core r.core).groups r.slot

/-- A group; an empty slot reads as a blank group. -/
def State.group (s : State) (r : GroupRef) : Group := (s.group? r).getD Group.blank

/-- The state with a resident group changed; nothing happens at an empty slot. -/
def State.modGroup (s : State) (r : GroupRef) (f : Group → Group) : State :=
  s.modCore r.core (fun k => { k with groups := Table.modify k.groups r.slot f })

/-- The issuing group. -/
def State.self (s : State) : Group := s.group s.issuing

/-- The state with the issuing group changed. -/
def State.modSelf (s : State) (f : Group → Group) : State := s.modGroup s.issuing f

/-- The issuing group's core. -/
def State.selfCore (s : State) : Core := s.core s.issuing.core

/-- A resident team. -/
def State.team? (s : State) (t : TeamRef) : Option Team := Table.find (s.core t.core).teams t.team

/-- The state with a resident team changed. -/
def State.modTeam (s : State) (t : TeamRef) (f : Team → Team) : State :=
  s.modCore t.core (fun k => { k with teams := Table.modify k.teams t.team f })

/-- The team of a group, unless it is the Tug or a recovery group. -/
def State.teamOf (s : State) (r : GroupRef) : Option Team :=
  match (s.group r).kind with
  | .general => s.team? ⟨r.core, (s.group r).team⟩
  | _ => none

/-- A number that is no context's: the Tug of a core with no context accesses memory in none (01 R25). -/
def noContext : Nat := 64

/-- The Tug's reservations (02 R43): 24 registers per bank, four berths of its own past the 64 of R16, no scratchpad and
no rings. -/
def tugAttrs (ctx : Nat) : Attrs :=
  { ctx := ctx, launch := 0, foot := 24, moored := 16, strict := false, decode := 9, scratchBase := 0, scratchBytes := 0
    berthBase := 64, berthCount := 4, ringBase := 0, ringCount := 0 }

/-- What a group was given at placement: by its team (02 R42), as a recovery group (15 R362), or as the Tug (R43). -/
def State.attrs (s : State) (r : GroupRef) : Attrs :=
  let g := s.group r
  match s.teamOf r, g.recovery with
  | some t, _ =>
    { ctx := t.ctx, launch := t.launch, foot := t.foot, moored := t.moored, strict := t.strict, decode := t.decode
      scratchBase := t.scratchBase, scratchBytes := t.scratchBytes, berthBase := t.berthBase
      berthCount := t.berthCount, ringBase := t.ringBase, ringCount := t.ringCount }
  | none, some rec =>
    { ctx := rec.ctx, launch := rec.launch, foot := 60, moored := 0, strict := rec.strict, decode := 9, scratchBase := 0
      scratchBytes := 0, berthBase := 0, berthCount := 0, ringBase := 0, ringCount := 0 }
  | none, none => tugAttrs ((s.core r.core).ctx.getD noContext)

/-- The issuing group's attributes. -/
def State.selfAttrs (s : State) : Attrs := s.attrs s.issuing

/-- The privilege of a group (10 R250). -/
def Group.privilege (g : Group) : Privilege :=
  if g.kind = .tug then .system else if g.sup then .supervisor else .user

/-- Does one privilege include another (10 R250)? -/
def Privilege.atLeast (p q : Privilege) : Bool :=
  match p, q with
  | _, .user => true
  | .supervisor, .supervisor => true
  | .system, _ => true
  | _, _ => false

/-- sr.time: nanoseconds since cold start at 3.3 GHz (01 R29, R30). -/
def State.time (s : State) : Nat := s.cycle * 10 / 33

/-- A fresh number for a free value, and the state that has used it (log entry 5). -/
def State.useFresh (s : State) : State := { s with fresh := s.fresh + 1 }

/-- The state with steps added at the end of the agenda (log entry 4). -/
def State.due (s : State) (is : List Instr) : State := { s with agenda := s.agenda ++ is }

/-! ### Registers -/

/-- Window offset of a moored register's storage (01 R23). -/
def mooredOffset (slot m : Nat) : Nat := 0x03000000 + slot * 0x800 + m * 0x80

/-- The 32 lanes of words that memory holds from an address. -/
def Memory.lanes (m : Memory) (a : Nat) : Lanes :=
  (List.range 32).map (fun l => BitVec.ofNat 32 (Memory.readNum m (a + 4 * l) 4))

/-- The memory with 32 lanes of words stored from an address. -/
def Memory.writeLanes (m : Memory) (a : Nat) (x : Lanes) : Memory :=
  (List.range 32).foldl (fun m l => Memory.writeNum m (a + 4 * l) 4 (x.at' l).toNat) m

/-- `new` in the lanes of a mask and `old` in the others. -/
def Lanes.merge (mask : Mask) (new old : Lanes) : Lanes :=
  Lanes.ofFn (fun l => if mask.lane l then new.at' l else old.at' l)

/-- What a register of a group holds in the file (07 R162, R172): a free renamed register holds 0 (R163, R168). -/
def State.readReg (s : State) (r : GroupRef) (reg : Reg) : Lanes :=
  let g := s.group r
  match reg with
  | .v n =>
    if n < 240 then
      match Table.find g.v n with
      | some x => x.vals
      | none => Lanes.zero
    else Memory.lanes (s.core r.core).win (mooredOffset r.slot (n - 240))
  | .s n => Lanes.splat (g.s.getD n 0)
  | .k n => Lanes.splat (g.k.getD n 0)

/-- Writes lanes of a register's storage at once: the file write of R163 or a return (R165). A freed renamed register
takes nothing (R168). A uniform register takes the value of the lowest lane written, also from a per-lane cross-lane result under U = 1
(07 R184; DESIGN CHOICE, log entry 90). A per-lane write that lands in a register which a later instruction has made compressed puts its
lanes there, and the register stays compressed (07 R174; DESIGN CHOICE, log entry 91). -/
def State.writeReg (s : State) (r : GroupRef) (reg : Reg) (mask : Mask) (vals : Lanes) : State :=
  match reg with
  | .v n =>
    if n < 240 then
      s.modGroup r (fun g =>
        { g with v := Table.modify g.v n (fun x => { x with vals := Lanes.merge mask vals x.vals }) })
    else
      s.modCore r.core (fun k =>
        let a := mooredOffset r.slot (n - 240)
        { k with win := Memory.writeLanes k.win a (Lanes.merge mask vals (Memory.lanes k.win a)) })
  | .s n => s.modGroup r (fun g => { g with s := g.s.set n (vals.at' (mask.lowest.getD 0)) })
  | .k n => s.modGroup r (fun g => { g with k := g.k.set n (vals.at' (mask.lowest.getD 0)) })

/-- Does a write cover the whole register, so that its poison ends (09 R221)? -/
def wholeWrite (reg : Reg) (mask : Mask) : Bool :=
  match reg with
  | .v _ => mask = BitVec.allOnes 32
  | _ => true

/-- One file write landed (07 R163), and with a whole write the end of the register's poison (09 R221). -/
def State.land (s : State) (r : GroupRef) (w : FileWrite) : State :=
  (s.writeReg r w.reg w.mask w.vals).modGroup r (fun g =>
    if wholeWrite w.reg w.mask then { g with poison := g.poison.filter (· ≠ w.reg) } else g)

/-- One operand-cache copy landed (07 R161): an invalid entry's inactive lanes take 0. -/
def Group.landCopy (g : Group) (w : CacheWrite) : Group :=
  let old := (g.cache.getD w.entry none).getD Lanes.zero
  { g with cache := g.cache.set w.entry (some (Lanes.merge w.mask w.vals old)) }

/-- Is a register moored (07 R172)? -/
def Reg.isMoored (reg : Reg) : Bool :=
  match reg with
  | .v n => 240 ≤ n
  | _ => false

/-- The moored registers of a group as a cycle ends: a write is at its window location in its file-write cycle (07 R172). -/
def State.settleMoored (s : State) (r : GroupRef) : State :=
  let ready (w : FileWrite) : Bool := w.reg.isMoored && w.due ≤ s.cycle
  let mine := (s.group r).inflight.filter ready
  if mine = [] then s
  else (mine.foldl (fun s w => s.land r w) s).modGroup r (fun g =>
    { g with inflight := g.inflight.filter (fun w => !ready w) })

/-- The group with every file write, cache copy and SP write performed whose cycle is before `now`: a read in cycle
t + 4L or earlier finds the value before (07 R161, R163; 09 R234). A cache copy is there from cycle t + 4L on (R161). -/
def State.settle (s : State) (r : GroupRef) : State :=
  let g := s.group r
  let landed := g.inflight.filter (fun w => w.due < s.cycle)
  let copies := g.copies.filter (fun w => w.due ≤ s.cycle)
  let sps := g.spWrites.filter (fun w => w.1 < s.cycle)
  let s := landed.foldl (fun s w => s.land r w) s
  s.modGroup r (fun g =>
    let g := copies.foldl Group.landCopy g
    { g with
      inflight := g.inflight.filter (fun w => ¬ w.due < s.cycle)
      copies := g.copies.filter (fun w => ¬ w.due ≤ s.cycle)
      sp := sps.foldl (fun _ w => w.2) g.sp
      spWrites := g.spWrites.filter (fun w => ¬ w.1 < s.cycle) })

/-- What a register holds once the writes in flight to it have landed. -/
def State.finalReg (s : State) (r : GroupRef) (reg : Reg) : Lanes :=
  (s.group r).inflight.foldl (fun x w => if w.reg = reg then Lanes.merge w.mask w.vals x else x) (s.readReg r reg)

/-- The group without what its writes in flight would put into some lanes of a register: a later write is performed there
first, which comes after them (07 R165). -/
def Group.overtake (g : Group) (reg : Reg) (mask : Mask) : Group :=
  { g with
    inflight := (g.inflight.map (fun w => if w.reg = reg then { w with mask := w.mask &&& ~~~mask } else w)).filter
      (fun w => w.mask ≠ 0) }

/-- The group with every write in flight performed, whatever its cycle (07 R178; 10 R257; 02 R54). -/
def State.settleAll (s : State) (r : GroupRef) : State :=
  let g := s.group r
  let s := g.inflight.foldl (fun s w => s.land r w) s
  s.modGroup r (fun g' =>
    let g' := g.copies.foldl Group.landCopy g'
    { g' with inflight := [], copies := [], sp := g.spWrites.foldl (fun _ w => w.2) g'.sp, spWrites := [] })

/-- The cycle after which no write of the group is in flight. -/
def Group.lastDue (g : Group) : Nat :=
  (g.inflight.map (·.due) ++ g.spWrites.map (·.1)).foldl max 0

/-- Does a register's pending bit hold an instruction back: it is set (07 R177), or it has cleared in this cycle (02
R49)? -/
def Group.isPending (g : Group) (reg : Reg) : Bool :=
  g.outstanding.any (fun o => o.regs.any (fun x => x.1 = reg)) || g.landed.contains reg

/-- Frees a renamed register (07 R168): its writes in flight are discarded. -/
def Group.free (g : Group) (n : Nat) : Group :=
  { g with
    v := Table.erase g.v n
    poison := g.poison.filter (· ≠ .v n)
    inflight := g.inflight.filter (fun w => w.reg ≠ .v n) }

/-- Physical registers held in a bank (07 R171): renamed registers that are not compressed. -/
def Group.heldInBank (g : Group) (bank : Nat) : Nat :=
  (g.v.filter (fun e => e.1 % 4 = bank && !e.2.compressed)).length

/-- sr.foot (07 R171; 04 R101). -/
def State.footValue (s : State) (r : GroupRef) : Word :=
  let g := s.group r
  let a := s.attrs r
  let held (b : Nat) : Nat := if a.decode = 9 then g.heldInBank b else a.foot
  BitVec.ofNat 32 (a.foot * 2 ^ 24 + held 3 * 2 ^ 18 + held 2 * 2 ^ 12 + held 1 * 2 ^ 6 + held 0)

/-- Prepares a register for a per-lane write at issue (07 R168, R174): an unwritten register is allocated with 0 in every
lane, and a compressed one takes a physical register, every lane holding the compressed value. -/
def Group.allocate (g : Group) (reg : Reg) : Group :=
  match reg with
  | .v n =>
    if n < 240 then
      match Table.find g.v n with
      | some x => { g with v := Table.set g.v n { x with compressed := false } }
      | none => { g with v := Table.set g.v n ⟨Lanes.zero, false⟩ }
    else g
  | _ => g

/-- Prepares a register for a uniform write at issue (07 R168, R174): it becomes compressed. -/
def Group.compress (g : Group) (reg : Reg) : Group :=
  match reg with
  | .v n =>
    if n < 240 then
      match Table.find g.v n with
      | some x => { g with v := Table.set g.v n { x with compressed := true } }
      | none => { g with v := Table.set g.v n ⟨Lanes.zero, true⟩ }
    else g
  | _ => g

/-- How many physical registers a per-lane write of these registers takes in a bank (07 R168, R170). -/
def Group.wouldTake (g : Group) (regs : List Reg) (bank : Nat) : Nat :=
  (regs.filter (fun reg =>
    match reg with
    | .v n =>
      n < 240 && n % 4 = bank &&
        (match Table.find g.v n with
         | some x => x.compressed
         | none => true)
    | _ => false)).length

/-- Would a per-lane write of these registers pass the footprint P in some bank (07 R170)? -/
def Group.passesFoot (g : Group) (foot : Nat) (regs : List Reg) : Bool :=
  (List.range 4).any (fun b =>
    let need := g.wouldTake regs b
    need ≠ 0 && foot < g.heldInBank b + need)

/-! ### Runs, the barrel and the ready queue -/

/-- Inserts a group into a ready queue (02 R48): by the cycle from which it is ready, then by group slot. -/
def insertReady (q : List (Nat × Nat)) (e : Nat × Nat) : List (Nat × Nat) :=
  match q with
  | [] => [e]
  | x :: rest => if e.1 < x.1 || (e.1 = x.1 && e.2 < x.2) then e :: x :: rest else x :: insertReady rest e

/-- The group joins its sub-core's ready queue, ready from a cycle on (02 R48). -/
def State.joinReady (s : State) (r : GroupRef) (from_ : Nat) : State :=
  s.modCore r.core (fun k =>
    { k with ready := k.ready.modify (r.slot / 16) (fun q => insertReady q (from_, r.slot)) })

/-- Takes a group out of its barrel slot and out of the ready queue. -/
def State.leaveBarrel (s : State) (r : GroupRef) : State :=
  s.modCore r.core (fun k =>
    { k with
      barrel := k.barrel.map (fun e => if e = some r.slot then none else e)
      ready := k.ready.map (fun q => q.filter (fun e => e.2 ≠ r.slot)) })

/-- The boundary of a deschedule instruction (02 R46, R47): latches emptied, cache invalid, copies in flight discarded. -/
def Group.dropOperands (g : Group) : Group :=
  { g with history := [], cache := List.replicate 8 none, copies := [], cacheLocks := [] }

/-- The issuing group's deschedule instruction has issued without blocking, and its run goes on (02 R47). -/
def State.dropSelf (s : State) : State := s.modSelf Group.dropOperands

/-- The run of a group ends, and it is ready from the next cycle (02 R46, R48). -/
def State.endRunReady (s : State) (r : GroupRef) : State :=
  ((s.modGroup r (fun g => { g with run := 0, history := [], status := .running })).leaveBarrel r).joinReady r (s.cycle + 1)

/-- The run of a group ends and the group waits (02 R47). -/
def State.endRunWait (s : State) (r : GroupRef) (w : Wait) : State :=
  (s.modGroup r (fun g => { g with run := 0, history := [], status := .waiting w })).leaveBarrel r

/-- A waiting, swapped-out or held group becomes ready from the next cycle (02 R47-R49). -/
def State.wake (s : State) (r : GroupRef) : State :=
  (s.modGroup r (fun g => { g with status := .running, hold := .none, stall := 0 })).joinReady r (s.cycle + 1)

/-- A swapped-out group whose request an engine may take becomes ready from the next cycle. Its request keeps its age until the
instruction issues (02 R51). -/
def State.wakeAsking (s : State) (r : GroupRef) : State :=
  (s.modGroup r (fun g => { g with status := .running, stall := 0 })).joinReady r (s.cycle + 1)

/-! ### Issue -/

/-- The address after the instruction being issued (03 R62). -/
def Group.nextPc (g : Group) : DWord := g.pc + BitVec.ofNat 64 (4 * g.ir.length)

/-- Bits [1:0] of a target cleared (03 R63). -/
def alignTarget (a : DWord) : DWord := a &&& ~~~3#64

/-- The instruction has issued (02 R46; 07 R159): it counts toward the run, the latches shift, and the PC moves on. -/
def Group.issued (g : Group) (pc : DWord) (result : Option (Nat × Lanes)) : Group :=
  { g with
    pc := pc, run := g.run + 1, history := (result :: g.history).take 3, paid := 0, stall := 0, hold := .none
    resumeWait := none
    skid := (match g.skidLeft with | some _ => g.skid + 1 | none => g.skid)
    skidLeft := g.skidLeft.map (· - 1) }

/-- The issuing group's instruction has issued without a result, and goes on after it. -/
def State.done (s : State) : State := s.modSelf (fun g => g.issued g.nextPc none)

/-- As `done`, to another address. -/
def State.doneAt (s : State) (pc : DWord) : State := s.modSelf (fun g => g.issued (alignTarget pc) none)

end Sys2Proof.Machine
end

