-- ==== Sys2Proof/Machine/Translation.lean ====
section
/-! DEFINITION. The translation engine: walks, TLBs and the outcome of an address (11). -/

namespace Sys2Proof.Machine

/-- Bits [hi:lo] of a number. -/
def bits (x hi lo : Nat) : Nat := x / 2 ^ lo % 2 ^ (hi + 1 - lo)

/-- What an access does (R267). -/
inductive AccessKind where
  | read
  | write
  | atomic
  | fetch
  deriving DecidableEq, Repr

/-- Does the access write? -/
def AccessKind.writes (k : AccessKind) : Bool :=
  match k with
  | .write | .atomic => true
  | _ => false

/-- Where a translated access goes (01 R22, 11 R270, 19 R432): device physical memory, the host-shared half, or another
module. -/
inductive Target where
  | device (pa : Nat)
  | host (func : Nat) (va : Nat)
  | remote (va : Nat)
  deriving DecidableEq, Repr

/-- A translated address (R266 order 5). -/
structure Mapped where
  target : Target
  ord : Nat
  deriving DecidableEq, Repr

/-- Why an address has no translation. -/
inductive Miss where
  /-- No valid entry (R266 order 1). -/
  | notPresent
  /-- No ATS completion has come yet (R270). -/
  | atsPending
  /-- The ATS completion granted no access (R270). -/
  | atsDenied
  /-- A cause of R220 orders 1 and 2, or of R432. -/
  | cause (c : Cause)
  deriving DecidableEq, Repr

/-! ### Walks -/

/-- Where a walk ended (R266): the level and the address of the last entry read, and the entry. -/
structure WalkEnd where
  level : Nat
  at_ : Nat
  entry : Nat
  deriving DecidableEq, Repr

/-- Is the entry malformed where the walk ended (R266 order 2)? -/
def WalkEnd.malformed (w : WalkEnd) : Bool :=
  let e := w.entry
  if e.testBit 1 then
    w.level = 3 || bits e 63 48 ≠ 0 || bits e 15 14 ≠ 0 || (e.testBit 3 && e.testBit 4) || bits e 13 10 > 4
      || (w.level = 1 && bits e 25 16 ≠ 0) || (w.level = 2 && bits e 35 16 ≠ 0)
  else w.level = 0 || bits e 63 48 ≠ 0 || bits e 12 2 ≠ 0

/-- A non-leaf entry above level 0 that a walk passed may itself be malformed (R266 order 2): the walk ends there. -/
def badTable (e : Nat) : Bool := bits e 63 48 ≠ 0 || bits e 12 2 ≠ 0

/-- The walk that ends at the first entry with V = 0 or LEAF = 1, or at a malformed non-leaf entry (R266). -/
def walkChecked (mem : Memory) (va : Nat) : Nat → Nat → WalkEnd
  | 0, table =>
    let a := table + 8 * bits va 25 16
    ⟨0, a, Memory.readNum mem a 8⟩
  | n + 1, table =>
    let a := table + 8 * bits va (35 + 10 * n) (26 + 10 * n)
    let e := Memory.readNum mem a 8
    if e.testBit 0 && !e.testBit 1 && !badTable e then walkChecked mem va n (bits e 47 13 * 2 ^ 13) else ⟨n + 1, a, e⟩

/-- How a walk ends for the translation (R266 orders 1 to 3). -/
inductive WalkResult where
  | notPresent
  | malformed
  | badOrd
  | leaf
  deriving DecidableEq, Repr

/-- The result of a walk. -/
def WalkEnd.result (w : WalkEnd) : WalkResult :=
  if !w.entry.testBit 0 then .notPresent
  else if w.malformed then .malformed
  else if bits w.entry 9 8 = 3 then .badOrd
  else .leaf

/-- The size of a page at a level, as a power of two (R264). -/
def pageBits (level : Nat) : Nat := 16 + 10 * level

/-- The physical address that a leaf gives a virtual address (R264). -/
def WalkEnd.pa (w : WalkEnd) (va : Nat) : Nat :=
  bits w.entry 47 16 * 2 ^ 16 + va % 2 ^ pageBits w.level

/-- The permissions of a leaf (R267): R, W, X and USER against what the access needs. -/
def permits (r w x user : Bool) (k : AccessKind) (asUser : Bool) : Bool :=
  (!asUser || user) &&
    match k with
    | .read => r
    | .write => w
    | .atomic => r && w
    | .fetch => x

/-- The permissions of an entry. -/
def entryPermits (e : Nat) (k : AccessKind) (asUser : Bool) : Bool :=
  permits (e.testBit 2) (e.testBit 3) (e.testBit 4) (e.testBit 5) k asUser

/-! ### TLBs -/

/-- The page number of an address at a level. -/
def pageNumber (level va : Nat) : Nat := va % 2 ^ 56 / 2 ^ pageBits level

/-- The frame that a TLB entry gives an address, if it covers it. -/
def TlbEntry.frame (t : TlbEntry) (ctx va : Nat) : Option Nat :=
  if t.ctx = ctx then Table.find t.pages (pageNumber t.level va) else none

/-- The first entry of a TLB that covers an address. -/
def tlbFind (tlb : List TlbEntry) (ctx va : Nat) : Option TlbEntry :=
  tlb.find? (fun t => (t.frame ctx va).isSome)

/-- The pages that the entry of a level-0 leaf covers (R272): those of the run that CONT asserts whose entries in the
line of 16 agree with the leaf. -/
def coalesced (mem : Memory) (w : WalkEnd) (va : Nat) : List (Nat × Nat) :=
  let e := w.entry
  let own := (pageNumber w.level va, bits e 47 16 * 2 ^ 16)
  let c := bits e 13 10
  if w.level = 0 && c ≠ 0 then
    let n := 2 ^ c
    let page := pageNumber 0 va
    let first := page / n * n
    let base := bits e 47 16 - (page - first)
    if bits e 47 16 < page - first || base % n ≠ 0 then [own]
    else
      (List.range n).filterMap (fun i =>
        let a := w.at_ / 128 * 128 + 8 * ((first + i) % 16)
        let f := Memory.readNum mem a 8
        if f.testBit 0 && f.testBit 1 && bits f 63 48 = 0 && bits f 15 14 = 0 && bits f 13 8 = bits e 13 8
            && bits f 5 2 = bits e 5 2 && bits f 47 16 = base + i then some (first + i, (base + i) * 2 ^ 16)
        else none)
  else [own]

/-- The TLB entry that a walk installs (R271, R272). Its dirty pages are those whose leaf has D = 1. -/
def tlbEntryOf (mem : Memory) (ctx : Nat) (w : WalkEnd) (va : Nat) : TlbEntry :=
  let e := w.entry
  let pages := coalesced mem w va
  { ctx := ctx, level := w.level, pages := pages
    dirty := (pages.map (·.1)).filter (fun p =>
      (if w.level = 0 then Memory.readNum mem (w.at_ / 128 * 128 + 8 * (p % 16)) 8 else e).testBit 7)
    r := e.testBit 2, w := e.testBit 3, x := e.testBit 4, user := e.testBit 5, ord := bits e 9 8, cont := bits e 13 10 }

/-- The die of a core (01 R7, R8). -/
def dieOf (core : Nat) : Nat := core / 48

/-- The state with an entry installed in the core's first-level TLB and its die's last-level TLB, whose 12,288 newest
entries it keeps (R271; the replacement policy is not architectural). -/
def State.installTlb (s : State) (core : Nat) (t : TlbEntry) : State :=
  let s := s.modCore core (fun k => { k with tlb := t :: k.tlb })
  let d := dieOf core
  { s with dieTlb := Table.set s.dieTlb d ((t :: Table.get s.dieTlb [] d).take 12288) }

/-- Sets a bit of the entry at an address by a compare-exchange (R275). -/
def State.setEntryBit (s : State) (a bit : Nat) : State :=
  let e := Memory.readNum s.mem a 8
  if e.testBit bit then s else { s with mem := Memory.writeNum s.mem a 8 (e + 2 ^ bit) }

/-- Drops the entries of a context that cover a byte of the virtual range [lo, hi) from a TLB; a coalesced entry is
dropped whole (R278). -/
def dropRange (ctx lo hi : Nat) (tlb : List TlbEntry) : List TlbEntry :=
  tlb.filter (fun t =>
    !(t.ctx = ctx && t.pages.any (fun p =>
      let a := 0xFF00000000000000 + p.1 * 2 ^ pageBits t.level
      a < hi && lo < a + 2 ^ pageBits t.level)))

/-- Step 1 of R278: the entries are dropped from every TLB, and the ATS results in the range with them (R270). -/
def State.dropTlbs (s : State) (ctx lo hi : Nat) : State :=
  { s with
    contexts := Table.modify s.contexts ctx (fun c =>
      { c with ats := c.ats.filter (fun e => !(e.page.toNat < hi && lo < e.page.toNat + 0x1000)) })
    cores := s.cores.map (fun e => (e.1, { e.2 with tlb := dropRange ctx lo hi e.2.tlb }))
    dieTlb := s.dieTlb.map (fun e => (e.1, dropRange ctx lo hi e.2)) }

/-! ### Remote ranges (19 R431) -/

/-- The remote range of a context that an address falls in: the lowest-numbered enabled entry. -/
def Context.remoteOf (c : Context) (va : Nat) : Option (DWord × DWord) :=
  ((List.range 16).map (fun e => Table.get c.remote (0, 0) e)).find? (fun e =>
    let base := bits e.1.toNat 55 36
    let n := bits e.1.toNat 35 16
    let g := va % 2 ^ 56 / 2 ^ 36
    n ≠ 0 && base ≤ g && g < base + n)

/-- Has a remote range a usable link: an UP link of LINKS whose peer is CHIP, which is another module (R432)? -/
def State.linkFor (s : State) (e : DWord × DWord) : Bool :=
  let chip := bits e.1.toNat 15 0
  chip ≠ s.links.modId.toNat &&
    (List.range 18).any (fun n =>
      e.2.toNat.testBit n && s.links.up.getD n false && (s.links.peer.getD n 0).toNat = chip)

/-- The outcome of an access in a remote range (19 R432): without a usable link PHYS_HOLE, and otherwise what the target's own
translation and checks answer, and the ORD of its page, which are the other module's and free values (log entry 5). -/
def State.remoteOutcome (s : State) (e : DWord × DWord) (va : DWord) : Except Miss Mapped :=
  if !s.linkFor e then .error (.cause .physHole)
  else
    let n := Config.remoteWalk s.fresh s.cycle va.toNat
    match n % 8 with
    | 0 => .error .notPresent
    | 1 => .error (.cause .pagePermission)
    | 2 => .error (.cause .pageOrd)
    | 3 => .error (.cause .windowContext)
    | 4 => .error (.cause .windowPriv)
    | 5 => .error (.cause .physHole)
    | _ => .ok ⟨.remote va.toNat, n / 8 % 3⟩

/-! ### Translation -/

/-- The page of an address for the host path (R277) and for ATS (R270): 64 KiB in the device half, and 4 KiB, the PCIe
granule, in the host-shared half (PRESUMED, log entry 12). -/
def pageOf (va : DWord) : DWord := if va.msb then va &&& ~~~0xFFFF#64 else va &&& ~~~0xFFF#64

/-- Translation of a device-half address by a walk, which installs what it finds (R266, R271, R275). -/
def State.translateByWalk (s : State) (core ctx : Nat) (k : AccessKind) (asUser : Bool) (va : Nat) :
    State × Except Miss Mapped :=
  let w := walkChecked s.mem va 3 (s.context ctx).root
  match w.result with
  | .notPresent => (s, .error .notPresent)
  | .malformed => (s, .error (.cause .pagePermission))
  | .badOrd => (s, .error (.cause .pageOrd))
  | .leaf =>
    if entryPermits w.entry k asUser then
      ((s.setEntryBit w.at_ 6).installTlb core (tlbEntryOf s.mem ctx w va),
        .ok ⟨.device (w.pa va), bits w.entry 9 8⟩)
    else (s, .error (.cause .pagePermission))

/-- May a write use a held translation, or does the compare-exchange that sets D find the leaf changed, so that the walk
restarts from the root (R275, R279)? -/
def State.leafAgrees (s : State) (ctx : Nat) (t : TlbEntry) (va frame : Nat) : Bool :=
  let w := walkChecked s.mem va 3 (s.context ctx).root
  let e := w.entry
  w.result = .leaf && w.level = t.level && bits e 47 16 * 2 ^ 16 = frame && e.testBit 2 = t.r && e.testBit 3 = t.w
    && e.testBit 4 = t.x && e.testBit 5 = t.user && bits e 9 8 = t.ord && bits e 13 10 = t.cont

/-- The translation of a host-shared address (R270), under the function that granted it (R268). While a page request for it is
under way, every access waits for that; a completion without access is never held (R271). -/
def Context.hostTranslation (c : Context) (k : AccessKind) (va : DWord) : Except Miss Mapped :=
  match c.ats.find? (fun e => e.page = pageOf va) with
  | some e =>
    if permits e.r e.w false true k true then .ok ⟨.host e.func va.toNat, 1⟩ else .error (.cause .pagePermission)
  | none => .error (if c.hostRequests.any (fun h => h.page = pageOf va) then .atsDenied else .atsPending)

/-- Is a byte in the area of a live launch, which user privilege may not write (17 R387)? -/
def State.inArea (s : State) (ctx : Nat) (va : DWord) : Bool :=
  s.front.launches.any (fun e =>
    e.2.ctx = ctx && e.2.area.toNat ≤ va.toNat && va.toNat < e.2.area.toNat + e.2.areaSize)

/-- The front end's mapping of a live launch's area, which user privilege may read (17 R387; 18 R420): the physical address of a
byte of it. -/
def State.areaTarget (s : State) (ctx : Nat) (va : DWord) : Option Nat :=
  s.front.launches.findSome? (fun e =>
    if !e.2.lost && e.2.ctx = ctx && e.2.area.toNat ≤ va.toNat && va.toNat < e.2.area.toNat + e.2.areaSize then
      (e.2.frames[va.toNat / 0x10000 - e.2.area.toNat / 0x10000]?).map (fun p => p + va.toNat % 0x10000)
    else none)

/-- As `areaTarget`, for the accesses that the mapping is for: reads of user privilege. -/
def State.areaRead (s : State) (ctx : Nat) (k : AccessKind) (asUser : Bool) (va : DWord) : Option Nat :=
  if k = .read && asUser then s.areaTarget ctx va else none

/-- The translation of a virtual address for a core's access in a context  (R135, R266-R273, R431, R432). Without a
context nothing is present (DEDUCED, log entry 75). -/
def State.translate (s : State) (core ctx : Nat) (k : AccessKind) (asUser : Bool) (va : DWord) :
    State × Except Miss Mapped :=
  if 64 ≤ ctx then (s, .error .notPresent)
  else if !va.msb then
    if k = .fetch then (s, .error (.cause .hostPage)) else (s, (s.context ctx).hostTranslation k va)
  else if bits va.toNat 63 56 ≠ 0xFF then (s, .error (.cause .nonCanonical))
  else
    match (s.context ctx).remoteOf va.toNat with
    | some e => (s.useFresh, s.remoteOutcome e va)
    | none =>
      if let some pa := s.areaRead ctx k asUser va then (s, .ok ⟨.device pa, 1⟩) else
      let v := va.toNat % 2 ^ 56
      match tlbFind ((s.core core).tlb ++ Table.get s.dieTlb [] (dieOf core)) ctx v with
      | none => s.translateByWalk core ctx k asUser v
      | some t =>
        let frame := (t.frame ctx v).getD 0
        if !permits t.r t.w t.x t.user k asUser then (s, .error (.cause .pagePermission))
        else if k.writes && !(t.dirty.contains (pageNumber t.level v)) && !s.leafAgrees ctx t v frame then
          (s.dropTlbs ctx va.toNat (va.toNat + 1)).translateByWalk core ctx k asUser v
        else (s, .ok ⟨.device (frame + v % 2 ^ pageBits t.level), t.ord⟩)

/-- Sets D for a write that is to be performed here, in the leaf that it uses and in the TLBs that hold that leaf's translation
(R275). -/
def State.markDirtyHere (s : State) (ctx : Nat) (va : DWord) : State :=
  if bits va.toNat 63 56 ≠ 0xFF then s
  else
    let v := va.toNat % 2 ^ 56
    let w := walkChecked s.mem v 3 (s.context ctx).root
    if w.result = .leaf then
      let mark (t : TlbEntry) : TlbEntry :=
        let p := pageNumber t.level v
        if t.level = w.level && t.frame ctx v = some (bits w.entry 47 16 * 2 ^ 16) && !t.dirty.contains p then
          { t with dirty := p :: t.dirty }
        else t
      let s := s.setEntryBit w.at_ 7
      { s with
        cores := s.cores.map (fun e => (e.1, { e.2 with tlb := e.2.tlb.map mark }))
        dieTlb := s.dieTlb.map (fun e => (e.1, e.2.map mark)) }
    else s

/-- As `markDirtyHere`, for an address that may lie in another module. -/
def State.markDirty (s : State) (ctx : Nat) (va : DWord) : State :=
  if ((s.context ctx).remoteOf va.toNat).isSome then s else s.markDirtyHere ctx va

/-- As `markDirty`, for a write of a core, which uses the translation that its TLBs hold: one whose D was 1 leaves every leaf as
it is, even where software has changed the leaf since (R275, R279). -/
def State.markDirtyBy (s : State) (core ctx : Nat) (va : DWord) : State :=
  let v := va.toNat % 2 ^ 56
  match tlbFind ((s.core core).tlb ++ Table.get s.dieTlb [] (dieOf core)) ctx v with
  | some t => if t.dirty.contains (pageNumber t.level v) then s else s.markDirty ctx va
  | none => s.markDirty ctx va

/-- The translation of an access that no core makes, or of the trap vector: a walk of its own that installs nothing. `here` leaves
the remote ranges aside. -/
def State.translateAt (s : State) (here : Bool) (ctx : Nat) (k : AccessKind) (asUser : Bool) (va : DWord) :
    Except Miss Mapped :=
  if !va.msb then (s.context ctx).hostTranslation k va
  else if bits va.toNat 63 56 ≠ 0xFF then .error (.cause .nonCanonical)
  else
    match if here then none else (s.context ctx).remoteOf va.toNat with
    | some e => s.remoteOutcome e va
    | none =>
      if let some pa := s.areaRead ctx k asUser va then .ok ⟨.device pa, 1⟩ else
      let v := va.toNat % 2 ^ 56
      let w := walkChecked s.mem v 3 (s.context ctx).root
      match w.result with
      | .notPresent => .error .notPresent
      | .malformed => .error (.cause .pagePermission)
      | .badOrd => .error (.cause .pageOrd)
      | .leaf =>
        if entryPermits w.entry k asUser then .ok ⟨.device (w.pa v), bits w.entry 9 8⟩
        else .error (.cause .pagePermission)

/-- The translation of an access of this module's own parties other than the cores. -/
def State.translatePlain (s : State) (ctx : Nat) (k : AccessKind) (asUser : Bool) (va : DWord) : Except Miss Mapped :=
  s.translateAt false ctx k asUser va

end Sys2Proof.Machine
end

