-- ==== Sys2Proof/Machine/Physical.lean ====
section
/-! DEFINITION. The device physical map, its storage, and the writes that other parties watch (01 R22-R28, 06). -/

namespace Sys2Proof.Machine

/-! ### The map (01 R22, R23) -/

/-- The storage regions of an on-chip window. -/
inductive Region where
  | scratchpad
  | bStore
  | accumulators
  | moored
  | drain
  | surrogate
  deriving DecidableEq, Repr

/-- The region of a window offset; every other offset is a hole (R23). -/
def regionOf (off : Nat) : Option Region :=
  if off < 0x180000 then some .scratchpad
  else if 0x01000000 ≤ off && off < 0x01400000 then some .bStore
  else if 0x02000000 ≤ off && off < 0x02008000 then some .accumulators
  else if 0x03000000 ≤ off && off < 0x03020000 then some .moored
  else if (0x04000000 ≤ off && off < 0x04000800) || (0x04001000 ≤ off && off < 0x04002000)
      || (0x04002000 ≤ off && off < 0x04002400) || (0x04003000 ≤ off && off < 0x04003800) then some .drain
  else if 0x05000000 ≤ off && off < 0x05040000 then some .surrogate
  else none

/-- What a device physical address names. -/
inductive Place where
  | mem (pa : Nat)
  | window (core off : Nat) (r : Region)
  | control (off : Nat)
  | hole
  deriving DecidableEq, Repr

/-- What a device physical address names (R22, R23). -/
def placeOf (pa : Nat) : Place :=
  if pa < 0x008000000000 then .mem pa
  else if pa < 0x010000000000 then .hole
  else if pa < 0x020000000000 then .mem pa
  else if pa < 0x080000000000 then .hole
  else if pa < 0x0F0000000000 then .mem pa
  else if pa < 0x0F1800000000 then
    let core := (pa - 0x0F0000000000) / 0x10000000
    let off := (pa - 0x0F0000000000) % 0x10000000
    match regionOf off with
    | some r => .window core off r
    | none => .hole
  else if pa < 0x0FF000000000 then .hole
  else if pa < 0x100000000000 then .control (pa - 0x0FF000000000)
  else .hole

/-- The physical address of a window offset (R22). -/
def windowBase (core : Nat) : Nat := 0x0F0000000000 + core * 0x10000000

/-- The vertical partner of a core (R8). -/
def partnerOf (core : Nat) : Nat := if core % 96 < 48 then core + 48 else core - 48

/-- Is the core on the upper die (R8)? -/
def isUpper (core : Nat) : Bool := 48 ≤ core % 96

/-- The gate state of a core: that of the register of the lower core below it (16 R383). -/
def State.gateOf (s : State) (core : Nat) : GateState :=
  if isUpper core then (s.core (partnerOf core)).gate else .on

/-- Is the core without power or waking (16 R384)? -/
def State.isGated (s : State) (core : Nat) : Bool :=
  match s.gateOf core with
  | .gated | .waking => true
  | _ => false

/-! ### Plain storage -/

/-- A field of a byte list, little-endian. -/
def numAt (bs : List Byte) (off n : Nat) : Nat := numOfBytes ((bs.drop off).take n)

/-- A window's bytes; bytes 48-63 of a drain program slot read as 0 and take nothing (14 R328). -/
def drainReserved (off : Nat) : Bool := 0x04000000 ≤ off && off < 0x04000800 && 48 ≤ off % 64

/-- Reads bytes of a core's window storage as a number. -/
def Core.readWin (k : Core) (off n : Nat) : Nat := Memory.readNum k.win off n

/-- Is a window offset a byte of the surrogate store that no image holds: it reads as 0 whatever is written (15 R352)? -/
def Core.unheldStore (k : Core) (off : Nat) : Bool :=
  0x05000000 ≤ off && off < 0x05040000 &&
    !k.surrogate.resident.any (fun e => 0x05000000 + e.2.1 ≤ off && off < 0x05000000 + e.2.1 + e.2.2)

/-- Writes bytes of a core's window storage. -/
def Core.writeWin (k : Core) (off : Nat) (bs : List Byte) : Core :=
  { k with
    win := ((List.range bs.length).zip bs).foldl
      (fun m ib =>
        if drainReserved (off + ib.1) || k.unheldStore (off + ib.1) then m else Memory.write m (off + ib.1) ib.2) k.win }

/-- The host-shared half as a function sees it. -/
def State.hostMemOf (s : State) (func : Nat) : Memory := Table.get s.hostMem [] func

/-- Writes bytes of the host-shared half. -/
def State.writeHost (s : State) (func a : Nat) (bs : List Byte) : State :=
  { s with hostMem := Table.set s.hostMem func (Memory.writeBytes (s.hostMemOf func) a bs) }

/-! ### Writes to device memory and who watches them -/

/-- A waiting group whose condition holds: it goes on after its instruction, ready from the next cycle (02 R47). The end of
a dep.wait is an acquire at dev scope, which drops the core's L1 copies (17 R398; 09 R224). -/
def State.finishWait (s : State) (r : GroupRef) : State :=
  let s := match (s.group r).status with
    | .waiting (.dep _) => s.modCore r.core (fun k => { k with l1 := [] })
    | _ => s
  (s.modGroup r (fun g => { g with pc := g.nextPc })).wake r

/-- The groups of the package that a test picks, in ascending order of core and slot. -/
def State.groupsWhere (s : State) (p : Group → Bool) : List GroupRef :=
  s.cores.flatMap (fun e => e.2.groups.filterMap (fun x => if p x.2 then some ⟨e.1, x.1⟩ else none))

/-- The s64 counter at an address (17 R398): in device memory or in a window. Elsewhere, as in another module, what it
holds in a cycle is a free value (log entry 5). -/
def State.counter (s : State) (pa : Nat) : Int :=
  match placeOf pa with
  | .mem _ => (BitVec.ofNat 64 (Memory.readNum s.mem pa 8)).toInt
  | .window core off _ => (BitVec.ofNat 64 (Memory.readNum (s.core core).win off 8)).toInt
  | _ => (Config.farCounter pa s.cycle).toInt

/-- A write to a dependence counter that leaves it at most 0 wakes every waiter (17 R398). -/
def State.wakeDep (s : State) (cells : List Host.Cell) : State :=
  let hit (g : Group) : Bool :=
    match g.status with
    | .waiting (.dep a) =>
      cells.any (fun c => a.toNat ≤ c.1 && c.1 < a.toNat + 8) && decide (s.counter a.toNat ≤ 0)
    | _ => false
  (s.groupsWhere hit).foldl State.finishWait s

/-- The signal addresses of a BARRIER packet (18 R409). -/
def barrierSignals (bytes : List Byte) : List DWord :=
  (List.range (numAt bytes 2 2 % 8)).map (fun k => BitVec.ofNat 64 (numAt bytes (0x10 + 8 * k) 8))

/-- The physical address of a signal in device memory, if it has one. -/
def State.signalPa (s : State) (ctx : Nat) (va : DWord) : Option Nat :=
  match s.translatePlain ctx .read true va with
  | .ok ⟨.device pa, _⟩ => some pa
  | _ => none

/-- A write to a signal of a started BARRIER packet makes an evaluation due (18 R414). -/
def State.wakeBarriers (s : State) (cells : List Host.Cell) : State :=
  let hit (q : Nat) (f : FrontQueue) : Bool :=
    f.packets.any (fun p =>
      p.progress = .started && numAt p.bytes 0 1 = 2 &&
        (barrierSignals p.bytes).any (fun va =>
          match s.signalPa (Table.get s.front.runList ⟨0, 0, false⟩ q).ctx va with
          | some pa => cells.any (fun c => pa ≤ c.1 && c.1 < pa + 8)
          | none => false))
  let qs := (s.front.queues.filter (fun e => hit e.1 e.2)).map (·.1)
  s.due (qs.map (fun q => Instr.barrierEvaluation (Fin.ofNat 1024 q)))

/-- Writes bytes of device memory at their home slices (06 R147). A write of a whole line ends its poison (20 R454), and
the dependence counters and signals that it meets are tested. -/
def State.writeCells (s : State) (cells : List Host.Cell) : State :=
  let mem := cells.foldl (fun m c => Memory.write m c.1 c.2) s.mem
  let whole (line : Nat) : Bool := (List.range 128).all (fun i => cells.any (fun c => c.1 = 128 * line + i))
  let s := { s with mem := mem, poisoned := s.poisoned.filter (fun l => !whole l) }
  (s.wakeDep cells).wakeBarriers cells

/-- The cells of bytes from an address up. -/
def cellsAt (a : Nat) (bs : List Byte) : List Host.Cell := ((List.range bs.length).zip bs).map (fun ib => (a + ib.1, ib.2))

/-- Writes a number to device memory. -/
def State.writeMem (s : State) (pa n x : Nat) : State := s.writeCells (cellsAt pa (bytesOfNum n x))

/-- Is a byte of the range in a poisoned line (20 R454)? -/
def State.isPoisoned (s : State) (pa n : Nat) : Bool := s.poisoned.any (fun l => l * 128 < pa + n && pa < l * 128 + 128)

/-- Drops the L1 copies of the lines that a range touches. -/
def Core.dropL1 (k : Core) (pa n : Nat) : Core :=
  { k with l1 := k.l1.filter (fun x => !(x.line * 128 < pa + n && pa < x.line * 128 + 128)) }

/-! ### Who may touch a place (01 R24-R27) -/

/-- The cause that an access to a place meets, by R220 orders 3 to 5: `ctx` is the issuer's context, `sys` its system
privilege. -/
def State.placeCause (s : State) (ctx : Nat) (sys : Bool) (k : AccessKind) (p : Place) : Option Cause :=
  match p with
  | .hole => some .physHole
  | .mem _ => none
  | .control _ => if sys then none else some .windowPriv
  | .window core _ r =>
    if (s.core core).ctx ≠ some ctx || s.isGated core then some .windowContext
    else if r = .surrogate && k.writes && !sys then some .windowPriv
    else if k = .atomic && r ≠ .scratchpad then some .windowAtomic
    else none

/-- The first cause that a range of physical bytes meets, byte by byte. -/
def State.rangeCause (s : State) (ctx : Nat) (sys : Bool) (k : AccessKind) (pa n : Nat) : Option (Nat × Cause) :=
  (List.range n).findSome? (fun i => (s.placeCause ctx sys k (placeOf (pa + i))).map (fun c => (i, c)))

end Sys2Proof.Machine
end

