-- ==== Sys2Proof/Machine/Security.lean ====
section
/-! DEFINITION. The security block: measurement, starts, scrub, contexts, core assignment and the audit log (20). -/

namespace Sys2Proof.Machine

/-- The state with the security block changed. -/
def State.modSecurity (s : State) (f : Security → Security) : State := { s with security := f s.security }

/-- The state with the front end changed. -/
def State.modFront (s : State) (f : FrontEnd → FrontEnd) : State := { s with front := f s.front }

/-- An interrupt of a function's vector is raised (18 R405, R411, R415; 19 R428). -/
def State.interrupt (s : State) (func vec : Nat) : State :=
  s.modFront (fun f => { f with interrupts := (func, vec) :: f.interrupts })

/-! ### The audit log (R450-R452) -/

/-- The bytes of a 512-bit value. -/
def bytes512 (x : BitVec 512) : List Byte := bytesOfNum 64 x.toNat

/-- Appends one entry (R450). -/
def State.auditEntry (s : State) (event ctx origin : Nat) (data : List Byte) : State :=
  let sec := s.security
  let body := bytesOfNum 8 sec.nextSeq ++ bytesOfNum 8 s.time ++ bytesOfNum 2 event ++ bytesOfNum 1 ctx
    ++ bytesOfNum 1 origin ++ List.replicate 12 0 ++ (data ++ List.replicate 32 0).take 32
  let hash := sha3 (bytes512 sec.head ++ body)
  s.modSecurity (fun x =>
    { x with
      ring := (⟨sec.nextSeq, body, hash⟩ :: sec.ring).take 512
      unspilled := sec.unspilled + 1, head := hash, nextSeq := sec.nextSeq + 1 })

/-- Is the ring full of entries not yet spilled (R452)? -/
def Security.full (x : Security) : Bool := 512 ≤ x.unspilled

/-- A hardware event is logged, or counted in LOST while the ring is full (R451, R452). -/
def State.log (s : State) (event ctx : Nat) (data : List Byte) : State :=
  if s.security.full then
    s.modSecurity (fun x => { x with lost := (x.lost + 1) % 2 ^ 32, lostDue := x.lostDue + 1 })
  else s.auditEntry event ctx 0 data

/-- A firmware append, with APPEND as it stands: `tug` tells the Tug from the Pilot. It is entered at the end of the cycle, after
the cycle's hardware events (R450, R451). -/
def State.auditAppend (s : State) (event : Nat) (tug : Bool) : State :=
  if event < 0x100 || 0x1FF < event then s
  else s.modSecurity (fun x => { x with appends := x.appends ++ [(event, tug, x.append)] })

/-- The firmware appends that the ring has room for are entered, oldest first (R450, R452). -/
def State.enterAppends (s : State) : List (Nat × Bool × BitVec 256) → State
  | [] => s.modSecurity (fun x => { x with appends := [] })
  | a :: rest =>
    if s.security.full then s.modSecurity (fun x => { x with appends := a :: rest })
    else (s.auditEntry a.1 0xFF (if a.2.1 then 2 else 1) (bytesOfNum 32 a.2.2.toNat)).enterAppends rest

/-- Has the block an entry to spill, and a region to spill it to (R452)? -/
def Security.maySpill (x : Security) : Bool := x.unspilled ≠ 0 && 9 ≤ x.spillM && x.spillM ≤ 24

/-- Is a step the block's spill? -/
def isSpill (i : Instr) : Bool :=
  match i with
  | .auditSpill => true
  | _ => false

/-- The end of a cycle in the audit block: the appends of the cycle are entered, and a spill falls due (R450, R452). -/
def State.auditTick (s : State) : State :=
  let s := s.enterAppends s.security.appends
  if s.security.maySpill && !s.agenda.any isSpill then s.due [Instr.auditSpill] else s

/-- The block spills its oldest entry not yet spilled to the host half of function 0, and writes the LOST entry that is
due (R452). Without a spill region nothing is spilled. -/
def State.auditSpill (s : State) : State :=
  let sec := s.security
  if !sec.maySpill then s
  else
    let seq := sec.nextSeq - sec.unspilled
    match sec.ring.find? (fun e => e.seq = seq) with
    | none => s
    | some e =>
      let slot := seq % 2 ^ sec.spillM
      let s := (s.writeHost 0 (sec.spillBase.toNat + 128 * slot) (e.body ++ bytes512 e.hash)).modSecurity
        (fun x => { x with unspilled := sec.unspilled - 1 })
      if sec.lostDue = 0 then s
      else (s.auditEntry 13 0xFF 0 (bytesOfNum 4 sec.lostDue)).modSecurity (fun x => { x with lostDue := 0 })

/-! ### Measurement (R439-R442) -/

/-- MEASn is extended (R440). -/
def State.extend (s : State) (n : Nat) (data : BitVec 512) : State :=
  s.modSecurity (fun x =>
    { x with meas := x.meas.set n (sha3 (bytes512 (x.meas.getD n 0) ++ bytes512 data)) })

/-- A write of EXTCMD (R441); the extension is done at once, so BUSY always reads 0. -/
def State.writeExtCmd (s : State) (val : Nat) : State :=
  let s := s.modSecurity (fun x => { x with extIndex := val % 8 })
  if val.testBit 8 && 5 ≤ val % 8 then s.extend (val % 8) s.security.extData else s

/-- IDKEY (R439): the public key that the first 32 bytes of the seed's hash give. -/
def State.idKey (s : State) : List Byte := mlDsaPublicKey (bytesOfNum 32 s.security.seedHash.toNat)

/-- The bytes of the attestation report before its signature (R442). -/
def State.reportBody (s : State) : List Byte :=
  let sec := s.security
  bytesOfNum 4 0x54415A47 ++ bytesOfNum 2 s.links.modId.toNat ++ bytesOfNum 1 sec.warm.toNat ++ [0]
    ++ bytesOfNum 8 (sec.nextSeq - 1) ++ bytesOfNum 8 s.time ++ bytesOfNum 8 sec.lost ++ bytes512 sec.nonce
    ++ bytes512 (sha3 s.idKey) ++ bytes512 sec.head ++ (sec.meas.take 8).flatMap bytes512

/-- The attestation report (R442). The random input of its signature is a free value, and so are the bytes where every attempt
of the signing has been rejected (log entry 74). -/
def State.report (s : State) : List Byte :=
  let random (n : Nat) : List Byte := (List.range n).map (Config.signByte s.fresh)
  let sig := (mlDsaSign (bytesOfNum 32 s.security.seedHash.toNat) (random 32) s.reportBody).getD (random 4627)
  s.reportBody ++ sig ++ List.replicate 13 0

/-- Is any byte of a physical range one that the block cannot write: in a hole, in control space, or in the window of a core
without power? -/
def State.unwritable (s : State) (pa n : Nat) : Bool :=
  (List.range n).any (fun i =>
    match placeOf (pa + i) with
    | .hole => true
    | .control _ => true
    | .window core _ _ => s.isGated core
    | .mem _ => false)

/-- Writes bytes to device memory, and to the windows that have power, with no context (01 R25): what the security block
and the host write. Bytes in control space and in holes are not written here. -/
def State.storeOutside (s : State) (pa : Nat) (bs : List Byte) : State :=
  let cells := cellsAt pa bs
  let s := s.writeCells (cells.filter (fun c => placeOf c.1 = .mem c.1))
  cells.foldl (fun s c =>
    match placeOf c.1 with
    | .window core off _ => if s.isGated core then s else s.modCore core (fun k => k.writeWin off [c.2])
    | _ => s) s

/-- A write of ATTCMD (R442): with GO the report is written at once, or ERR says that its address lay in a hole. An address in
control space or in a window without power is refused as a hole is (DEDUCED, log entry 17). -/
def State.writeAttCmd (s : State) (val : Nat) : State :=
  let a := bits val 47 8 * 256
  let s := s.modSecurity (fun x => { x with attAddr := a })
  if !val.testBit 0 then s
  else if s.unwritable a 0x1500 then s.modSecurity (fun x => { x with attErr := true })
  else (s.useFresh.storeOutside a s.report).modSecurity (fun x => { x with attErr := false })

/-! ### Starts (R443-R445) -/

/-- MEAS2 bytes 0 to 31, which BOOT, WARM and SAFE log (R451). -/
def State.meas2 (s : State) : List Byte := (bytes512 (s.security.meas.getD 2 0)).take 32

/-- A start fails (R445): FAILS counts it, and at three the module is in SAFE. -/
def State.failStart (s : State) : State :=
  let f := min 3 (s.security.fails + 1)
  let s := s.modSecurity (fun x => { x with fails := f, started := false })
  if f = 3 then (s.modSecurity (fun x => { x with state := .safe })).log 3 0xFF s.meas2 else s

/-- A field of the header of the image that MBOX names, in the host half of function 0 (R443; DEDUCED, log entry 74). -/
def State.imageField (s : State) (off : Nat) : Nat := Memory.readNum (s.hostMemOf 0) (s.security.mbox.toNat + off) 4

/-- Bytes of that image. -/
def State.startImage (s : State) (off n : Nat) : List Byte :=
  Memory.readBytes (s.hostMemOf 0) (s.security.mbox.toNat + off) n

/-- PILOTLEN and TUGLEN. -/
def State.pilotLen (s : State) : Nat := s.imageField 8
def State.tugLen (s : State) : Nat := s.imageField 12

/-- Does the image pass its checks (R443): MAGIC, SVN, and its signature under the vendor key whose digest is fused? Where the
key itself is kept the spec does not say, and it comes with the start (DEDUCED, log entry 74). -/
def State.imageGood (s : State) (inp : StartInput) : Bool :=
  let n := 16 + s.pilotLen + s.tugLen
  s.imageField 0 = 0x4D575A47 && s.security.minSvn ≤ s.imageField 4 && sha3 inp.vendorKey = s.security.vendorDigest
    && mlDsaVerify inp.vendorKey (s.startImage 0 n) (s.startImage n 4627)

/-- Every core with its Tug at the firmware's entry, a free value (02 R41; R444 step 6; log entry 5). -/
def State.startTugs (s : State) : State :=
  let entry := alignTarget (Config.word s.fresh 0 ++ Config.word s.fresh 1)
  let tug : Group := { Group.blank with kind := .tug, pc := entry }
  let core : Core := { Core.cold with groups := [(15, tug)], ready := [[(s.cycle + 1, 15)], [], [], []] }
  { s.useFresh with cores := (List.range 384).map (fun c => (c, core)) }

/-- Steps 5 and 6 of a start (R444): the image is copied and checked, MEAS2 to MEAS4 are extended by the digests of the Pilot and
Tug images and the start's kind, the Tugs start, and the start is logged. -/
def State.finishStart (s : State) (inp : StartInput) (warm : Bool) : State :=
  let p := s.pilotLen
  let t := s.tugLen
  let copied := s.modSecurity (fun x => { x with image := s.startImage 0 (16 + p + t + 4627), vendorKey := inp.vendorKey })
  if s.imageGood inp then
    let s := ((copied.extend 2 (sha3 (s.startImage 16 p))).extend 3 (sha3 (s.startImage (16 + p) t))).extend 4
      (if warm then 1 else 0)
    (s.startTugs.log (if warm then 2 else 1) 0xFF s.meas2).modSecurity (fun x => { x with started := true })
  else copied.failStart

/-- Is a device address behind the CXL window, which no start scrubs (01 R22; R444 step 4)? -/
def inCxl (a : Nat) : Bool := 0x080000000000 ≤ a && a < 0x0F0000000000

/-- The device as a start leaves it before its measurements (R444): everything is at its cold-start value but what is outside
the device. What was due is lost with it. -/
def State.scrubbed (s : State) : State :=
  { State.reset with
    turn := .event 0, fresh := s.fresh, hostMem := s.hostMem, mem := s.mem.filter (fun c => inCxl c.1)
    poisoned := s.poisoned.filter (fun l => inCxl (128 * l)) }

/-- A cold start (R444). Everything takes its cold-start value but what is outside the device or always on: the host's
memory, what lies behind the CXL window, and FAILS. -/
def State.coldStart (s : State) (inp : StartInput) : State :=
  let new : State :=
    { s.scrubbed with
      security :=
        { Security.cold with
          fails := s.security.fails, mbox := s.security.mbox, romDigest := inp.romDigest, fuseDigest := inp.fuseDigest
          seed := inp.seed, minSvn := inp.minSvn, vendorDigest := inp.vendorDigest } }
  let measured := (new.extend 0 inp.romDigest).extend 1 inp.fuseDigest
  let m (n : Nat) : List Byte := bytes512 (measured.security.meas.getD n 0)
  let keyed := measured.modSecurity (fun x =>
    { x with seedHash := BitVec.ofNat 512 ((sha3 (bytesOfNum 32 inp.seed.toNat ++ m 0 ++ m 1)).toNat % 2 ^ 256) })
  if inp.trained && inp.selfTest then keyed.finishStart inp false else keyed.failStart

/-- A warm start (R444): training values and the key are kept, the audit chain goes on, and every fence is cleared. It is
possible only while the dies have power (R453) and the module is not in SAFE (R445). -/
def State.warmStart (s : State) (inp : StartInput) : State :=
  let old := s.security
  if !old.powered || old.state = .safe then s
  else
    let new : State :=
      { s.scrubbed with
        cycle := s.cycle
        security :=
          { Security.cold with
            fails := old.fails, warm := true, seedHash := old.seedHash, romDigest := old.romDigest
            fuseDigest := old.fuseDigest, seed := old.seed, minSvn := old.minSvn, vendorDigest := old.vendorDigest, mbox := old.mbox, ring := old.ring
            unspilled := old.unspilled, head := old.head, nextSeq := old.nextSeq, lost := old.lost
            lostDue := old.lostDue, spillBase := old.spillBase, spillM := old.spillM } }
    ((new.extend 0 old.romDigest).extend 1 old.fuseDigest).finishStart inp true

/-- The Pilot writes READY (R445). -/
def State.writeReady (s : State) : State :=
  s.modSecurity (fun x => if x.started then { x with state := .running, fails := 0, started := false } else x)

/-- A write of MBOX: in SAFE it starts a cold start with the new image, keeping FAILS (R445). -/
def State.writeMbox (s : State) (val : DWord) (inp : StartInput) : State :=
  let s := s.modSecurity (fun x => { x with mbox := val })
  if s.security.state = .safe && s.security.powered then s.coldStart inp else s

/-- The input of a cold start that a write of MBOX through control space makes: the fuses are those sensed before, and the
results of training and self-test are free (DESIGN CHOICE, log entry 34). -/
def State.sameFuses (s : State) : StartInput :=
  let x := s.security
  { romDigest := x.romDigest, fuseDigest := x.fuseDigest, seed := x.seed, minSvn := x.minSvn, vendorDigest := x.vendorDigest
    vendorKey := x.vendorKey, trained := (Config.word s.fresh 0).getLsbD 0, selfTest := (Config.word s.fresh 0).getLsbD 1 }

/-- A junction temperature above the trip limit (R453): logged, and power is removed from every die. -/
def State.thermalTrip (s : State) : State :=
  if !s.security.powered then s
  else (s.log 10 0xFF (bytesOfNum 8 0xFF)).modSecurity (fun x => { x with powered := false })

/-! ### Scrub (R446) -/

/-- The window storage of the Tug's moored registers. -/
def inTugMoored (a : Nat) : Bool := mooredOffset 15 0 ≤ a && a < mooredOffset 16 0

/-- The group with its accepted pops holding no Lift slot: those slots are free since the FIFO was emptied (16 R374). -/
def Group.noSlots (g : Group) : Group :=
  { g with outstanding := g.outstanding.map (fun (o : Outstanding) => { o with slots := 0 }) }

/-- A core whose FIFO and bulk queue the scrub of its pair empties (16 R374). -/
def Core.liftEmptied (k : Core) : Core :=
  { k with incoming := [], taking := 0, bulk := [], groups := k.groups.map (fun e => (e.1, e.2.noSlots)) }

/-- A core after its scrub (R446): the Tug's slot, registers and stack are kept (R449), and with them sr.gate, the fence
and the assignment. -/
def Core.scrubbed (k : Core) : Core :=
  { Core.cold with
    ctx := k.ctx, corectxErr := k.corectxErr, corectxCtx := k.corectxCtx, fenced := k.fenced, gateReq := k.gateReq, gate := k.gate
    groups := (k.groups.filter (fun e => e.2.kind = .tug)).map (fun e => (e.1, e.2.noSlots))
    ready := k.ready.map (fun q => q.filter (fun e => (Table.find k.groups e.2).any (fun g => g.kind = .tug)))
    barrel := k.barrel.map (fun e => e.filter (fun slot => (Table.find k.groups slot).any (fun g => g.kind = .tug)))
    win := k.win.filter (fun c => inTugMoored c.1) }

/-- A core takes a context, or none (R449): its copies of ENABLED and GEN are the directory's, and its sampling count is 0
(15 R353). -/
def State.assignCore (s : State) (c : Nat) (next : Option Nat) : State :=
  let copies := match next with
    | some n => (s.context n).directory.map (fun e => (e.1, SurrogateCopy.of e.2.enabled e.2.gen))
    | none => []
  s.modCore c (fun k =>
    { k with ctx := next, clean := k.clean && next.isNone, surrogate := { k.surrogate with copies := copies, count := 0 } })

/-- Due steps leave the agenda. -/
def State.dropDue (s : State) (p : Instr → Bool) : State :=
  let turn := match s.turn with
    | .event left => Turn.event ((s.agenda.take left).filter (fun i => !p i)).length
    | x => x
  { s with agenda := s.agenda.filter (fun i => !p i), turn := turn }

/-- Is a step the arrival of a disable or an enable at a core (15 R365)? -/
def arrivesAt (core : Nat) (i : Instr) : Bool :=
  match i with
  | .surrogateDisableArrival c _ _ _ => c = core
  | _ => false

/-- The scrub of a core, logged, with both Lift FIFOs of its pair. What is on its way to the core from the directory of the
context that it leaves is lost. One that falls due while the core is gated clears its
B-store at once and is made in full at its wake, before the core takes the context `next` (R446). -/
def State.scrubCore (s : State) (c : Nat) (ctx : Nat) (next : Option Nat) : State :=
  if s.isGated c then
    s.modCore c (fun k =>
      { k with ctx := none, win := Memory.clear k.win 0x01000000 0x01400000, scrubDue := some (ctx, next) })
  else
    ((((s.dropDue (arrivesAt c)).modCore c (fun k => { k.scrubbed with ctx := none, scrubDue := none })).modCore
      (partnerOf c) Core.liftEmptied).log 4 ctx (bytesOfNum 2 c)).assignCore c next

/-! ### Contexts (R447, R448) and core assignment (R449) -/

/-- Does a context have a resident team? -/
def State.hasTeam (s : State) (ctx : Nat) : Bool := s.cores.any (fun e => e.2.teams.any (fun t => t.2.ctx = ctx))

/-- Does a context have a queue attached to a hardware slot? -/
def State.hasMappedQueue (s : State) (ctx : Nat) : Bool :=
  s.front.slots.any (fun e => (Table.get s.front.runList ⟨0, 0, false⟩ e.2).ctx = ctx)

/-- The status that CTXCMD leaves. -/
def State.ctxStatus (s : State) (status op ctx : Nat) : State :=
  s.modSecurity (fun x => { x with ctxStatus := status, ctxOp := op, ctxCtx := ctx })

/-- Does a scrub that a context's cores owe wait for a wake (R446)? -/
def State.scrubWaits (s : State) (ctx : Nat) : Bool := s.cores.any (fun e => (e.2.scrubDue.map (·.1)) = some ctx)

/-- The end of a context's release, once its cores are scrubbed (R447 steps 2 to 4). -/
def State.releaseEnd (s : State) (ctx : Nat) : State :=
  let c := s.context ctx
  let s :=
    { s with
      contexts := Table.erase s.contexts ctx
      dieTlb := s.dieTlb.map (fun (e : Nat × List TlbEntry) => (e.1, e.2.filter (fun t => t.ctx ≠ ctx))) }
  ((s.log 6 ctx (bytesOfNum 1 c.func)).ctxStatus 0 0 ctx).modSecurity (fun x => { x with releasing := none })

/-- The release under way ends, if no scrub of its cores is due any more. -/
def State.releaseGoesOn (s : State) : State :=
  match s.security.releasing with
  | none => s
  | some ctx => if s.scrubWaits ctx then s else s.releaseEnd ctx

/-- Is a context live for what names it anew: created, and not being released (R447; DEDUCED, log entry 86)? -/
def State.usable (s : State) (ctx : Nat) : Bool := (s.context ctx).valid && s.security.releasing ≠ some ctx

/-- A release of a context (R447). It ends once its cores are scrubbed, so with a core that has no power after that core's
wake; CTXCMD is busy until then. -/
def State.ctxRelease (s : State) (ctx : Nat) : State :=
  let c := s.context ctx
  if s.security.releasing.isSome then s
  else if !c.valid then s.ctxStatus 2 0 ctx
  else if s.hasTeam ctx || s.hasMappedQueue ctx || c.debugger then s.ctxStatus 1 0 ctx
  else
    let cores := (s.cores.filter (fun e => e.2.ctx = some ctx || (e.2.scrubDue.map (·.2)) = some (some ctx))).map (·.1)
    let s := cores.foldl (fun s n => s.scrubCore n ctx none) s
    (s.modSecurity (fun x => { x with ctxOp := 0, ctxCtx := ctx, releasing := some ctx })).releaseGoesOn

/-- Does another live context hold a function? -/
def State.funcTaken (s : State) (ctx func : Nat) : Bool :=
  (s.contexts : List (Nat × Context)).any (fun e => e.1 ≠ ctx && e.2.valid && e.2.func = func)

/-- A creation of a context (R448). -/
def State.ctxCreate (s : State) (ctx : Nat) : State :=
  let c := s.context ctx
  if s.security.releasing.isSome then s
  else if c.valid then s.ctxStatus 1 1 ctx
  else if c.root = 0 || 64 < c.func || s.funcTaken ctx c.func then s.ctxStatus 3 1 ctx
  else
    let s := s.modContext ctx (fun x =>
      { x with
        directory := [], qbound := Context.cold.qbound, vthresh := Context.cold.vthresh, vwin := Context.cold.vwin
        tvec := 0, remote := [], debugger := false, hostRequests := [], ats := [], valid := true })
    (s.log 5 ctx (bytesOfNum 1 c.func)).ctxStatus 0 1 ctx

/-- A write of CTXCMD (R447): ignored while BUSY, which a release that waits for a scrub sets. -/
def State.writeCtxCmd (s : State) (val : Nat) : State :=
  let op := bits val 10 9
  let ctx := bits val 5 0
  if s.security.releasing.isSome then s
  else
  let s := s.modSecurity (fun x => { x with ctxOp := op, ctxCtx := ctx })
  if !val.testBit 8 then s
  else if op = 0 then s.ctxRelease ctx
  else if op = 1 then s.ctxCreate ctx
  else s.ctxStatus 4 op ctx

/-- Does a core hold a resident team or a recovery group? -/
def Core.occupied (k : Core) : Bool := k.teams ≠ [] || k.groups.any (fun e => e.2.kind = .recovery)

/-- A write of a core's CORECTX (R449). Each change is logged (01 R13): that of a core with nothing to scrub as SCRUB too, the
only event of R451 that tells of a core (DEDUCED, log entry 75). -/
def State.writeCoreCtx (s : State) (core : Nat) (val : Nat) : State :=
  let k := s.core core
  let assigned := val.testBit 7
  let ctx := bits val 5 0
  if k.scrubDue.isSome then s
  else if k.occupied || (assigned && !s.usable ctx) || k.fenced then
    s.modCore core (fun k => { k with corectxErr := true })
  else
    let s := s.modCore core (fun k => { k with corectxErr := false })
    let next := if assigned then some ctx else none
    if k.ctx = next then s
    else
    let s := s.modCore core (fun k => { k with corectxCtx := ctx })
    if k.clean then (s.log 4 0xFF (bytesOfNum 2 core)).assignCore core next
    else s.scrubCore core (k.ctx.getD 0xFF) next

end Sys2Proof.Machine
end

