-- ==== Sys2Proof/Machine/Spots.lean ====
section
/-! DEFINITION. Virtual ranges byte by byte: where each byte lies, and the reads and writes of parties other than a core
(18 R407, R411-R413). -/

namespace Sys2Proof.Machine

/-- The size of the page that `pageOf` names. -/
def pageSize (va : DWord) : Nat := if va.msb then 0x10000 else 0x1000

/-- A virtual range cut at page boundaries (06 R139). -/
def pageChunks : Nat → DWord → Nat → List (DWord × Nat)
  | 0, _, _ => []
  | fuel + 1, va, n =>
    if n = 0 then []
    else
      let room := pageSize va - va.toNat % pageSize va
      if n ≤ room then [(va, n)] else (va, room) :: pageChunks fuel (va + BitVec.ofNat 64 room) (n - room)

/-- The page-wise cut of a range. -/
def chunksOf (va : DWord) (n : Nat) : List (DWord × Nat) := pageChunks (n / 0x1000 + 3) va n

/-- Where one byte lies. -/
inductive Spot where
  | device (p : Place)
  | host (func va : Nat)
  | remote (va : Nat)
  deriving DecidableEq, Repr

/-- The byte `i` bytes on from a target. -/
def Target.spot (t : Target) (i : Nat) : Spot :=
  match t with
  | .device pa => .device (placeOf (pa + i))
  | .host f va => .host f (va + i)
  | .remote va => .remote (va + i)

/-- The cause that an access to a spot meets (R220 orders 3 to 5). -/
def State.spotCause (s : State) (ctx : Nat) (sys : Bool) (k : AccessKind) (p : Spot) : Option Cause :=
  match p with
  | .device p => s.placeCause ctx sys k p
  | _ => none

/-- Does a byte lie in another module? -/
def Spot.isRemote (p : Spot) : Bool :=
  match p with
  | .remote _ => true
  | _ => false

/-- The byte at a spot. What another module returns is a free value (log entry 5). -/
def State.spotByte (s : State) (p : Spot) : Byte :=
  match p with
  | .device (.mem pa) => Memory.read s.mem pa
  | .device (.window core off _) => Memory.read (s.core core).win off
  | .device _ => 0
  | .host f va => Memory.read (s.hostMemOf f) va
  | .remote va => Config.remoteByte s.fresh va

/-- The bytes at spots. -/
def State.spotBytes (s : State) (ps : List Spot) : List Byte := ps.map s.spotByte

/-- The free values that reads of other modules have used are used up (19 R433, R435). -/
def State.readRemote (s : State) (ps : List Spot) : State := if ps.any Spot.isRemote then s.useFresh else s

/-- Is a byte of the spots in a poisoned line (20 R454)? -/
def State.spotPoison (s : State) (ps : List Spot) : Bool :=
  ps.any (fun p =>
    match p with
    | .device (.mem pa) => s.poisoned.contains (pa / 128)
    | _ => false)

/-- The byte at a spot as a party reads it that keeps no poison with it, such as the front end or an instruction fetch: one of a
line with an uncorrectable error is a free value (20 R454; log entry 27). -/
def State.soundByte (s : State) (p : Spot) : Byte :=
  match p with
  | .device (.mem pa) => if s.poisoned.contains (pa / 128) then Config.poisonByte s.cycle pa else Memory.read s.mem pa
  | p => s.spotByte p

/-- The device lines that spots touch. -/
def spotLines (ps : List Spot) : List Nat :=
  (ps.filterMap (fun p => match p with
    | .device (.mem pa) => some (pa / 128)
    | _ => none)).eraseDups

/-- The state with lines poisoned at their home slices (20 R454). -/
def State.poisonLines (s : State) (lines : List Nat) : State :=
  if lines = [] then s else { s with poisoned := (lines ++ s.poisoned).eraseDups }

/-- Writes bytes at spots: the device's memory at its home slices, windows at their cores, and the host's memory. What
reaches another module is performed there (19 R433). -/
def State.writeSpots (s : State) (ps : List Spot) (bs : List Byte) : State :=
  let xs := ps.zip bs
  let s := s.writeCells (xs.filterMap (fun x =>
    match x.1 with
    | .device (.mem pa) => some (pa, x.2)
    | _ => none))
  xs.foldl (fun s x =>
    match x.1 with
    | .device (.window core off _) => s.modCore core (fun k => k.writeWin off [x.2])
    | .host f va => s.writeHost f va [x.2]
    | _ => s) s

/-- The spots of a virtual range for a party with user privilege other than a core, or the first address that has none
and why: it may not write the area of a live launch (17 R387). -/
def State.spotsAt (s : State) (here : Bool) (ctx : Nat) (k : AccessKind) (va : DWord) (n : Nat) :
    Except (DWord × Miss) (List Spot) :=
  (chunksOf va n).foldlM (fun acc c =>
    match s.translateAt here ctx k true c.1 with
    | .error m => .error (c.1, m)
    | .ok t =>
      if k.writes && (List.range c.2).any (fun i => s.inArea ctx (c.1 + BitVec.ofNat 64 i)) then
        .error (c.1, .cause .pagePermission)
      else
      let ps := (List.range c.2).map t.target.spot
      match ps.findSome? (fun p => s.spotCause ctx false k p) with
      | some cause => .error (c.1, .cause cause)
      | none => .ok (acc ++ ps)) []

/-- As `spotsAt`, with the remote ranges. -/
def State.spotsPlain (s : State) (ctx : Nat) (k : AccessKind) (va : DWord) (n : Nat) :
    Except (DWord × Miss) (List Spot) := s.spotsAt false ctx k va n

/-! ### Host-path requests (11 R277, R270) -/

/-- A group, or a front-end queue, waits for a page of its context. Several share one request (R277). -/
def State.requestPage (s : State) (ctx : Nat) (page : DWord) (group : Option GroupRef) (queue : Option Nat) : State :=
  s.modContext ctx (fun c =>
    let add (h : HostRequest) : HostRequest :=
      { h with groups := h.groups ++ group.toList, queues := h.queues ++ queue.toList }
    if c.hostRequests.any (fun h => h.page = page) then
      { c with hostRequests := c.hostRequests.map (fun h => if h.page = page then add h else h) }
    else { c with hostRequests := c.hostRequests ++ [add ⟨page, [], []⟩] })

/-- What a reader or writer outside the cores does about a missing translation. -/
inductive Retry where
  /-- Wait: for the host path of R277 when the page is named, or for an ATS completion. -/
  | wait (page : Option DWord)
  | fault (c : Cause)
  deriving DecidableEq, Repr

/-- A miss of a party other than a group (R270, R277). -/
def Miss.retry (m : Miss) (va : DWord) : Retry :=
  match m with
  | .notPresent => .wait (some (pageOf va))
  | .atsDenied => .wait (some (pageOf va))
  | .atsPending => .wait none
  | .cause c => .fault c

/-- Reads a range for a party other than a core and its engines. -/
def State.readPlain (s : State) (ctx : Nat) (va : DWord) (n : Nat) : Except Retry (List Byte) :=
  match s.spotsPlain ctx .read va n with
  | .ok ps => .ok (ps.map s.soundByte)
  | .error (a, m) => .error (m.retry a)

/-- Writes a range for a party other than a core; D is set first (R275). -/
def State.writePlain (s : State) (ctx : Nat) (va : DWord) (bs : List Byte) : Except Retry State :=
  match s.spotsPlain ctx .write va bs.length with
  | .ok ps => .ok (((chunksOf va bs.length).foldl (fun s c => s.markDirty ctx c.1) s).writeSpots ps bs)
  | .error (a, m) => .error (m.retry a)

end Sys2Proof.Machine
end

