-- ==== Sys2Proof/Machine/Ops.lean ====
section
/-! DEFINITION. Taking an exception, the return from one, halts, and how an attempt to issue ends. -/

namespace Sys2Proof.Machine

/-! ### Traps -/

/-- The cause code (10 R253). -/
def Cause.code (c : Cause) : Nat :=
  match c with
  | .illegalInstruction => 0x01
  | .illegalOperand => 0x02
  | .deadRegister => 0x03
  | .nonUniform => 0x04
  | .footprint => 0x05
  | .berthConflict => 0x06
  | .barrier => 0x07
  | .privilege => 0x08
  | .software => 0x09
  | .svc => 0x0A
  | .breakpoint => 0x0B
  | .nonCanonical => 0x10
  | .pageNotPresent => 0x11
  | .pagePermission => 0x12
  | .pageOrd => 0x13
  | .hostPage => 0x14
  | .physHole => 0x15
  | .windowContext => 0x16
  | .windowPriv => 0x17
  | .windowAtomic => 0x18
  | .hostAtomic => 0x19
  | .misaligned => 0x1A
  | .scratchRange => 0x1B
  | .stackRange => 0x1C
  | .stackOverflow => 0x1D
  | .purity => 0x1E
  | .memEcc => 0x1F
  | .ringOverrun => 0x20
  | .craneFault => 0x21
  | .drainFault => 0x22
  | .matrixFault => 0x23
  | .surrogateFault => 0x24
  | .liftFault => 0x25
  | .recoveryFault => 0x26
  | .noVariant => 0x27
  | .watchdog => 0x28
  | .launchAbort => 0x29

/-- Is the cause handled (10 R253)? -/
def Cause.handled (c : Cause) : Bool :=
  match c with
  | .illegalInstruction | .software | .svc | .breakpoint | .pageNotPresent | .misaligned | .drainFault => true
  | _ => false

/-- A trap of a cause with nothing else to record. -/
def Trap.plain (c : Cause) : Trap :=
  { cause := c, reason := 0, detail := 0, lanes := none, addr := 0, fetch := false, restart := [], next := false }

/-- The attempt ends in a trap of this cause. -/
def trapWith {α : Type} (c : Cause) : Attempt α := .error (.trap (Trap.plain c))

/-- A check of an attempt: the trap of the cause unless the condition holds. -/
def check (b : Bool) (c : Cause) : Attempt Unit := if b then .ok () else trapWith c

/-- Byte `p` of lane `l` in the private stack's storage, which is laid out as its backing pages (09 R236). -/
def stackPlace (lane p : Nat) : Nat := (p / 16) * 512 + 16 * lane + p % 16

/-- Reads `n` bytes of a lane's private stack as a number (09 R234-R236). -/
def Group.readStack (g : Group) (lane p n : Nat) : Nat :=
  numOfBytes ((List.range n).map (fun i => Memory.read g.stack (stackPlace lane (p + i))))

/-- Does a range of private offsets touch a block (09 R236)? -/
def touchesBlock (p n b : Nat) : Bool := 16 * b < p + n && p < 16 * b + 16

/-- The blocks that a range of private offsets touches. -/
def blocksOf (p n : Nat) : List Nat := if n = 0 then [] else (List.range ((p + n - 1) / 16 + 1 - p / 16)).map (p / 16 + ·)

/-- Writes bytes into a lane's private stack from an offset up. The blocks that change are in the stack cache, and no
longer as their backing pages hold them (09 R236); a unit of 16 bytes written whole is no longer poisoned (R221). -/
def Group.writeStackBytes (g : Group) (lane p : Nat) (bs : List Byte) : Group :=
  { g with
    stack := ((List.range bs.length).zip bs).foldl
      (fun m ib => Memory.write m (stackPlace lane (p + ib.1)) ib.2) g.stack
    held := (blocksOf p bs.length).filter (fun b => !g.held.contains b) ++ g.held
    dirty := (blocksOf p bs.length).filter (fun b => !g.dirty.contains b) ++ g.dirty
    backed := g.backed.filter (fun b => !touchesBlock p bs.length b)
    missing := g.missing.filter (fun b => !touchesBlock p bs.length b)
    stackPoison := g.stackPoison.filter (fun u =>
      !(blocksOf p bs.length).any (fun b => u = 32 * b + lane && p ≤ 16 * b && 16 * b + 16 ≤ p + bs.length)) }

/-- Does a range of a lane's private stack hold a poisoned byte (09 R221)? -/
def Group.stackBad (g : Group) (lane p n : Nat) : Bool :=
  (blocksOf p n).any (fun b => g.stackPoison.contains (32 * b + lane))

/-- Writes the `n` bytes of a number into a lane's private stack. -/
def Group.writeStack (g : Group) (lane p n x : Nat) : Group := g.writeStackBytes lane p (bytesOfNum n x)

/-- The predicates of a lane as bits, p0 in bit 0 (10 R256). -/
def Group.predBits (g : Group) (lane : Nat) : Nat :=
  (List.range 7).foldl (fun acc i => acc + if (g.preds.getD i 0).lane lane then 2 ^ i else 0) 0

/-- Latch position qj, if it holds a value (07 R159). -/
def Group.latch (g : Group) (j : Nat) : Option Lanes :=
  match g.history.getD (j - 1) none with
  | some (cls, vals) => if cls ≤ j then some vals else none
  | none => none

/-- The FLAGS bits of a trap (10 R256): FETCH, DRAIN and UNI. -/
def Trap.flags (t : Trap) (uni : Bool) : Nat :=
  (if t.fetch then 1 else 0) + (if t.restart = [] then 0 else 16) + (if uni then 64 else 0)

/-- The address that a trap records (10 R253). -/
def Group.trapPc (g : Group) (t : Trap) : DWord := if t.next then g.nextPc else g.pc

/-- Had the instruction being issued U = 1, by its first word in the group's decode mode (03 R64; 04 R103, R107)? In mode 7 the
word after the prefixes holds U: where it was not fetched, nothing says that U was 1. -/
def uniBit (mode : Nat) (ws : List Word) : Bool :=
  match mode, ws.getLast? with
  | 7, some w => !anotherWord 7 ws && w.getLsbD 8
  | 8, _ => (ws.headD 0).getLsbD 1
  | _, _ => (ws.headD 0).getLsbD 2

/-- The frame of a trap in one lane (10 R256), as its 128 bytes. -/
def Group.frame (g : Group) (mode : Nat) (t : Trap) (lane : Nat) : List Byte :=
  let latches := mode = 9
  let caches := mode ≠ 7
  let q (j : Nat) : Option Lanes := if latches then g.latch j else none
  let o (i : Nat) : Option Lanes := if caches then g.cache.getD i none else none
  let bit (b : Bool) (i : Nat) : Nat := if b then 2 ^ i else 0
  let qv := bit (q 1).isSome 0 + bit (q 2).isSome 1 + bit (q 3).isSome 2
  let ov := (List.range 8).foldl (fun acc i => acc + bit (o i).isSome i) 0
  let word (x : Option Lanes) : Nat := ((x.getD Lanes.zero).at' lane).toNat
  bytesOfNum 8 (g.trapPc t).toNat
    ++ (List.range 5).flatMap (fun i => bytesOfNum 4 (g.ir.getD i 0).toNat)
    ++ bytesOfNum 1 t.cause.code ++ bytesOfNum 1 t.reason ++ bytesOfNum 1 0
    ++ bytesOfNum 1 (t.flags (uniBit mode g.ir))
    ++ bytesOfNum 4 g.em.toNat ++ bytesOfNum 4 (t.lanes.getD g.em).toNat ++ bytesOfNum 8 t.addr.toNat
    ++ bytesOfNum 4 (g.fpst.at' lane).toNat ++ bytesOfNum 1 (g.predBits lane) ++ bytesOfNum 1 g.run
    ++ bytesOfNum 1 qv ++ bytesOfNum 1 ov ++ bytesOfNum 4 t.detail.toNat ++ bytesOfNum 4 0
    ++ bytesOfNum 4 (word (q 1)) ++ bytesOfNum 4 (word (q 2)) ++ bytesOfNum 4 (word (q 3)) ++ bytesOfNum 4 0
    ++ (List.range 8).flatMap (fun i => bytesOfNum 4 (word (o i)))
    ++ (if t.restart = [] then List.replicate 16 0 else t.restart)

/-- SP with every change of it performed (09 R234, 10 R255 step 2). -/
def Group.spFinal (g : Group) : Nat := g.spWrites.foldl (fun _ w => w.2) g.sp

/-- Trap entry (10 R255) with the handler's address: the frame in every lane's stack, SP, SUP and CAUSE, empty latches, an
invalid operand cache, em at the failing lanes of a per-lane cause, and the PC at the handler, whose first instruction
issues in the fifth turn after, or after the last write of the group's earlier instructions. -/
def Group.enterTrap (g : Group) (cycle mode : Nat) (t : Trap) (handler : DWord) : Group :=
  let base := g.spFinal
  let g := g.copies.foldl Group.landCopy g
  let framed := (List.range 32).foldl (fun h l => h.writeStackBytes l base (g.frame mode t l)) g
  { framed with
    sp := base + 128, spWrites := [], sup := true, cause := t.cause.code
    history := [], cache := List.replicate 8 none, copies := [], cacheLocks := []
    em := t.lanes.getD g.em, pc := alignTarget handler
    paid := 0, stall := 0, hold := .none, holdUntil := max (cycle + 20) (g.lastDue + 1) }

/-- The halt record of a group stopped at its own fault (02 R57, 10 R259): the instruction's own address. -/
def Group.faultRecord (g : Group) (mode : Nat) (t : Trap) (extraFlags : Nat) : HaltRecord :=
  { pc := g.pc, cause := t.cause.code, reason := t.reason, skid := g.skid
    flags := t.flags (uniBit mode g.ir) + extraFlags, detail := t.detail }

/-- The halt record of a group stopped by another group's fault (10 R259). -/
def Group.siblingRecord (g : Group) : HaltRecord :=
  { pc := g.pc, cause := 0, reason := 0, skid := g.skid, flags := 0, detail := 0 }

/-- A group stops with a halt record (02 R57), out of its barrel slot and of the ready queue. A wait under way is kept for
a resumption (10 R261). -/
def State.stopGroup (s : State) (r : GroupRef) (h : HaltRecord) : State :=
  (s.modGroup r (fun g =>
    { g with
      resumeWait := (match g.status with | .waiting w => some w | _ => g.resumeWait)
      status := .halted, halt := some h, skidLeft := none })).leaveBarrel r

/-- Is the team ending already by a kill? -/
def Ending.isKill (e : Ending) : Bool :=
  match e with
  | .kill _ => true
  | _ => false

/-- The halt of a team (02 R57) is on its way to each group that has not stopped or exited; the kill follows once the
team's commands have settled (R58). A team that is retiring goes on retiring (17 R399). `tcause` is the TCAUSE of 18
R422. -/
def State.haltTeam (s : State) (t : TeamRef) (tcause : Nat) : State :=
  match s.team? t with
  | none => s
  | some team =>
    if team.ending.isKill || team.ending = .retire then s
    else
      let live := team.slots.filter (fun slot =>
        match (s.group ⟨t.core, slot⟩).status with
        | .halted => false
        | .exited => false
        | _ => true)
      (s.modTeam t (fun x => { x with ending := .kill tcause })).due
        (live.map (fun slot => Instr.haltDelivery ⟨t.core, slot⟩) ++ [Instr.teamKill t])

/-- A recovery group ends by a fault (02 R60; 15 R366): every team with a record in it is halted, and the group leaves its
slot with its records. -/
def State.killOrigins (s : State) (r : GroupRef) : State :=
  let mine (x : SlipRecord) : Bool := x.taken.any (fun t => t.1 = r.slot)
  let origins := ((s.core r.core).surrogate.slipway.filter (fun x => mine x && !x.orphan)).map (·.slot)
  let teams := (origins.map (fun slot => (s.group ⟨r.core, slot⟩).team)).eraseDups
  let s := teams.foldl (fun s t => s.haltTeam ⟨r.core, t⟩ Cause.recoveryFault.code) s
  (s.leaveBarrel r).modCore r.core (fun k =>
    { k with
      groups := Table.erase k.groups r.slot
      surrogate := { k.surrogate with slipway := k.surrogate.slipway.filter (fun x => !mine x) } })

/-- A fatal trap (02 R57): the group stops at the instruction with its record and broadcasts the halt. A recovery group
has no team of its own: it kills every origin team of its records (R60, 15 R366). -/
def State.fatal (s : State) (r : GroupRef) (t : Trap) (extraFlags : Nat) : State :=
  let g := s.group r
  let mode := (s.attrs r).decode
  let stopped := s.stopGroup r (g.faultRecord mode t extraFlags)
  match g.kind with
  | .general => stopped.haltTeam ⟨r.core, g.team⟩ 0
  | .tug => stopped
  | .recovery => stopped.killOrigins r

/-- The handler of a cause (10 R252, R254): EN is 1, and the entry can be read and is not 0. The entry is read in the
group's context with supervisor privilege (DEDUCED, log entry 13). -/
def State.vector (s : State) (ctx : Nat) (cause : Nat) : Option DWord :=
  let tvec := (s.context ctx).tvec
  if tvec.getLsbD 0 then
    let va := (tvec &&& ~~~0x1FF#64) + BitVec.ofNat 64 (8 * cause)
    match s.translatePlain ctx .read false va with
    | .error _ => none
    | .ok t =>
      let ps := (List.range 8).map t.target.spot
      if ps.any (fun p => (s.spotCause ctx false .read p).isSome) then none
      else
        let h := BitVec.ofNat 64 (numOfBytes (s.spotBytes ps))
        if h = 0 then none else some h
  else none

/-- The handler of a cause for a group; a recovery group has none (15 R366). -/
def State.handler (s : State) (r : GroupRef) (c : Cause) : Option DWord :=
  if (s.group r).kind = .recovery then none else s.vector (s.attrs r).ctx c.code

/-- Has a frame room (10 R254)? -/
def Group.hasFrameRoom (g : Group) : Bool := g.spFinal + 128 ≤ g.limit

/-- A debugger's STOP reaches the group (10 R261): its team halts without being killed. -/
def State.stopping (s : State) (r : GroupRef) : Bool :=
  match s.teamOf r with
  | some t => t.ending = .stop
  | none => false

/-- A handled trap that has its handler is taken (10 R255), but not by a group whose skid instruction raises it, which stops there
(02 R57 item 5; DEDUCED, log entry 20): a STOP does not kill its team, and the instruction is issued again after RESUME. -/
def State.takeTrap (s : State) (r : GroupRef) (t : Trap) (handler : DWord) : State :=
  let g := s.group r
  let mode := (s.attrs r).decode
  if g.skidLeft.isNone then s.modGroup r (fun g => g.enterTrap s.cycle mode t handler)
  else if s.stopping r then s.stopGroup r (g.faultRecord mode t 0)
  else s.fatal r t 0

/-- A trap is taken (10 R253-R255): the handler runs when the cause is handled and every condition of R254 holds; otherwise
the trap is fatal, and a handled cause records which conditions failed. -/
def State.trap (s : State) (r : GroupRef) (t : Trap) : State :=
  let g := s.group r
  if t.cause.handled then
    match s.handler r t.cause with
    | some h =>
      if !g.sup && g.hasFrameRoom then s.takeTrap r t h
      else s.fatal r t ((if g.sup then 2 else 0) + (if g.hasFrameRoom then 0 else 4))
    | none => s.fatal r t ((if g.sup then 2 else 0) + (if g.hasFrameRoom then 0 else 4) + 8)
  else s.fatal r t 0

/-- The gate lane (07 R173). -/
def Group.gateLane (g : Group) : Nat := g.em.lowest.getD 0

/-- Lane words that a frame's field holds, in every lane. -/
def Group.frameLanes (g : Group) (base off : Nat) : Lanes :=
  Lanes.ofFn (fun l => BitVec.ofNat 32 (g.readStack l (base + off) 4))

/-- The return from a handler (10 R257) to the state that the frame at `base` holds. QV and OV are the gate lane's
(DEDUCED, log entry 14). -/
def Group.leaveTrap (g : Group) (base : Nat) : Group :=
  let at_ (off n : Nat) : Nat := g.readStack g.gateLane (base + off) n
  let qv := at_ 0x36 1
  let ov := at_ 0x37 1
  { g with
    pc := alignTarget (BitVec.ofNat 64 (at_ 0 8)), em := BitVec.ofNat 32 (at_ 0x20 4), run := at_ 0x35 1
    fpst := (g.frameLanes base 0x30).map (fun x => x &&& 0x1F#32)
    preds := (List.range 7).map (fun i => Mask.ofFn (fun l => (g.readStack l (base + 0x34) 1).testBit i))
    history := (List.range 3).map (fun j => if qv.testBit j then some (1, g.frameLanes base (0x40 + 4 * j)) else none)
    cache := (List.range 8).map (fun i => if ov.testBit i then some (g.frameLanes base (0x50 + 4 * i)) else none)
    copies := [], cacheLocks := [], sp := base, spWrites := [], sup := false, cause := 0, paid := 0, stall := 0
    hold := .none
    skid := (match g.skidLeft with | some _ => g.skid + 1 | none => g.skid)
    skidLeft := g.skidLeft.map (· - 1) }

/-- A group stops with a halt record of its own and halts its team (02 R57): tret.kill (10 R257) and the refusals of the
host (11 R273, R277). -/
def State.haltWith (s : State) (r : GroupRef) (h : HaltRecord) : State :=
  let g := s.group r
  let stopped := s.stopGroup r h
  match g.kind with
  | .general => stopped.haltTeam ⟨r.core, g.team⟩ 0
  | .tug => stopped
  | .recovery => stopped.killOrigins r

/-- tret and tret.kill (10 R257). It waits for the handler's fixed-latency results in stalled turns. -/
def State.trapReturn (s : State) (kill : Bool) : State :=
  let r := s.issuing
  let g := s.self
  if !g.sup then s.trap r (Trap.plain .privilege)
  else if s.cycle ≤ g.lastDue then s.modSelf (fun g => { g with holdUntil := g.lastDue + 1 })
  else
    let s := s.settleAll r
    let g := s.self
    let base := g.sp - 128
    if kill then
      let at_ (off n : Nat) : Nat := g.readStack g.gateLane (base + off) n
      s.haltWith r
        { pc := BitVec.ofNat 64 (at_ 0 8), cause := at_ 0x1C 1, reason := at_ 0x1D 1, skid := g.skid
          flags := at_ 0x1F 1 ||| 32, detail := BitVec.ofNat 32 (at_ 0x38 4) }
    else s.modSelf (fun g => g.leaveTrap base)

/-! ### How an attempt ends -/

/-- The PAGE_NOT_PRESENT conditions of a group other than the pool count (11 R276). -/
def State.mayFirstTouch (s : State) (r : GroupRef) : Bool :=
  let g := s.group r
  (s.handler r .pageNotPresent).isSome && !g.sup && g.hasFrameRoom

/-- The pool count of a context (11 R269). -/
def Context.poolCount (c : Context) : Nat := (c.poolTail - c.poolHead).toNat

/-- Does a data access of the group to a page that is not present raise PAGE_NOT_PRESENT (11 R276)? -/
def State.touches (s : State) (r : GroupRef) : Bool :=
  0 < (s.context (s.attrs r).ctx).poolCount && s.mayFirstTouch r

/-- A group is held on the host path for a page (11 R277): as swapped out, its PC at the instruction. -/
def State.holdForHost (s : State) (r : GroupRef) (page : DWord) : State :=
  ((s.modGroup r (fun g => { g with status := .hostHeld page })).leaveBarrel r).requestPage (s.attrs r).ctx page (some r) none

/-- A turn of the group's slot is stalled (02 R49): it counts toward THRESH, four cycles each. A request that it makes for the first
time is of this cycle (R51). -/
def Group.stalled (g : Group) (cycle : Nat) (h : Hold) : Group :=
  { g with hold := h, stall := g.stall + 4, asked := if g.hold = h then g.asked else cycle }

/-- What stops the issuing group's instruction. -/
def State.stopped (s : State) (x : Stop) : State :=
  match x with
  | .trap t => s.trap s.issuing t
  | .stall h => s.modSelf (fun g => g.stalled s.cycle h)
  | .hostPath page => s.holdForHost s.issuing page

/-- The state after an attempt of the issuing group. -/
def State.finish (s : State) (x : Attempt State) : Host.Outcome State Fault Refusal :=
  match x with
  | .ok s' => .next s'
  | .error e => .next (s.stopped e)

end Sys2Proof.Machine
end

