-- ==== Sys2Proof/Machine/Operands.lean ====
section
/-! DEFINITION. The operand engine: operands, their checks, uniform execution, results and the timing of issue (07; 03
R68-R77; 04 R101, R102, R111). -/

namespace Sys2Proof.Machine

/-! ### What an instruction names -/

/-- A source operand (03 R71, R72, R75; 07 R175): its words, its last-read mark, whether it must be uniform, and whether
it is a packed pair of 16-bit numbers (03 R70). -/
structure Source where
  operand : Operand
  words : Nat
  mark : Bool
  uniform : Bool
  packed : Bool
  deriving DecidableEq, Repr

/-- The registers that a result is written to, whether one value is written as R455 states (`perLane` false), and the
lanes written; with no lane, nothing is written. -/
structure Dest where
  regs : List Reg
  perLane : Bool
  mask : Mask
  deriving DecidableEq, Repr

/-- The register of word `i` of a register operand (03 R69, R72): s48-s63 name k0-k15 in a handler. -/
def Group.regAt (g : Group) (o : Operand) (i : Nat) : Option Reg :=
  match o with
  | .v n => some (.v (n + i))
  | .s n => some (if g.sup && 48 ≤ n + i then .k (n + i - 48) else .s (n + i))
  | _ => none

/-- The registers of a register operand of some words. -/
def Group.regsOf (g : Group) (o : Operand) (words : Nat) : List Reg := (List.range words).filterMap (g.regAt o)

/-- Do the lanes exchange values (07 R183, R184), so that U = 1 makes every lane active and reads sources per lane? -/
def crossLane (op : Op) : Bool :=
  match op with
  | .xred | .xscan | .xshf | .xbal | .xread | .xwrite | .xmatch | .xrot | .xfirst => true
  | _ => false

/-- Does the instruction act for the group at every issue (07 R455)? -/
def actsAlways (op : Op) (f : LongFields) : Bool :=
  match op with
  | .foot | .emset | .emand | .emor | .emnot | .ffb | .call | .liftFree => true
  | .mxb => f.ty = 2
  | _ => false

/-- The 16-bit pairs (03 R87): A, B and C of hfma2 and the like, A and B of dot2. -/
def packedAt (op : Op) (i : Nat) : Bool :=
  match op with
  | .hadd2 | .hmul2 | .hfma2 | .hmin2 | .hmax2 => true
  | .dot2 => i < 2
  | _ => false

/-- The operands that the instruction itself requires to be uniform, by field A, B, C as 0, 1, 2 (07 R180; 09 R214; 10
R240; 12 R290; 13 R311; 14 R337; 15 R355; 16 R376; 17 R396; 11 R281). -/
def uniformAt (op : Op) (f : LongFields) (i : Nat) : Bool :=
  match op with
  | .movx | .movxw | .xscan | .xrot | .xread => i = 1
  | .xwrite => true
  | .bra | .brx | .call | .ret | .bany | .ball | .bnone | .emset | .emand | .emor | .emnot | .waitbAll | .waitbAny
  | .ffb | .bclr | .sleep => true
  | .msr => f.extBits 7 0 ≠ 1
  | .ldu => true
  | .crnLd | .crnSt | .crnCp | .crnSet | .crnGather | .crnChain | .ringDecl | .ringAdv => true
  | .mma | .mlda | .bld | .mdrain | .mdresume | .mwait => true
  | .srg | .srgStat => true
  | .srgOpen => i = 1
  | .liftWait => true
  | .enq | .spawn | .phase | .depInc | .depDec | .depWait | .qstat => true
  | _ => false

/-- Does the register operand itself come per lane under U = 1 (07 R173, R181, R184)? Those of every cross-lane operation and of movw do,
and need not be uniform, though R183 says so of xred and xscan alone (DEDUCED, log entry 87). -/
def laneWise (op : Op) : Bool := crossLane op || op = .movw

/-- Does the gate of R173 decide whether the instruction acts under U = 1 (07 R181, R184, R186)? -/
def gated (op : Op) : Bool := op ≠ .movw && op ≠ .xwrite && op ≠ .kill && op ≠ .foot

/-- The predicate that PS names, as a lane mask; p7 is all ones (03 R76). -/
def Group.pred (g : Group) (i : Nat) : Mask := if i = 7 then BitVec.allOnes 32 else g.preds.getD i 0

/-- The selected predicate with PN applied (03 R76). -/
def Group.selected (g : Group) (f : LongFields) : Mask :=
  let p := g.pred f.ps.toNat
  if f.pn then ~~~p else p

/-- Active(): the em lanes whose selected predicate is true (03 R76; 00 R6). -/
def Group.active (g : Group) (f : LongFields) : Mask := g.em &&& g.selected f

/-- Does the gate of R173 pass? -/
def Group.gatePasses (g : Group) (f : LongFields) : Bool := (g.selected f).lane g.gateLane

/-- The set of a uniform operand (07 R175). -/
def Group.uniformSet (g : Group) (f : LongFields) : Mask := if f.u then g.em else g.active f

/-- The lane from which a uniform operand is read (07 R175): the gate lane when no lane is in the set (DEDUCED for R182 and
R184, log entry 83). -/
def Group.uniformLane (g : Group) (f : LongFields) : Nat := (g.uniformSet f).lowest.getD g.gateLane

/-! ### Reading -/

/-- The integer that an integer special value holds in a lane; none for a floating one (03 R70; 15 R362 for a recovery
group, 02 R43 for the Tug). -/
def State.specialInt (s : State) (r : GroupRef) (code lane : Nat) : Option Word :=
  let g := s.group r
  let team := s.teamOf r
  match code with
  | 332 => some 0
  | 333 => some (BitVec.allOnes 32)
  | 334 => some (BitVec.ofNat 32 lane)
  | 335 => some (BitVec.ofNat 32 g.number)
  | 336 => some ((team.map (·.tx)).getD 0)
  | 337 => some ((team.map (·.ty)).getD 0)
  | 338 => some ((team.map (·.tz)).getD 0)
  | 339 => some (BitVec.ofNat 32 ((team.map (·.stage)).getD 0))
  | 340 => some g.em
  | 341 => some (BitVec.ofNat 32 r.core)
  | 342 => some (BitVec.ofNat 32 (r.slot / 16))
  | 343 => some (BitVec.ofNat 32 r.slot)
  | 344 => some (BitVec.ofNat 32 ((team.map (fun t => t.slots.length)).getD 1))
  | 345 => some (BitVec.ofNat 32 (s.attrs r).ctx)
  | 346 => some (BitVec.ofNat 32 (g.predBits lane + 128))
  | 347 => some 1
  | 348 => some 2
  | 349 => some 4
  | 350 => some 8
  | _ => none

/-- The binary32 and binary64 bits of a floating special value (03 R70). -/
def specialFloat (code : Nat) : Word × DWord :=
  match code with
  | 351 => (0x3F800000, 0x3FF0000000000000)
  | 352 => (0x3F000000, 0x3FE0000000000000)
  | 353 => (0x40000000, 0x4000000000000000)
  | 354 => (0xBF800000, 0xBFF0000000000000)
  | 355 => (0x7F800000, 0x7FF0000000000000)
  | 356 => (0x7FC00000, 0x7FF8000000000000)
  | _ => (0, 0)

/-- The bits of a special value in a lane, for an operand of one or two words (03 R70). -/
def State.special (s : State) (r : GroupRef) (code : Nat) (wide packed : Bool) (lane : Nat) : DWord :=
  match s.specialInt r code lane with
  | some w => if wide then w.signExtend 64 else w.setWidth 64
  | none =>
    if code = 357 then if packed then 0x3C003C00 else 0
    else if code = 358 then if packed then 0x3F803F80 else 0
    else if wide then (specialFloat code).2
    else (specialFloat code).1.setWidth 64

/-- The words of a 64-bit value that is a function of the lane: the low word and, for two words, the high word. -/
def wordsOfLanes (words : Nat) (x : Nat → DWord) : List Lanes :=
  (List.range words).map (fun i => Lanes.ofFn (fun l => (x l).extractLsb' (32 * i) 32))

/-- The words of a source as they stand in every lane (07 R160-R162, R172; 03 R70, R72). -/
def State.sourceWords (s : State) (r : GroupRef) (lit : Option DWord) (x : Source) : List Lanes :=
  let g := s.group r
  match x.operand with
  | .v _ => (g.regsOf x.operand x.words).map (s.readReg r)
  | .s _ => (g.regsOf x.operand x.words).map (s.readReg r)
  | .o n => [(g.cache.getD n none).getD Lanes.zero]
  | .q n => [(g.latch n).getD Lanes.zero]
  | .lit => wordsOfLanes x.words (fun _ => lit.getD 0)
  | .special code => wordsOfLanes x.words (s.special r code (1 < x.words) x.packed)
  | .reserved => []

/-- One value in every lane, taken from lane `l`. -/
def splatFrom (x : Lanes) (l : Nat) : Lanes := Lanes.splat (x.at' l)

/-- Do the lanes of a set hold different values? -/
def lanesDiffer (x : Lanes) (set : Mask) : Bool :=
  match set.lanes with
  | [] => false
  | l :: rest => rest.any (fun k => x.at' k ≠ x.at' l)

/-! ### What a form of an instruction reads and writes -/

/-- The register that the index of movx or movxw selects (07 R182): the number of the base and B read as uniform. -/
def State.indexed (s : State) (r : GroupRef) (f : LongFields) (base : BitVec 9) : Nat :=
  let b : Source := { operand := Operand.ofCode f.b, words := 1, mark := false, uniform := true, packed := false }
  base.toNat + ((s.sourceWords r f.lit b).headD Lanes.zero |>.at' ((s.group r).uniformLane f)).toNat

/-- The source of a field by its use, if the instruction reads it through the operand engine here; the coordinates of the
Crane, the record images and the register ranges of srg.open and lift.push are read by their own instructions. -/
def sourceOf (op : Op) (f : LongFields) (use : Use) (code : BitVec 9) (mark : Bool) (i : Nat) : Option Source :=
  match use with
  | .no => none
  | .coords => none
  | .image => none
  | .vreg => none
  | _ =>
    some
      { operand := Operand.ofCode code, words := use.words, mark := mark
        uniform := (f.u && !laneWise op) || uniformAt op f i, packed := packedAt op i }

/-- The sources A, B and C (03 R67, R71; 07 R182 for the register that movx reads, when it lies in the file). -/
def State.sources (s : State) (r : GroupRef) (op : Op) (f : LongFields) : List (Option Source) :=
  let sh := shape op f
  let a :=
    if op = .movx then
      let x := s.indexed r f f.a
      if x < 256 then
        some { operand := .v x, words := sh.d.words, mark := f.la && x < 240, uniform := f.u, packed := false }
      else none
    else sourceOf op f sh.a f.a f.la 0
  [a, sourceOf op f sh.b f.b f.lb 1, sourceOf op f sh.c f.c f.lc 2]

/-- The registers of the sources that carry a last-read mark (03 R75; 07 R168: both halves of a pair). -/
def Group.marked (g : Group) (xs : List (Option Source)) : List Nat :=
  (xs.filterMap id).flatMap (fun x =>
    if x.mark then (g.regsOf x.operand x.words).filterMap (fun reg =>
      match reg with
      | .v n => if n < 240 then some n else none
      | _ => none)
    else [])

/-- Is a register compressed (07 R174)? -/
def Group.isCompressed (g : Group) (reg : Reg) : Bool :=
  match reg with
  | .v n =>
    match Table.find g.v n with
    | some x => x.compressed
    | none => false
  | _ => false

/-- All the lanes. -/
def allLanes : Mask := BitVec.allOnes 32

/-- The lane that xwrite writes: lane B[4:0], if the selected predicate is true in it (07 R184). -/
def State.xwriteMask (s : State) (r : GroupRef) (f : LongFields) : Mask :=
  let k := s.indexed r f 0 % 32
  Mask.ofFn (fun l => l = k && ((s.group r).selected f).lane l)

/-- The lanes in which the instruction's latch entry and operand-cache copy hold its result (07 R160, R161). movw acts in
every lane and xwrite in its one lane (DEDUCED, log entry 19). -/
def State.resultLanes (s : State) (r : GroupRef) (op : Op) (f : LongFields) : Mask :=
  match op with
  | .movw => allLanes
  | .xwrite => s.xwriteMask r f
  | _ => if f.u then allLanes else (s.group r).active f

/-- Does the instruction act (07 R173, R455)? A per-lane result with U = 0 and no active lane writes nothing (R168). -/
def Group.acts (g : Group) (op : Op) (f : LongFields) : Bool :=
  actsAlways op f || op = .movw || op = .xwrite || (if f.u then g.gatePasses f else g.active f ≠ 0)

/-- How many registers a register result takes: those of lift.pop and srg.open are ranges (15 R355; 16 R376). -/
def destWords (op : Op) (f : LongFields) (sh : Shape) : Nat :=
  match op with
  | .liftPop => f.modBits 14 12 + 1
  | .srgOpen => f.modBits 16 14 + 1
  | _ => sh.d.words

/-- The destination of a register result, before NWB (07 R168, R173, R174, R181, R182, R184, R455). A movw.n64 whose pair is not
wholly compressed is a per-lane write of both halves (DESIGN CHOICE, log entry 88). -/
def State.dest (s : State) (r : GroupRef) (op : Op) (f : LongFields) : Dest :=
  let g := s.group r
  let sh := shape op f
  let regs := if f.nwb then [] else g.regsOf (Operand.ofCode f.d) (destWords op f sh)
  if !g.acts op f then { regs := regs, perLane := sh.result = .perLane && !f.u, mask := 0 }
  else
    match op with
    | .movw =>
      let src := g.regsOf (Operand.ofCode f.a) sh.a.words
      { regs := regs, perLane := !(src ≠ [] && src.all g.isCompressed), mask := allLanes }
    | .xwrite => { regs := regs, perLane := true, mask := s.xwriteMask r f }
    | .movxw =>
      let x := s.indexed r f f.d
      { regs := if f.nwb || 256 ≤ x then [] else g.regsOf (.v x) sh.a.words
        perLane := !f.u, mask := if f.u then allLanes else g.active f }
    | _ =>
      match sh.result with
      | .none => { regs := [], perLane := false, mask := 0 }
      | .uniform => { regs := regs, perLane := false, mask := allLanes }
      | .perLane =>
        if f.u then { regs := regs, perLane := crossLane op, mask := allLanes }
        else { regs := regs, perLane := true, mask := g.active f }

/-- The registers that kill frees (07 R186). -/
def killRange (f : LongFields) : List Nat := (List.range (f.extBits 3 0 + 1)).map (f.a.toNat + ·)

/-- The registers that an instruction reads besides its sources A, B and C: ranges of v registers (15 R356; 16 R377,
R378), the outputs that a recovery group deposits (15 R363), record images (17 R396) and coordinates, up to 32 registers and none beyond s63 (12 R292). -/
def Group.rangeReads (g : Group) (op : Op) (f : LongFields) : List Reg :=
  let span (c : BitVec 9) (n : Nat) : List Reg := g.regsOf (Operand.ofCode c) n
  match op with
  | .srgOpen => span f.a (f.modBits 13 11 + 1)
  | .srgClose =>
    match g.recovery with
    | some x => (List.range x.numOut).map (fun m => Reg.v (x.firstOut + m))
    | none => []
  | .liftPush => if f.modBits 14 12 = 0 then [] else span f.a (f.modBits 14 12 + 1)
  | .enq => span f.b 16
  | .spawn => span f.a 16
  | .crnLd | .crnSt | .crnCp | .crnSet | .crnGather | .crnChain =>
    match Operand.ofCode f.b with
    | .s n => span f.b (min 32 (64 - n))
    | _ => []
  | _ => []

/-! ### The checks (07 R179) -/

/-- A register range computed at run time: inside v0-v255, of the kernel, and even for a pair (07 R182, R186). -/
def State.rangeOk (s : State) (r : GroupRef) (op : Op) (f : LongFields) : Bool :=
  let sh := shape op f
  let ok (x words : Nat) : Bool := x + words ≤ 240 + (s.attrs r).moored && (words = 1 || x % 2 = 0)
  match op with
  | .movx => ok (s.indexed r f f.a) sh.d.words
  | .movxw => ok (s.indexed r f f.d) sh.a.words
  | .kill => f.a.toNat + f.extBits 3 0 < 240
  | _ => true

/-- Does a v operand lie within the kernel's moored count (03 R71)? In decode mode 7 no register above v127 is named. -/
def mooredOk (moored : Nat) (use : Use) (code : BitVec 9) : Bool :=
  match use, Operand.ofCode code with
  | .no, _ => true
  | _, .v n => n + use.words ≤ 240 + moored
  | _, _ => true

/-- R83 check 7 as far as it depends on the kernel (03 R71). -/
def State.fieldsOk (s : State) (r : GroupRef) (op : Op) (f : LongFields) : Bool :=
  let sh := shape op f
  let m := (s.attrs r).moored
  mooredOk m sh.a f.a && mooredOk m sh.b f.b && mooredOk m sh.c f.c && (f.nwb || mooredOk m sh.d f.d)

/-- Does a latch or operand-cache source hold a value (07 R160, R161)? -/
def Group.levelOk (g : Group) (x : Source) : Bool :=
  match x.operand with
  | .o n => (g.cache.getD n none).isSome
  | .q n => (g.latch n).isSome
  | _ => true

/-- Is a register neither allocated nor compressed (07 R169)? Never in a legacy mode (04 R101). -/
def State.isDead (s : State) (r : GroupRef) (reg : Reg) : Bool :=
  match reg with
  | .v n => n < 240 && (s.attrs r).decode = 9 && (Table.find (s.group r).v n).isNone
  | _ => false

/-- The group with NU set (07 R176). -/
def Group.markNU (g : Group) : Group := { g with nonUniform := true }

/-- Check 4: the uniform operands, and for U = 1 the gate predicate, in their set (07 R175). -/
def State.checkUniform (s : State) (r : GroupRef) (f : LongFields) (gate : Bool) (values : List Lanes) : Attempt State :=
  let g := s.group r
  let set := g.uniformSet f
  let gateDiffers := gate && f.u && (g.selected f &&& g.em ≠ 0) && (g.selected f &&& g.em ≠ g.em)
  if gateDiffers || values.any (fun x => lanesDiffer x set) then
    if (s.attrs r).strict then trapWith .nonUniform else .ok (s.modGroup r Group.markNU)
  else .ok s

/-- Check 5: a write that needs a physical register past the footprint, once the marked sources are free (07 R168,
R170). -/
def State.footOk (s : State) (r : GroupRef) (marked : List Nat) (d : Dest) : Bool :=
  let a := s.attrs r
  if d.perLane && d.mask ≠ 0 && a.decode = 9 then !(marked.foldl Group.free (s.group r)).passesFoot a.foot d.regs
  else true

/-- Check 6: no source register is poisoned (09 R221). -/
def Group.sound (g : Group) (regs : List Reg) : Bool := regs.all (fun reg => !g.poison.contains reg)

/-- The registers that the sources of an instruction name. -/
def Group.sourceRegs (g : Group) (xs : List (Option Source)) : List Reg :=
  (xs.filterMap id).flatMap (fun x => g.regsOf x.operand x.words)

/-- Checks 1 to 3 of R179 on the sources. -/
def State.readChecks (s : State) (r : GroupRef) (op : Op) (f : LongFields) (xs : List (Option Source)) : Attempt Unit := do
  let g := s.group r
  check (s.fieldsOk r op f) .illegalOperand
  check ((xs.filterMap id).all g.levelOk) .illegalOperand
  check (s.rangeOk r op f) .illegalOperand
  check ((g.sourceRegs xs).all (fun reg => !s.isDead r reg)) .deadRegister

/-- Check 3 of R179 on the ranges of registers that the instruction reads, and checks 4 to 6. -/
def State.valueChecks (s : State) (r : GroupRef) (op : Op) (f : LongFields) (xs : List (Option Source)) (d : Dest) :
    Attempt State := do
  let g := s.group r
  check ((g.rangeReads op f).all (fun reg => !s.isDead r reg)) .deadRegister
  let ranges := if f.u && op ≠ .srgClose then (g.rangeReads op f).map (s.readReg r) else []
  let uniform := ((xs.filterMap id).filter (·.uniform)).flatMap (s.sourceWords r f.lit) ++ ranges
  let s ← s.checkUniform r f (gated op) uniform
  check (s.footOk r (g.marked xs) d) .footprint
  check (g.sound (g.sourceRegs xs ++ g.rangeReads op f)) .memEcc
  return s

/-- The checks of R179 in their order on the sources and the destination of an instruction. -/
def State.operandChecks (s : State) (r : GroupRef) (op : Op) (f : LongFields) (xs : List (Option Source)) (d : Dest) :
    Attempt State := do
  s.readChecks r op f xs
  s.valueChecks r op f xs d

/-! ### An instruction that is ready to act -/

/-- What the operand engine supplies to an instruction that has passed its checks: the state with NU set where R175 says
so, the words of A, B and C in every lane, the lanes in which it acts, the lanes that take flags (05 R129), where its
result goes and the lanes of its latch entry, whether it acts, and the registers to free. -/
structure Issue where
  s : State
  a : List Lanes
  b : List Lanes
  c : List Lanes
  lanes : Mask
  flagLanes : Mask
  dest : Dest
  latch : Mask
  acts : Bool
  marked : List Nat
  /-- NU as the instruction found it. -/
  oldNU : Bool
  deriving DecidableEq, Repr

/-- What stops an instruction in a state that its checks have reached: one that does not issue sets no NU (00 R6; log entry
62). -/
def Issue.stopIn (x : Issue) (t : State) (e : Stop) : State :=
  (t.modGroup x.s.issuing (fun g => { g with nonUniform := x.oldNU })).stopped e

/-- The value of a source as the instruction takes it: a uniform operand from the lowest lane of its set (07 R173, R175). -/
def State.operandValue (s : State) (r : GroupRef) (f : LongFields) (x : Option Source) : List Lanes :=
  match x with
  | none => []
  | some x =>
    let ws := s.sourceWords r f.lit x
    if x.uniform then ws.map (fun w => splatFrom w ((s.group r).uniformLane f)) else ws

/-- The lanes in which an instruction acts: Active(), or every lane under U = 1 once the gate passes (07 R173, R184). -/
def Group.actingLanes (g : Group) (op : Op) (f : LongFields) : Mask :=
  if f.u then if g.acts op f then allLanes else 0 else g.active f

/-- What the operand engine supplies for an instruction of a group, before the checks of its values. -/
def State.issueOf (s : State) (r : GroupRef) (op : Op) (f : LongFields) (xs : List (Option Source)) (d : Dest) : Issue :=
  let g := s.group r
  { s := s
    a := s.operandValue r f (xs.getD 0 none)
    b := s.operandValue r f (xs.getD 1 none)
    c := s.operandValue r f (xs.getD 2 none)
    lanes := g.actingLanes op f
    flagLanes := g.active f
    dest := d
    latch := s.resultLanes r op f
    acts := g.acts op f
    marked := g.marked xs
    oldNU := g.nonUniform }

/-- The issue of an instruction of the issuing group up to its effect: its writes that have landed, the checks of R179,
and its operands. -/
def State.prepare (s : State) (op : Op) (f : LongFields) : Attempt Issue := do
  let r := s.issuing
  let s := s.settle r
  let xs := s.sources r op f
  let d := s.dest r op f
  let t ← s.operandChecks r op f xs d
  return { s.issueOf r op f xs d with s := t }

/-- What is still checked of an instruction that does not act, beyond R83. -/
inductive Idle where
  /-- It always acts for the group. -/
  | never
  /-- Nothing (12 R293, R299; 17 R397). -/
  | fields
  /-- The checks of R179 other than those of uniform operands and of the footprint, which its chapter's table makes only
  when it acts (13 R321; 14 R338; 16 R377). -/
  | sources
  /-- Every check (R160: whatever em, the predicate and U are; 15 R368). -/
  | all
  deriving DecidableEq, Repr

/-- Checks 1 to 3 and 6 of R179, without those of uniform operands. -/
def State.idleChecks (s : State) (r : GroupRef) (op : Op) (f : LongFields) (xs : List (Option Source)) : Attempt Unit := do
  let g := s.group r
  s.readChecks r op f xs
  check ((g.rangeReads op f).all (fun reg => !s.isDead r reg)) .deadRegister
  check (g.sound (g.sourceRegs xs ++ g.rangeReads op f)) .memEcc

/-- As `prepare`, for an instruction whose chapter sets checks `mid` of its own before those of uniform operands, and which
`idle` says how to check when it does not act. -/
def State.prepareWith (s : State) (op : Op) (f : LongFields) (idle : Idle) (mid : Issue → Attempt Unit) :
    Attempt Issue := do
  let r := s.issuing
  let s := s.settle r
  let xs := s.sources r op f
  let d := s.dest r op f
  let x := s.issueOf r op f xs d
  if x.acts || idle = .never || idle = .all then
    s.readChecks r op f xs
    mid x
    let t ← s.valueChecks r op f xs d
    return { x with s := t, acts := x.acts || idle = .never }
  else if idle = .sources then
    s.idleChecks r op f xs
    return x
  else
    check (s.fieldsOk r op f) .illegalOperand
    return x

/-! ### Results -/

/-- A file write in its place by the cycle of the write. -/
def insertWrite (q : List FileWrite) (w : FileWrite) : List FileWrite :=
  match q with
  | [] => [w]
  | x :: rest => if w.due < x.due then w :: x :: rest else x :: insertWrite rest w

/-- An operand-cache copy in its place by the cycle in which it is written (07 R161). -/
def insertCopy (q : List CacheWrite) (w : CacheWrite) : List CacheWrite :=
  match q with
  | [] => [w]
  | x :: rest => if w.due < x.due then w :: x :: rest else x :: insertCopy rest w

/-- Does a write take its bank's write port (07 R162, R164, R174)? -/
def takesPort (reg : Reg) (perLane legacy : Bool) : Bool :=
  match reg with
  | .v n => 240 ≤ n || perLane || legacy
  | _ => false

/-- Prepares the registers of a destination at issue (07 R168, R174; 04 R101: a legacy register is always bound). -/
def Group.makeRoom (g : Group) (legacy : Bool) (d : Dest) : Group :=
  if d.mask = 0 then g
  else d.regs.foldl (fun g reg => if d.perLane || legacy then g.allocate reg else g.compress reg) g

/-- The instruction has issued with a result of fixed latency class `cls` (07 R159-R164, R168; 04 R111): the marked
sources are freed, the destination is prepared and its file writes are in flight, the operand-cache copy is in flight,
and the result enters the latches. A result that does not act leaves none. A legacy interlock counts 4(L + 1) cycles from the
issue, which are L + 1 turns of the slot that the group then holds (DEDUCED for one that changes its slot in between, log entry
89). -/
def Group.putFixed (g : Group) (cycle : Nat) (legacy : Bool) (f : LongFields) (cls : Nat) (marked : List Nat) (d : Dest)
    (latch : Mask) (result : Bool) (words : List Lanes) : Group :=
  let g := (marked.foldl Group.free g).makeRoom legacy d
  let due := cycle + 4 * cls
  let writes := if d.mask = 0 then [] else (d.regs.zip words).map (fun (x : Reg × Lanes) =>
    ({ due := due, reg := x.1, port := takesPort x.1 d.perLane legacy, mask := d.mask, vals := x.2 } : FileWrite))
  let low := Lanes.merge latch (words.headD Lanes.zero) Lanes.zero
  let copy := result && f.oce
  let g : Group := { g with
    inflight := writes.foldl insertWrite g.inflight
    copies := if copy then insertCopy g.copies { due := due, entry := f.oci.toNat, mask := latch, vals := low } else g.copies
    locks := if legacy then (writes.map (fun (w : FileWrite) => (cycle + 4 * (cls + 1), w.reg))) ++ g.locks else []
    cacheLocks := if legacy && copy then (cycle + 4 * (cls + 1), f.oci.toNat) :: g.cacheLocks else g.cacheLocks }
  g.issued g.nextPc (if result && cls ≤ 3 && !legacy then some (cls, low) else none)

/-- The latency class of a fixed-latency form. -/
def fixedClass (sh : Shape) : Nat :=
  match sh.lat with
  | .fixed c => c
  | _ => 1

/-- Is the instruction of type f64 (08 R195)? -/
def isF64 (op : Op) (f : LongFields) : Bool :=
  let n := op.op8.toNat
  (0x60 ≤ n && n ≤ 0x72 && f.ty = 10) || ((op = .cvt || op = .cvtt) && (f.ty = 10 || f.sub = 10))

/-- The instruction has issued with the words of its result (07); an f64 instruction leaves a penalised turn (08 R195). -/
def Issue.finish (x : Issue) (op : Op) (f : LongFields) (words : List Lanes) : State :=
  let r := x.s.issuing
  let legacy := (x.s.attrs r).decode ≠ 9
  let sh := shape op f
  x.s.modGroup r (fun g =>
    let g := g.putFixed x.s.cycle legacy f (fixedClass sh) x.marked x.dest x.latch
      (x.acts || (sh.result = .perLane && !f.u)) words
    { g with owed := if isF64 op f then g.owed + 1 else g.owed })

/-- The instruction has issued without a register result: the marked sources are freed. -/
def Issue.finishPlain (x : Issue) : State :=
  x.s.modGroup x.s.issuing (fun g => let g := x.marked.foldl Group.free g; g.issued g.nextPc none)

/-- Flags ORed into sr.fpst of some lanes (05 R129). -/
def Group.orFlags (g : Group) (lanes : Mask) (flags : Nat → BitVec 5) : Group :=
  { g with fpst := Lanes.ofFn (fun l => if lanes.lane l then g.fpst.at' l ||| (flags l).setWidth 32 else g.fpst.at' l) }

/-- A predicate written in some lanes, before the group's next issue; p7 is never written (07 R167). -/
def Group.setPred (g : Group) (i : Nat) (lanes vals : Mask) : Group :=
  if i = 7 then g else { g with preds := g.preds.set i ((g.preds.getD i 0 &&& ~~~lanes) ||| (vals &&& lanes)) }

/-- A number for a new outstanding result of the group. -/
def Group.nextResult (g : Group) : Nat := (g.outstanding.map (·.id)).foldl max 0 + 1

/-- The instruction has issued with a result of variable latency (07 R177): the marked sources are freed, the destination
is prepared and pending, and it takes `words` at the return. With nothing to write, nothing is pending. -/
def Group.putPending (g : Group) (legacy : Bool) (marked : List Nat) (d : Dest) (words : List Lanes) (poisoned : Bool)
    (remote : List (DWord × DWord)) : Group :=
  let id := g.nextResult
  let g := (marked.foldl Group.free g).makeRoom legacy d
  let g := if d.mask = 0 || d.regs = [] then g
    else { g with
      outstanding := g.outstanding ++
        [{ id := id, regs := d.regs.zip words, mask := d.mask, poisoned := poisoned, access := false, slots := 0,
           remote := remote }] }
  g.issued g.nextPc none

/-- As `putPending` for the issuing group; the return is due (log entry 4). -/
def Issue.finishPending (x : Issue) (words : List Lanes) (poisoned : Bool) (remote : List (DWord × DWord)) : State :=
  let r := x.s.issuing
  let legacy := (x.s.attrs r).decode ≠ 9
  let id := (x.s.group r).nextResult
  let s := x.s.modGroup r (fun g => g.putPending legacy x.marked x.dest words poisoned remote)
  if x.dest.mask = 0 || x.dest.regs = [] then s else s.due [Instr.loadReturn r id]

/-- The group with its newest outstanding result marked as an access of the load-store engine (09 R219). -/
def Group.markAccess (g : Group) (id : Nat) : Group :=
  { g with outstanding := g.outstanding.map (fun o => if o.id = id then { o with access := true } else o) }

/-- As `finishPending`, for an access of the load-store engine (09 R219). -/
def Issue.finishAccess (x : Issue) (words : List Lanes) (poisoned : Bool) (remote : List (DWord × DWord)) : State :=
  (x.finishPending words poisoned remote).modGroup x.s.issuing (fun g =>
    g.markAccess (x.s.group x.s.issuing).nextResult)

/-! ### The turn of an instruction: stalls, interlocks and penalties -/

/-- What a turn of a group's barrel slot does with the instruction at the PC. -/
inductive TurnKind where
  | issue
  /-- It waits for pending registers (02 R49). -/
  | stall (regs : List Reg)
  /-- It is held until a cycle: by a legacy interlock (04 R111), or as a release by moored writes in flight (07 R172). -/
  | interlock (until_ : Nat)
  /-- A release that the stores of a failed prediction hold (11 R273). -/
  | wait (h : Hold)
  /-- A penalised turn (02 R45; 07 R164, R174). -/
  | penalty
  deriving DecidableEq, Repr

/-- The registers that an instruction reads. -/
def State.reads (s : State) (r : GroupRef) (op : Op) (f : LongFields) : List Reg :=
  let g := s.group r
  (((s.sources r op f).filterMap id).flatMap (fun x => g.regsOf x.operand x.words) ++ g.rangeReads op f).eraseDups

/-- The registers whose pending bits hold an instruction back: those it reads, those it frees, and those that a result of
fixed latency, or call, writes, and the outputs that srg.close compresses (02 R49; 07 R177; 10 R242; 15 R358). -/
def State.waitsFor (s : State) (r : GroupRef) (op : Op) (f : LongFields) : List Reg :=
  let g := s.group r
  let b := g.regsOf (Operand.ofCode f.b) 1
  let index := if (op = .movx || op = .movxw) && b.any g.isPending then b else []
  let dst := match (shape op f).lat with
    | .fixed _ => (s.dest r op f).regs
    | _ => if op = .call then (s.dest r op f).regs else []
  let outs := match op, g.call with
    | .srgClose, some c =>
      if c.state = .bodyRun && c.uniform then (List.range c.numOut).map (fun m => Reg.v (c.firstOut + m)) else []
    | _, _ => []
  let killed := if op = .kill then (killRange f).map Reg.v else []
  if index ≠ [] then index else (s.reads r op f ++ dst ++ killed ++ outs).filter g.isPending

/-- The bank of a register that takes a port when it is read (07 R162). -/
def Group.bankRead (g : Group) (legacy : Bool) (reg : Reg) : Option Nat :=
  match reg with
  | .v n => if 240 ≤ n || legacy || !g.isCompressed reg then some (n % 4) else none
  | _ => none

/-- The bank penalty: the largest k − 1 over the banks (02 R45; 07 R162). -/
def State.bankPenalty (s : State) (r : GroupRef) (op : Op) (f : LongFields) : Nat :=
  let g := s.group r
  let legacy := (s.attrs r).decode ≠ 9
  let banks := (s.reads r op f).filterMap (g.bankRead legacy)
  ((List.range 4).map (fun b => (banks.filter (· = b)).length - 1)).foldl max 0

/-- Does a partial write expand a compressed register (07 R174)? -/
def State.expands (s : State) (r : GroupRef) (op : Op) (f : LongFields) : Bool :=
  let g := s.group r
  let d := s.dest r op f
  let marked := g.marked (s.sources r op f)
  (s.attrs r).decode = 9 && d.perLane && d.mask ≠ 0 && d.mask ≠ allLanes
    && d.regs.any (fun reg => g.isCompressed reg && !(marked.map Reg.v).contains reg)

/-- The bank of a register. -/
def Reg.bank (reg : Reg) : Nat :=
  match reg with
  | .v n => n % 4
  | _ => 0

/-- Would the result, issued now, meet another's write in its bank (07 R164)? -/
def State.portBusy (s : State) (r : GroupRef) (op : Op) (f : LongFields) : Bool :=
  let g := s.group r
  let d := s.dest r op f
  let legacy := (s.attrs r).decode ≠ 9
  match (shape op f).lat with
  | .fixed cls =>
    d.mask ≠ 0 && d.regs.any (fun reg => takesPort reg d.perLane legacy &&
      g.inflight.any (fun w => w.port && w.due = s.cycle + 4 * cls && w.reg.bank = reg.bank))
  | _ => false

/-- The first cycle in which no legacy interlock holds a reader of some registers and operand-cache entries; 0 if none holds it
now. -/
def Group.lockedUntil (g : Group) (cycle : Nat) (reads : List Reg) (caches : List Nat) : Nat :=
  ((g.locks.filter (fun e => cycle < e.1 && reads.contains e.2)).map (·.1)
    ++ (g.cacheLocks.filter (fun e => cycle < e.1 && caches.contains e.2)).map (·.1)).foldl max 0

/-- The operand-cache entry that an operand names. -/
def operandEntry (o : Operand) : Option Nat :=
  match o with
  | .o n => some n
  | _ => none

/-- The first cycle in which the legacy interlocks let the instruction issue, if they hold it now; 0 if they do not (04
R111). The index of movx and movxw is awaited first: which register it selects is known only then (07 R182). -/
def State.interlockEnd (s : State) (r : GroupRef) (op : Op) (f : LongFields) : Nat :=
  let g := s.group r
  let b := Operand.ofCode f.b
  let index :=
    if op = .movx || op = .movxw then g.lockedUntil s.cycle (g.regsOf b 1) (operandEntry b).toList else 0
  if index ≠ 0 then index
  else g.lockedUntil s.cycle (s.reads r op f) (((s.sources r op f).filterMap id).filterMap (fun x => operandEntry x.operand))

/-- Is the instruction a release: a store, atomic or fence of such an order (03 R79), an arrival (06 R156), or an instruction of
the phase scheduler that releases (17 R388, R398, R399)? -/
def isRelease (op : Op) (f : LongFields) : Bool :=
  match op with
  | .st | .stm | .sts | .stw | .atom | .atoms | .red | .reds | .fence => 2 ≤ LongFields.ord f
  | .bar | .barArrive | .enq | .spawn | .phase | .depInc | .depDec => true
  | _ => false

/-- The first cycle in which a release may issue for the group's writes of moored registers in flight, which it orders (07
R172); 0 if it waits for none. -/
def Group.mooredEnd (g : Group) (op : Op) (f : LongFields) : Nat :=
  if isRelease op f then
    ((g.inflight.filter (fun w => w.reg.isMoored)).map (fun w => w.due + 1)).foldl max 0
  else 0

/-- The kind of the group's turn (02 R45, R49; 04 R111; 07 R162, R164, R174; 08 R195). A turn that an interlock and a
pending bit both hold is the interlock's, and counts toward no swap (DEDUCED, log entry 73). -/
def State.turnKind (s : State) (r : GroupRef) (op : Op) (f : LongFields) : TurnKind :=
  let g := s.group r
  let wait := s.waitsFor r op f
  let end_ := max (s.interlockEnd r op f) (g.mooredEnd op f)
  if s.cycle < end_ then .interlock end_
  else if wait ≠ [] then .stall wait
  else if (isRelease op f || op = .fence) && g.predicted ≠ [] then .wait (.accept .stores)
  else
    let need := s.bankPenalty r op f + (if s.expands r op f then 1 else 0)
    if g.paid < need || s.portBusy r op f then .penalty else .issue

end Sys2Proof.Machine
end

