-- ==== Sys2Proof/Machine/Flags.lean ====
section
/-! DEFINITION. Integers, floating-point numbers, their rounding and the flags they raise (05 R113-R116, R120, R121; 08
R196-R204, R209). -/

namespace Sys2Proof.Machine

/-! ### Integers (05 R113) -/

/-- Bits of a type (03 R79). -/
def typeBits (t : Nat) : Nat :=
  match t with
  | 3 | 4 | 10 => 64
  | 5 | 6 | 11 | 12 => 16
  | 7 | 8 => 8
  | _ => 32

/-- Is an integer type signed, code 0 being s32 (03 R79, 08 R190)? -/
def typeSigned (t : Nat) : Bool :=
  match t with
  | 0 | 1 | 3 | 5 | 7 => true
  | _ => false

/-- The number that the low `w` bits hold (05 R113, 08 R188). -/
def intOf (w : Nat) (signed : Bool) (x : DWord) : Int :=
  if signed then (BitVec.ofNat w x.toNat).toInt else (x.toNat % 2 ^ w : Nat)

/-- The low `w` bits of a number. -/
def bitsOfInt (w : Nat) (x : Int) : DWord := BitVec.ofNat 64 (BitVec.ofInt w x).toNat

/-- Sat (00 R6). -/
def satInt (x lo hi : Int) : Int := max lo (min x hi)

/-- The range of a type. -/
def typeMin (w : Nat) (signed : Bool) : Int := if signed then -(2 ^ (w - 1) : Nat) else 0
/-- The range of a type. -/
def typeMax (w : Nat) (signed : Bool) : Int := if signed then (2 ^ (w - 1) : Nat) - 1 else (2 ^ w : Nat) - 1

/-- An exact integer result in a type: its low bits, or saturated under SAT (05 R113, 08 R196). -/
def intResult (w : Nat) (signed sat : Bool) (x : Int) : DWord :=
  bitsOfInt w (if sat then satInt x (typeMin w signed) (typeMax w signed) else x)

/-! ### Floating-point formats (05 R114) -/

/-- A binary format: its exponent and fraction bits. -/
structure FloatFormat where
  ebits : Nat
  fbits : Nat
  deriving DecidableEq, Repr

/-- The formats of R114, by type code; code 0 is f32. -/
def floatFormat (t : Nat) : FloatFormat :=
  match t with
  | 10 => ⟨11, 52⟩
  | 11 => ⟨5, 10⟩
  | 12 => ⟨8, 7⟩
  | _ => ⟨8, 23⟩

/-- binary32. -/
def f32Format : FloatFormat := ⟨8, 23⟩

/-- The exponent bias. -/
def FloatFormat.bias (k : FloatFormat) : Nat := 2 ^ (k.ebits - 1) - 1
/-- The weight of the sign bit. -/
def FloatFormat.signBit (k : FloatFormat) : Nat := 2 ^ (k.ebits + k.fbits)
/-- The exponent of the smallest normal. -/
def FloatFormat.emin (k : FloatFormat) : Int := 1 - (k.bias : Int)
/-- The bits of an infinity. -/
def FloatFormat.inf (k : FloatFormat) (neg : Bool) : Nat := (if neg then k.signBit else 0) + (2 ^ k.ebits - 1) * 2 ^ k.fbits
/-- The bits of the canonical NaN. -/
def FloatFormat.nan (k : FloatFormat) : Nat := k.inf false + 2 ^ (k.fbits - 1)
/-- The bits of a zero. -/
def FloatFormat.zero (k : FloatFormat) (neg : Bool) : Nat := if neg then k.signBit else 0
/-- The bits of the largest finite value. -/
def FloatFormat.largest (k : FloatFormat) (neg : Bool) : Nat := k.inf neg - 1

/-- What the bits of a format stand for (05 R114): a finite value is (−1)^neg × m × 2^e. -/
inductive Real where
  | nan (signalling : Bool)
  | inf (neg : Bool)
  | fin (neg : Bool) (m : Nat) (e : Int)
  deriving DecidableEq, Repr

/-- The value of the bits of a format. -/
def FloatFormat.value (k : FloatFormat) (bits : Nat) : Real :=
  let neg := bits.testBit (k.ebits + k.fbits)
  let e := bits / 2 ^ k.fbits % 2 ^ k.ebits
  let m := bits % 2 ^ k.fbits
  if e = 2 ^ k.ebits - 1 then
    if m = 0 then .inf neg else .nan (!m.testBit (k.fbits - 1))
  else if e = 0 then .fin neg m (k.emin - k.fbits)
  else .fin neg (m + 2 ^ k.fbits) (k.emin + (e : Int) - 1 - k.fbits)

/-! ### Flags (05 R128) -/

/-- The five flags: NV 16, DZ 8, OF 4, UF 2, NX 1. -/
abbrev Flags := BitVec 5

/-- Invalid. -/
def flagNV : Flags := 16
/-- Division by zero. -/
def flagDZ : Flags := 8
/-- Overflow. -/
def flagOF : Flags := 4
/-- Underflow. -/
def flagUF : Flags := 2
/-- Inexact. -/
def flagNX : Flags := 1

/-! ### Rounding (05 R120, R121) -/

/-- A magnitude m × 2^e as a multiple of 2^q: the whole part, and the rest as 0 (none), 1 (below half), 2 (half) or 3
(above half). -/
def splitAt (m : Nat) (e q : Int) : Nat × Nat :=
  if q ≤ e then (m * 2 ^ (e - q).toNat, 0)
  else
    let sh := (q - e).toNat
    if Nat.log2 m + 2 < sh then (0, if m = 0 then 0 else 1)
    else
      let rest := m % 2 ^ sh
      let half := 2 ^ (sh - 1)
      (m / 2 ^ sh, if rest = 0 then 0 else if rest < half then 1 else if rest = half then 2 else 3)

/-- Does a magnitude round up, by RND (03 R79)? -/
def roundsUp (rnd : Nat) (neg : Bool) (whole rest : Nat) : Bool :=
  match rnd with
  | 0 => rest = 3 || (rest = 2 && whole % 2 = 1)
  | 2 => rest ≠ 0 && !neg
  | 3 => rest ≠ 0 && neg
  | _ => false

/-- An exact magnitude rounded to a multiple of 2^q, in units of 2^q. -/
def roundAt (rnd : Nat) (neg : Bool) (m : Nat) (e q : Int) : Nat :=
  let x := splitAt m e q
  if roundsUp rnd neg x.1 x.2 then x.1 + 1 else x.1

/-- The result of an overflow (05 R121). -/
def FloatFormat.overflow (k : FloatFormat) (rnd : Nat) (neg : Bool) : Nat × Flags :=
  let toInf := match rnd with
    | 0 => true
    | 2 => !neg
    | 3 => neg
    | _ => false
  (if toInf then k.inf neg else k.largest neg, flagOF ||| flagNX)

/-- An exact non-zero value rounded once to a format, with its flags: tininess after rounding (05 R121). -/
def FloatFormat.round (k : FloatFormat) (rnd : Nat) (neg : Bool) (m : Nat) (e : Int) : Nat × Flags :=
  let top : Int := (Nat.log2 m : Int) + e
  if (k.bias : Int) < top then k.overflow rnd neg
  else
    let q := max top k.emin - k.fbits
    let x := splitAt m e q
    let sig := if roundsUp rnd neg x.1 x.2 then x.1 + 1 else x.1
    let carry := sig = 2 ^ (k.fbits + 1)
    let free := roundAt rnd neg m e (top - k.fbits)
    let tiny := top < k.emin && !(free = 2 ^ (k.fbits + 1) && top + 1 = k.emin)
    if carry && q + 1 + k.fbits > k.bias then k.overflow rnd neg
    else
      let sign := if neg then k.signBit else 0
      let bits :=
        if sig < 2 ^ k.fbits then sig
        else (q - (k.emin - k.fbits)).toNat * 2 ^ k.fbits + sig
      (sign + bits, if x.2 = 0 then 0 else if tiny then flagUF ||| flagNX else flagNX)

/-! ### Sums and products -/

/-- A product of two values, none where it is 0 × ∞; a NaN stays one. -/
def Real.mul (x y : Real) : Option Real :=
  match x, y with
  | .nan a, .nan b => some (.nan (a || b))
  | .nan a, _ => some (.nan a)
  | _, .nan b => some (.nan b)
  | .inf a, .inf b => some (.inf (a != b))
  | .inf a, .fin b m _ => if m = 0 then none else some (.inf (a != b))
  | .fin a m _, .inf b => if m = 0 then none else some (.inf (a != b))
  | .fin a m e, .fin b n f => some (.fin (a != b) (m * n) (e + f))

/-- The negated value. -/
def Real.neg (x : Real) : Real :=
  match x with
  | .nan b => .nan b
  | .inf b => .inf (!b)
  | .fin b m e => .fin (!b) m e

/-- Is it a NaN? -/
def Real.isNaN (x : Real) : Bool :=
  match x with
  | .nan _ => true
  | _ => false

/-- Is it a signalling NaN? -/
def Real.isSNaN (x : Real) : Bool :=
  match x with
  | .nan b => b
  | _ => false

/-- Is it an infinity of this sign? -/
def Real.isInf (x : Real) (neg : Bool) : Bool :=
  match x with
  | .inf b => b = neg
  | _ => false

/-- The exponent of a finite value. -/
def Real.exp (x : Real) : Int :=
  match x with
  | .fin _ _ e => e
  | _ => 0

/-- A finite value as a multiple of 2^e, for e no larger than its exponent. -/
def Real.scaled (x : Real) (e : Int) : Int :=
  match x with
  | .fin neg m f => let n : Nat := m * 2 ^ (f - e).toNat; if neg then -(n : Int) else n
  | _ => 0

/-- Is the value a zero of this sign? -/
def Real.isZero (x : Real) (neg : Bool) : Bool :=
  match x with
  | .fin b m _ => m = 0 && b = neg
  | _ => false

/-- The finite sum of some values, rounded once; an exact zero takes its sign from R121. -/
def FloatFormat.sumFinite (k : FloatFormat) (rnd : Nat) (xs : List Real) : Nat × Flags :=
  let e := xs.foldl (fun acc x => min acc x.exp) (xs.headD (.fin false 0 0)).exp
  let total := xs.foldl (fun acc x => acc + x.scaled e) (0 : Int)
  if total = 0 then
    let neg := xs ≠ [] && xs.all (fun x => x.isZero true)
    let pos := xs.all (fun x => x.isZero false)
    (k.zero (if neg then true else if pos then false else rnd = 3), 0)
  else k.round rnd (total < 0) total.natAbs e

/-- The sum of some products and addends, rounded once (05 R115, R120, R121; 08 R202, R208). `xs` holds none for a product
of 0 and an infinity. -/
def FloatFormat.sum (k : FloatFormat) (rnd : Nat) (xs : List (Option Real)) (snan : Bool) : Nat × Flags :=
  let vs := xs.filterMap id
  let invalid := xs.any (fun x => x.isNone) || snan || vs.any Real.isSNaN
    || (vs.any (fun x => x.isInf false) && vs.any (fun x => x.isInf true))
  if invalid then (k.nan, flagNV)
  else if vs.any Real.isNaN then (k.nan, 0)
  else if vs.any (fun x => x.isInf false) then (k.inf false, 0)
  else if vs.any (fun x => x.isInf true) then (k.inf true, 0)
  else k.sumFinite rnd vs

/-- A + B (08 R202). -/
def FloatFormat.add (k : FloatFormat) (rnd a b : Nat) : Nat × Flags := k.sum rnd [some (k.value a), some (k.value b)] false

/-- A − B (08 R202). -/
def FloatFormat.sub (k : FloatFormat) (rnd a b : Nat) : Nat × Flags :=
  k.sum rnd [some (k.value a), some (k.value b).neg] false

/-- The exact product alone, rounded: a zero keeps its own sign. -/
def FloatFormat.mul (k : FloatFormat) (rnd a b : Nat) : Nat × Flags := k.sum rnd [(k.value a).mul (k.value b)] false

/-- A × B + C with one rounding (08 R202). -/
def FloatFormat.fma (k : FloatFormat) (rnd a b c : Nat) : Nat × Flags :=
  k.sum rnd [(k.value a).mul (k.value b), some (k.value c)] false

/-! ### Quotients and roots -/

/-- The quotient m/n of magnitudes as a magnitude with `extra` bits more than needed and a sticky bit: (q, s) with
2 q + s the value in units of 2^(−k−1). -/
def quotient (m n k : Nat) : Nat := 2 * (m * 2 ^ k / n) + (if m * 2 ^ k % n = 0 then 0 else 1)

/-- A / B (08 R202). -/
def FloatFormat.div (k : FloatFormat) (rnd a b : Nat) : Nat × Flags :=
  match k.value a, k.value b with
  | .nan x, y => (k.nan, if x || y.isSNaN then flagNV else 0)
  | _, .nan y => (k.nan, if y then flagNV else 0)
  | .inf _, .inf _ => (k.nan, flagNV)
  | .inf x, .fin y _ _ => (k.inf (x != y), 0)
  | .fin x _ _, .inf y => (k.zero (x != y), 0)
  | .fin x m e, .fin y n f =>
    if n = 0 then if m = 0 then (k.nan, flagNV) else (k.inf (x != y), flagDZ)
    else if m = 0 then (k.zero (x != y), 0)
    else
      let sh := k.fbits + 4 + Nat.log2 n
      k.round rnd (x != y) (quotient m n sh) (e - f - sh - 1)

/-- The largest r with r² ≤ x, found from bit `bits − 1` down. -/
def isqrtFrom (bits x r : Nat) : Nat :=
  match bits with
  | 0 => r
  | n + 1 =>
    let r' := r + 2 ^ n
    isqrtFrom n x (if r' * r' ≤ x then r' else r)

/-- The integer square root. -/
def isqrt (x : Nat) : Nat := isqrtFrom (Nat.log2 x / 2 + 1) x 0

/-- A magnitude with an even exponent. -/
def evenExp (m : Nat) (e : Int) : Nat × Int := if e % 2 = 0 then (m, e) else (2 * m, e - 1)

/-- √A (08 R202). -/
def FloatFormat.sqrt (k : FloatFormat) (rnd a : Nat) : Nat × Flags :=
  match k.value a with
  | .nan x => (k.nan, if x then flagNV else 0)
  | .inf neg => if neg then (k.nan, flagNV) else (k.inf false, 0)
  | .fin neg m e =>
    if m = 0 then (k.zero neg, 0)
    else if neg then (k.nan, flagNV)
    else
      let x := evenExp m e
      let j := k.fbits + 4
      let n := x.1 * 4 ^ j
      let r := isqrt n
      k.round rnd false (2 * r + (if r * r = n then 0 else 1)) (x.2 / 2 - j - 1)

/-- 1/√A, correctly rounded, with the special operands of R205. -/
def FloatFormat.rsqrt (k : FloatFormat) (rnd a : Nat) : Nat × Flags :=
  match k.value a with
  | .nan x => (k.nan, if x then flagNV else 0)
  | .inf neg => if neg then (k.nan, flagNV) else (k.zero false, 0)
  | .fin neg m e =>
    if m = 0 then (k.inf neg, flagDZ)
    else if neg then (k.nan, flagNV)
    else
      let x := evenExp m e
      let j := k.fbits + 4 + Nat.log2 x.1
      let r := isqrt (4 ^ j / x.1)
      k.round rnd false (2 * r + (if r * r * x.1 = 4 ^ j then 0 else 1)) (-(x.2 / 2) - j - 1)

/-- 1/A, correctly rounded, with the special operands of R205. -/
def FloatFormat.recip (k : FloatFormat) (rnd a : Nat) : Nat × Flags := k.div rnd (k.bias * 2 ^ k.fbits) a

/-- A × 2^B (08 R202). -/
def FloatFormat.scale (k : FloatFormat) (rnd a : Nat) (b : Int) : Nat × Flags :=
  match k.value a with
  | .nan x => (k.nan, if x then flagNV else 0)
  | .inf neg => (k.inf neg, 0)
  | .fin neg m e => if m = 0 then (k.zero neg, 0) else k.round rnd neg m (e + b)

/-- A rounded to an integral value in the format (08 R202). -/
def FloatFormat.toIntegral (k : FloatFormat) (rnd a : Nat) : Nat × Flags :=
  match k.value a with
  | .nan x => (k.nan, if x then flagNV else 0)
  | .inf neg => (k.inf neg, 0)
  | .fin neg m e =>
    let n := roundAt rnd neg m e 0
    if m = 0 || 0 ≤ e then (a, 0)
    else
      let exact := (splitAt m e 0).2 = 0
      (if n = 0 then k.zero neg else (k.round rnd neg n 0).1, if exact then 0 else flagNX)

/-! ### Order (08 R200, R203) -/

/-- The order of two values that are not NaNs: −1, 0 or 1, with −0 equal to +0. -/
def Real.cmp (x y : Real) : Int :=
  match x, y with
  | .inf a, .inf b => if a = b then 0 else if a then -1 else 1
  | .inf a, _ => if a then -1 else 1
  | _, .inf b => if b then 1 else -1
  | _, _ =>
    let e := min x.exp y.exp
    let d := x.scaled e - y.scaled e
    if d < 0 then -1 else if d = 0 then 0 else 1

/-- The smaller (`wantMax` false) or larger operand (08 R203): −0 below +0, a NaN gives way to a number. -/
def FloatFormat.minMax (k : FloatFormat) (wantMax : Bool) (a b : Nat) : Nat × Flags :=
  let x := k.value a
  let y := k.value b
  let nv : Flags := if x.isSNaN || y.isSNaN then flagNV else 0
  let a := a % (2 * k.signBit)
  let b := b % (2 * k.signBit)
  if x.isNaN && y.isNaN then (k.nan, nv)
  else if x.isNaN then (b, nv)
  else if y.isNaN then (a, nv)
  else
    let c := x.cmp y
    let aLess := c < 0 || (c = 0 && k.signBit ≤ a)
    (if aLess != wantMax then a else b, nv)

/-- The condition of fcmp and whether it raises NV (08 R200). -/
def FloatFormat.compare (k : FloatFormat) (cond a b : Nat) : Bool × Flags :=
  let x := k.value a
  let y := k.value b
  let un := x.isNaN || y.isNaN
  let c := x.cmp y
  let s := x.isSNaN || y.isSNaN
  let quiet : Flags := if s then flagNV else 0
  let loud : Flags := if un then flagNV else 0
  match cond with
  | 0 => (!un && c = 0, quiet)
  | 1 => (un || c ≠ 0, quiet)
  | 2 => (!un && c < 0, loud)
  | 3 => (!un && c ≤ 0, loud)
  | 4 => (!un && 0 < c, loud)
  | 5 => (!un && 0 ≤ c, loud)
  | 6 => (!un, quiet)
  | _ => (un, quiet)

/-- The class bit of fclass (08 R204). -/
def FloatFormat.classBit (k : FloatFormat) (a : Nat) : Nat :=
  match k.value a with
  | .nan s => if s then 8 else 9
  | .inf neg => if neg then 0 else 7
  | .fin neg m _ =>
    if m = 0 then if neg then 3 else 4
    else if m < 2 ^ k.fbits then if neg then 2 else 5
    else if neg then 1 else 6

/-! ### Conversions (05 R120, 08 R209) -/

/-- A value in a floating format, rounded by RND; a NaN becomes the canonical NaN. -/
def FloatFormat.ofReal (k : FloatFormat) (rnd : Nat) (x : Real) : Nat × Flags :=
  match x with
  | .nan s => (k.nan, if s then flagNV else 0)
  | .inf neg => (k.inf neg, 0)
  | .fin neg m e => if m = 0 then (k.zero neg, 0) else k.round rnd neg m e

/-- A value as an integer of a type, rounded by RND and saturated, with the flags of R120. -/
def intOfReal (w : Nat) (signed : Bool) (rnd : Nat) (x : Real) : Int × Flags :=
  let lo := typeMin w signed
  let hi := typeMax w signed
  match x with
  | .nan _ => (0, flagNV)
  | .inf neg => (if neg then lo else hi, flagNV)
  | .fin neg m e =>
    if 70 < (Nat.log2 m : Int) + e && m ≠ 0 then (if neg then lo else hi, flagNV)
    else
      let n : Nat := roundAt rnd neg m e 0
      let v : Int := if neg then -(n : Int) else n
      if v < lo || hi < v then (satInt v lo hi, flagNV)
      else (v, if (splitAt m e 0).2 = 0 then 0 else flagNX)

/-- An integer as a value. -/
def realOfInt (x : Int) : Real := .fin (x < 0) x.natAbs 0

/-- Is a type code a floating type? -/
def floatType (t : Nat) : Bool := t = 0 || t = 9 || t = 10 || t = 11 || t = 12

/-- cvt and cvtt (08 R209): from type `src` to type `dst`, where code 0 is f32 unless `intDst` makes it s32 (cvtt).
f16 to bf16 is rounded under rne, with NX where fraction bits are lost, though the rule also calls it exact (DESIGN CHOICE, log
entry 94). -/
def convert (dst src : Nat) (intDst sat : Bool) (rnd : Nat) (a : DWord) : DWord × Flags :=
  let srcFloat := floatType src
  let dstFloat := floatType dst && !(intDst && dst = 0)
  if srcFloat then
    let x := (floatFormat src).value a.toNat
    if dstFloat then
      let r := (floatFormat dst).ofReal rnd x
      (BitVec.ofNat 64 r.1, r.2)
    else
      let r := intOfReal (typeBits dst) (typeSigned dst) rnd x
      (bitsOfInt (max 32 (typeBits dst)) r.1, r.2)
  else
    let n := intOf (typeBits src) (typeSigned src) a
    if dstFloat then
      let r := (floatFormat dst).ofReal rnd (realOfInt n)
      (BitVec.ofNat 64 r.1, r.2)
    else
      let w := typeBits dst
      let r := intOf w (typeSigned dst) (intResult w (typeSigned dst) sat n)
      (bitsOfInt (max 32 w) r, 0)

end Sys2Proof.Machine
end

