-- ==== Sys2Proof/Machine/Special.lean ====
section
/-! DEFINITION. The f32 special functions (08 R205, R206): the results that the spec states, and within its bounds a fixed
function that the spec leaves open. -/

namespace Sys2Proof.Machine

/-- The special functions. -/
inductive Special where
  | rcp
  | rsq
  | exp2
  | log2
  | sin
  | cos
  deriving DecidableEq, Repr

/-- The number of a function in `Config.special`. -/
def Special.code (f : Special) : Nat :=
  match f with
  | .rcp => 0
  | .rsq => 1
  | .exp2 => 2
  | .log2 => 3
  | .sin => 4
  | .cos => 5

/-! Values are approximated as multiples of 2^-512, far inside every bound. -/

/-- Fraction bits of the approximations. -/
def fixBits : Nat := 512

/-- π. -/
def fixPi : Int := 42121870893450636219446821484559388105255997313489254605594685088103805782276098919793885372247726346443771296916333485327292916625599161542353774203832599

/-- The natural logarithm of 2. -/
def fixLn2 : Int := 9293584264128987901384440660653081117630633404975079641076009770578364573633075645167623918067512986930843040596952636663673675798576024949780480621393957

/-- A product of approximations. -/
def fixMul (a b : Int) : Int := a * b / (2 ^ fixBits : Nat)

/-- The sum of a series: `n` terms from `term`, each the one before times `x` times `num i / den i`. -/
def fixSeries (n i : Nat) (x term acc : Int) (num den : Nat → Int) : Int :=
  match n with
  | 0 => acc
  | n + 1 =>
    let acc := acc + term
    fixSeries n (i + 1) x (fixMul term x * num i / den i) acc num den

/-- 1 as an approximation. -/
def fixOne : Int := (2 ^ fixBits : Nat)

/-- e^t for t from 0 to 1. -/
def fixExp (t : Int) : Int := fixSeries 120 1 t fixOne 0 (fun _ => 1) (fun i => i)

/-- sin t for t from 0 to 2π. -/
def fixSin (t : Int) : Int :=
  fixSeries 100 1 (fixMul t t) t 0 (fun _ => -1) (fun i => 2 * i * (2 * i + 1))

/-- cos t for t from 0 to 2π. -/
def fixCos (t : Int) : Int :=
  fixSeries 100 1 (fixMul t t) fixOne 0 (fun _ => -1) (fun i => (2 * i - 1) * (2 * i))

/-- The inverse hyperbolic tangent of z from 0 to 1/3: the sum of z^(2i+1) / (2i+1). -/
def fixAtanh (z : Int) : Int :=
  fixSeries 180 1 (fixMul z z) z 0 (fun i => 2 * i - 1) (fun i => 2 * i + 1)

/-- A magnitude m × 2^e as an approximation, rounded down. -/
def fixOf (m : Nat) (e : Int) : Int :=
  let sh := e + fixBits
  if 0 ≤ sh then ((m * 2 ^ sh.toNat : Nat) : Int) else ((m / 2 ^ (-sh).toNat : Nat) : Int)

/-- A finite operand as an approximation. -/
def fixOfSigned (neg : Bool) (m : Nat) (e : Int) : Int := if neg then -(fixOf m e) else fixOf m e

/-- The exact value of a function at a finite non-zero operand of its domain, as a multiple of 2^-512. -/
def Special.approx (f : Special) (neg : Bool) (m : Nat) (e : Int) : Int :=
  let top : Int := (Nat.log2 m : Int) + e
  match f with
  | .rcp =>
    let y := (2 ^ (fixBits + 200) : Nat) / m
    let x := fixOf y (-e - fixBits - 200)
    if neg then -x else x
  | .rsq =>
    let x := evenExp m e
    fixOf (isqrt (4 ^ (fixBits + 80) / x.1)) (-(x.2 / 2) - fixBits - 80)
  | .exp2 =>
    let a := fixOfSigned neg m e
    let i := a / fixOne
    let y := fixExp (fixMul (a - i * fixOne) fixLn2)
    if 200 < top then 0 else fixOf y.toNat (i - fixBits)
  | .log2 =>
    let u := fixOf m (-(Nat.log2 m : Int))
    let z := (u - fixOne) * fixOne / (u + fixOne)
    top * fixOne + 2 * fixAtanh z * fixOne / fixLn2
  | .sin => fixSin (fixOfSigned neg m e % (2 * fixPi))
  | .cos => fixCos (fixOfSigned neg m e % (2 * fixPi))

/-- The bound of R205 around a value. -/
def Special.bound (f : Special) (m : Nat) (e : Int) (y : Int) : Int :=
  let ulp (n : Nat) : Int := n * fixOf 1 (max ((Nat.log2 y.natAbs : Int) - fixBits) (-126) - 23)
  let half := (Nat.log2 m : Int) + e
  match f with
  | .rcp => ulp 1
  | .rsq => ulp 1
  | .exp2 => ulp 2
  | .log2 => if half = -1 || half = 0 then fixOf 1 (-22) else ulp 2
  | .sin => fixOf 1 (-21)
  | .cos => fixOf 1 (-21)

/-- Is the magnitude a power of 2? -/
def isPower (m : Nat) : Bool := m = 2 ^ Nat.log2 m

/-- The result of an exact case of R205, as sign, magnitude and exponent. -/
def Special.exact (f : Special) (neg : Bool) (m : Nat) (e : Int) : Option (Bool × Nat × Int) :=
  let top : Int := (Nat.log2 m : Int) + e
  match f with
  | .rcp => if isPower m && -127 ≤ top && top ≤ 126 then some (neg, 1, -top) else none
  | .rsq => if isPower m && top % 2 = 0 then some (false, 1, -(top / 2)) else none
  | .exp2 =>
    let x := splitAt m e 0
    let n : Int := if neg then -(x.1 : Int) else x.1
    if x.2 = 0 && -126 ≤ n && n ≤ 127 then some (false, 1, n) else none
  | .log2 => if isPower m then some (top < 0, top.natAbs, 0) else none
  | _ => none

/-- A computed result (08 R205, R206): a fixed finite value within the bound, which the spec leaves open. -/
def Special.delivered (f : Special) (bits : Word) (neg : Bool) (m : Nat) (e : Int) : Nat :=
  let y := f.approx neg m e
  let z := (Config.special f.code bits).toNat
  let near : Bool :=
    match f32Format.value z with
    | .fin zn zm ze => (fixOfSigned zn zm ze - y).natAbs ≤ (f.bound m e y).natAbs
    | _ => false
  if near then z else if y = 0 then 0 else (f32Format.round 1 (y < 0) y.natAbs (-fixBits)).1

/-- The special operands of R205; none for an operand whose result is computed. -/
def Special.table (f : Special) (x : Real) : Option (Nat × Flags) :=
  let k := f32Format
  let one := k.bias * 2 ^ k.fbits
  let invalid : Nat × Flags := (k.nan, flagNV)
  match x with
  | .nan s => some (k.nan, if s then flagNV else 0)
  | .inf neg =>
    some (match f with
      | .rcp => (k.zero neg, 0)
      | .rsq => if neg then invalid else (k.zero false, 0)
      | .exp2 => if neg then (k.zero false, 0) else (k.inf false, 0)
      | .log2 => if neg then invalid else (k.inf false, 0)
      | .sin => invalid
      | .cos => invalid)
  | .fin neg m _ =>
    if m = 0 then
      some (match f with
        | .rcp => (k.inf neg, flagDZ)
        | .rsq => (k.inf neg, flagDZ)
        | .exp2 => (one, 0)
        | .log2 => (k.inf true, flagDZ)
        | .sin => (k.zero neg, 0)
        | .cos => (one, 0))
    else if neg && (f = .rsq || f = .log2) then some invalid
    else none

/-- Does the result overflow (08 R205)? -/
def Special.overflows (f : Special) (neg : Bool) (m : Nat) (e : Int) : Bool :=
  let top : Int := (Nat.log2 m : Int) + e
  match f with
  | .exp2 => !neg && 7 ≤ top
  | .rcp => top < -128
  | _ => false

/-- A special function of f32 with its flags (08 R205). -/
def Special.eval (f : Special) (rnd : Nat) (a : Word) : Nat × Flags :=
  let x := f32Format.value a.toNat
  match f.table x, x with
  | some r, _ => r
  | none, .fin neg m e =>
    if f.overflows neg m e then f32Format.overflow rnd neg
    else
      match f.exact neg m e with
      | some r => if r.2.1 = 0 then (0, 0) else f32Format.round 0 r.1 r.2.1 r.2.2
      | none =>
        let z := f.delivered a neg m e
        let small := z % 2 ^ 31 < 2 ^ 23
        (z, if small then flagUF ||| flagNX else flagNX)
  | none, _ => (f32Format.nan, 0)

end Sys2Proof.Machine
end

