-- ==== Sys2Proof/Machine/Alu.lean ====
section
/-! DEFINITION. Operations lane by lane, with a register result or with predicates (07 R173; 08 R193, R200). -/

namespace Sys2Proof.Machine

/-- The value of an operand in a lane: one word, or a pair (03 R72). -/
def laneVal (ws : List Lanes) (l : Nat) : DWord := (ws.getD 1 Lanes.zero).at' l ++ (ws.getD 0 Lanes.zero).at' l

/-- Words of the register result; that of movxw goes to the register that its index names (07 R182). -/
def resultWords (op : Op) (f : LongFields) : Nat :=
  if op = .movxw then (shape op f).a.words else (shape op f).d.words

/-- Flags ORed where the instruction acts: into the lanes of 05 R129. -/
def Issue.withFlags (x : Issue) (lanes : Mask) (flags : List Flags) : Issue :=
  if x.acts then { x with s := x.s.modSelf (fun g => g.orFlags lanes (fun l => flags.getD l 0)) } else x

/-- A function of the lane evaluated in every lane, or once under U = 1 (07 R173; 05 R129). -/
def Issue.eval {α : Type} (x : Issue) (op : Op) (f : LongFields) (g : Nat → α) : List α :=
  if f.u && !laneWise op then List.replicate 32 (g x.s.self.gateLane) else (List.range 32).map g

/-- The instruction has issued, with `g l` the value and the flags of lane `l`. -/
def Issue.laneResult (x : Issue) (op : Op) (f : LongFields) (g : Nat → DWord × Flags) : State :=
  let out := x.eval op f g
  (x.withFlags x.flagLanes (out.map (·.2))).finish op f
    (wordsOfLanes (resultWords op f) (fun l => (out.getD l (0, 0)).1))

/-- An instruction whose result in a lane is a function of the values of A, B and C there (08 R193). -/
def State.laneOp (s : State) (op : Op) (f : LongFields) (g : DWord → DWord → DWord → DWord × Flags) :
    Host.Outcome State Fault Refusal :=
  s.finish (do
    let x ← s.prepare op f
    return x.laneResult op f (fun l => g (laneVal x.a l) (laneVal x.b l) (laneVal x.c l)))

/-- As `laneOp`, without flags. -/
def State.pureOp (s : State) (op : Op) (f : LongFields) (g : DWord → DWord → DWord → DWord) :
    Host.Outcome State Fault Refusal := s.laneOp op f (fun a b c => (g a b c, 0))

/-- The instruction has issued with predicates: `vals l` goes to predicate `p` of each lane in which it acts (07 R167). -/
def Issue.putPred (x : Issue) (p : Nat) (vals : Nat → Bool) : Issue :=
  { x with s := x.s.modSelf (fun g => g.setPred p x.lanes (Mask.ofFn vals)) }

/-- The penalised turn that an f64 instruction without a register result leaves (08 R195). -/
def Issue.owing (x : Issue) (op : Op) (f : LongFields) : Issue :=
  if isF64 op f then { x with s := x.s.modSelf (fun g => { g with owed := g.owed + 1 }) } else x

/-- A compare: its condition goes to predicate PD (08 R200). -/
def State.compareOp (s : State) (op : Op) (f : LongFields) (g : DWord → DWord → Bool × Flags) :
    Host.Outcome State Fault Refusal :=
  s.finish (do
    let x ← s.prepare op f
    let out := x.eval op f (fun l => g (laneVal x.a l) (laneVal x.b l))
    return ((x.withFlags x.flagLanes (out.map (·.2))).putPred f.pd (fun l => (out.getD l (false, 0)).1)
      |>.owing op f).finishPlain)

/-- A bare number as a result of up to 64 bits. -/
def num64 (n : Nat) : DWord := BitVec.ofNat 64 n

/-- A result of a floating operation as the value and flags of a lane. -/
def asLane (r : Nat × Flags) : DWord × Flags := (num64 r.1, r.2)

end Sys2Proof.Machine
end

