-- ==== Sys2Proof/Machine/Queues.lean ====
section
/-! DEFINITION. Command queues: doorbells, packets, their order and completion, and the hardware slots (18 R404-R417,
R423, R424). -/

namespace Sys2Proof.Machine

/-! ### Queue control blocks (R404) -/

/-- A run-list entry; none is valid after cold start (R406). -/
def State.runEntry (s : State) (q : Nat) : RunEntry := Table.get s.front.runList ⟨0, 0, false⟩ q

/-- What the front end keeps of a queue. -/
def State.frontQueue (s : State) (q : Nat) : FrontQueue :=
  Table.get s.front.queues ⟨[], [], [], [], false, false, []⟩ q

/-- The state with what the front end keeps of a queue changed. -/
def State.modQueue (s : State) (q : Nat) (f : FrontQueue → FrontQueue) : State :=
  s.modFront (fun x => { x with queues := Table.set x.queues q (f (s.frontQueue q)) })

/-- Is the queue attached to a hardware slot? -/
def State.isAttached (s : State) (q : Nat) : Bool := s.front.slots.any (fun e => e.2 = q)

/-- A field of a queue's QCB. -/
def State.qcbField (s : State) (q off n : Nat) : Nat := Memory.readNum s.mem ((s.runEntry q).qcb + off) n

/-- The state with a field of a queue's QCB written. -/
def State.setQcb (s : State) (q off n x : Nat) : State := s.writeMem ((s.runEntry q).qcb + off) n x

/-- A power of 2 from 16 to 2^20 (R404). -/
def validSize (n : Nat) : Bool := (List.range 17).any (fun i => n = 2 ^ (4 + i))

/-- May the QCB be mapped: SIZE, the alignment of RBASE, and CTX the entry's (R424)? -/
def State.qcbMaps (s : State) (q : Nat) : Bool :=
  validSize (s.qcbField q 8 4) && s.qcbField q 0 8 % 64 = 0 && s.qcbField q 0xC 1 = (s.runEntry q).ctx

/-- Are SIZE, RBASE and CTX of the QCB within R404, and CTX the entry's: RBASE lies in either half (06 R135)? -/
def State.qcbValid (s : State) (q : Nat) : Bool :=
  let base := s.qcbField q 0 8
  s.qcbMaps q && (base < 2 ^ 63 || bits base 63 56 = 0xFF)

/-- The queue's interrupt is raised. -/
def State.queueInterrupt (s : State) (q : Nat) : State :=
  s.interrupt (s.context (s.runEntry q).ctx).func (s.qcbField q 0xE 2)

/-- ERR and ERRIDX are set (R416). -/
def State.setErr (s : State) (q code index : Nat) : State := (s.setQcb q 0x29 1 code).setQcb q 0x30 8 index

/-- STATE of the QCB. -/
def State.qState (s : State) (q : Nat) : Nat := s.qcbField q 0x28 1

/-- STATE.ABORTED becomes 1 (R415). -/
def State.abortQueue (s : State) (q code index : Nat) : State :=
  ((s.setQcb q 0x28 1 (s.qState q ||| 2)).setErr q code index).queueInterrupt q

/-! ### Packets (R407-R409) -/

/-- TYPE, FLAGS.BARRIER, FLAGS.INTR and COMPL of a packet. -/
def Packet.type (p : Packet) : Nat := numAt p.bytes 0 1
def Packet.barrier (p : Packet) : Bool := (numAt p.bytes 1 1).testBit 0
def Packet.intr (p : Packet) : Bool := (numAt p.bytes 1 1).testBit 1
def Packet.compl (p : Packet) : DWord := BitVec.ofNat 64 (numAt p.bytes 8 8)

/-- ARG, ARG32 and a 64-bit field of the body. -/
def Packet.arg (p : Packet) : Nat := numAt p.bytes 2 2
def Packet.arg32 (p : Packet) : Nat := numAt p.bytes 4 4
def Packet.field (p : Packet) (off : Nat) : DWord := BitVec.ofNat 64 (numAt p.bytes off 8)

/-- Are the bytes [lo, hi) of a packet 0? -/
def Packet.zeros (p : Packet) (lo hi : Nat) : Bool := ((p.bytes.drop lo).take (hi - lo)).all (fun b => b = 0)

/-- Is an address 8-aligned? -/
def aligned8 (a : DWord) : Bool := a.toNat % 8 = 0

/-- Is the packet well formed (R409)? -/
def Packet.wellFormed (p : Packet) : Bool :=
  numAt p.bytes 1 1 < 4 && aligned8 p.compl &&
    match p.type with
    | 0 => p.arg = 0 && p.arg32 = 0 && p.zeros 0x10 64
    | 1 =>
      let gx := numAt p.bytes 0x20 4
      let gy := numAt p.bytes 0x24 2
      let gz := numAt p.bytes 0x26 2
      p.arg < 2 && p.zeros 0x30 64
        && (if p.arg = 1 then gx = 1 && gy = 1 && gz = 1 else 1 ≤ gx && 1 ≤ gy && 1 ≤ gz)
    | 2 =>
      let n := p.arg % 8
      1 ≤ n && n ≤ 6 && p.arg / 2 ^ (3 + 2 * n) = 0 && p.zeros (0x10 + 8 * n) 64
        && (barrierSignals p.bytes).all aligned8
    | 3 => p.arg < 2 && p.arg32 = 0 && p.zeros 0x20 64 && aligned8 (p.field 0x10)
    | 4 => p.arg = 0 && p.arg32 = 0 && p.zeros 0x28 64 && (p.field 0x20).toNat ≤ 2 ^ 40
    | 5 =>
      p.arg < 1024 && p.arg % 16 + p.arg / 16 % 16 ≤ 15 && p.arg32 = 0 && p.zeros 0x20 64 && aligned8 (p.field 0x10)
    | 6 =>
      p.arg < 2 && p.arg32 = 0 && p.zeros 0x20 64 && (p.field 0x10).toNat % 65536 = 0
        && (p.field 0x18).toNat % 65536 = 0 && (p.field 0x18) ≠ 0
    | 7 => p.arg < 2 && p.arg32 = 0 && p.zeros 0x38 64 && aligned8 (p.field 0x10)
    | _ => false

/-- The state with a packet of a queue changed. -/
def State.modPacket (s : State) (q index : Nat) (f : Packet → Packet) : State :=
  s.modQueue q (fun x => { x with packets := x.packets.map (fun p => if p.index = index then f p else p) })

/-- What a packet's access does about a miss: a page that the host has refused it is a fault (R407, R411-R414). -/
def State.queueRetry (s : State) (q index : Nat) (r : Retry) : Retry :=
  match r with
  | .wait (some page) => if (s.frontQueue q).refused.contains (index, page) then .fault .pageNotPresent else r
  | _ => r

/-- A packet waits for a page on the host path (R277), or for an ATS completion. -/
def State.queueWaits (s : State) (q index : Nat) (page : Option DWord) : State :=
  match page with
  | some p =>
    (s.requestPage (s.runEntry q).ctx p none (some q)).modQueue q (fun x =>
      { x with hostWait := ((index, p) :: x.hostWait).eraseDups })
  | none => s

/-- A read of a remote address uses its free values up (19 R435). -/
def State.usedRemote (s : State) (ctx : Nat) (va : DWord) : State :=
  if va.msb && ((s.context ctx).remoteOf va.toNat).isSome then s.useFresh else s

/-! ### Signals and completion (R411-R413) -/

/-- Adds to a signal, or stores it, as one step at its home (R412, R413). In the host half both are atomics. -/
def State.signal (s : State) (ctx : Nat) (va : DWord) (add : Bool) (val : DWord) : Except Retry State :=
  match s.spotsPlain ctx (if add || !va.msb then .atomic else .write) va 8 with
  | .error (a, m) => .error (m.retry a)
  | .ok ps =>
    let old := BitVec.ofNat 64 (numOfBytes (s.spotBytes ps))
    let new := if add then old + val else val
    .ok ((s.markDirty ctx va).writeSpots ps (bytesOfNum 8 new.toNat))

/-- A packet completes (R411): −1 is added to its signal when it succeeded, and stored when it failed or its queue is being
destroyed (R425), and the interrupt follows. A write that cannot be performed is skipped, with WRITE_FAULT unless the failure
has set another code. A complete packet does not complete again. -/
def State.finishWith (s : State) (q index : Nat) (ok intr coded : Bool) : State :=
  match (s.frontQueue q).packets.find? (fun p => p.index = index) with
  | none => s
  | some p =>
    if (match p.progress with | .done _ => true | _ => false) then s
    else
      let done (s : State) : State :=
        let s := s.modPacket q index (fun p => { p with progress := .done ok })
        if intr && p.intr then s.queueInterrupt q else s
      if p.compl = 0 then done s
      else
        let skipped := if coded then s else s.setErr q 11 index
        if !aligned8 p.compl then done skipped
        else
          match s.signal (s.runEntry q).ctx p.compl (ok && !(s.frontQueue q).destroying) (BitVec.allOnes 64) with
          | .ok s => done s
          | .error r =>
            match s.queueRetry q index r with
            | .fault _ => done skipped
            | .wait page =>
              (s.queueWaits q index page).modPacket q index (fun p => { p with progress := .finishing ok intr coded })

/-- As `finishWith`, for a packet that succeeds, or whose failure has set ERR. -/
def State.finishPacket (s : State) (q index : Nat) (ok intr : Bool) : State := s.finishWith q index ok intr (!ok)

/-- A packet waits no more for what its own accesses asked the host for: its completion write asks for its page anew (R411). -/
def State.forgetWaits (s : State) (q index : Nat) : State :=
  s.modQueue q (fun x =>
    { x with
      hostWait := x.hostWait.filter (fun e => e.1 ≠ index)
      refused := x.refused.filter (fun e => e.1 ≠ index) })

/-- A packet starts (R410): SIDX passes it. -/
def State.startPacket (s : State) (q index : Nat) : State :=
  (s.setQcb q 0x18 8 (index + 1)).modPacket q index (fun p => { p with progress := .started })

/-! ### Reading and ordering packets (R407, R410, R415, R417) -/

/-- Is the packet complete? -/
def Packet.complete (p : Packet) : Bool :=
  match p.progress with
  | .done _ => true
  | _ => false

/-- The first packet that has not started, if order lets it start (R410). -/
def startable (ps : List Packet) : Option Packet :=
  let before := ps.takeWhile (fun p => p.progress ≠ .waiting)
  match (ps.drop before.length).head? with
  | none => none
  | some p =>
    if before.any (fun x => !x.complete && (x.type = 2 || x.type = 5 || p.barrier)) then none else some p

/-- The event that performs a packet of a type. -/
def packetEvent (type q : Nat) : Instr :=
  let q := Fin.ofNat 1024 q
  match type with
  | 1 => .launchPacket q
  | 2 => .barrierPacket q
  | 3 => .signalPacket q
  | 4 => .copyPacket q
  | 5 => .predPacket q
  | 6 => .invalPacket q
  | 7 => .markerPacket q
  | _ => .nopPacket q

/-- Reads the next packet of an attached queue, if one is accepted within 16 of RIDX (R407). -/
def State.readPacket (s : State) (q : Nat) : State × Bool :=
  let f := s.frontQueue q
  let ridx := s.qcbField q 0x10 8
  let next := match f.packets.getLast? with
    | some p => p.index + 1
    | none => s.qcbField q 0x18 8
  if !s.isAttached q || f.stopping || f.hostWait.any (fun w => w.1 = next) || ridx + 16 ≤ next || s.qcbField q 0x20 8 ≤ next then (s, false)
  else
    let add (bytes : List Byte) (bad : Bool) : State :=
      s.modQueue q (fun x => { x with packets := x.packets ++ [⟨next, bytes, .waiting, bad⟩] })
    let va := BitVec.ofNat 64 (s.qcbField q 0 8 + 64 * (next % s.qcbField q 8 4))
    match s.readPlain (s.runEntry q).ctx va 64 with
    | .ok bytes => ((add bytes false).usedRemote (s.runEntry q).ctx va, true)
    | .error r =>
      match s.queueRetry q next r with
      | .fault _ => (add (List.replicate 64 0) true, true)
      | .wait page => (s.queueWaits q next page, false)

/-- Retires the oldest packet when it is complete (R410). -/
def State.retirePacket (s : State) (q : Nat) : State × Bool :=
  match (s.frontQueue q).packets with
  | [] => (s, false)
  | p :: rest =>
    if p.complete then
      ((s.setQcb q 0x10 8 (p.index + 1)).modQueue q (fun x => { x with packets := rest }), true)
    else (s, false)

/-- The packet at the point of starting, when the front end itself disposes of it: retired without effect after an abort
(R415), of an untaken arm (R417), malformed (R410, R415, R417), or of a queue that is being destroyed (R425). -/
def State.disposePacket (s : State) (q : Nat) : State × Bool :=
  let f := s.frontQueue q
  if f.stopping then (s, false)
  else
    match startable f.packets with
    | none => (s, false)
    | some p =>
      let arm := f.arms.find? (fun a => a.1 = p.index)
      if (s.qState q).testBit 1 || f.destroying then ((s.startPacket q p.index).finishWith q p.index false false false, true)
      else if arm.any (fun a => !a.2) then
        ((s.startPacket q p.index).modPacket q p.index (fun p => { p with progress := .done true }), true)
      else if p.bad || !p.wellFormed || (p.type = 5 && arm.isSome) then
        (((s.startPacket q p.index).abortQueue q 1 p.index).finishPacket q p.index false true, true)
      else (s, false)

/-- The completion writes that wait for a page are tried again (R411). -/
def State.retryFinish (s : State) (q : Nat) : State :=
  (s.frontQueue q).packets.foldl (fun s p =>
    match p.progress with
    | .finishing ok intr coded => s.finishWith q p.index ok intr coded
    | _ => s) s

/-- The front end brings a queue forward as far as it goes by itself, and makes the event due that performs the next
packet. -/
def State.pumpLoop (s : State) (q : Nat) : Nat → State
  | 0 => s
  | fuel + 1 =>
    let a := s.retirePacket q
    let b := a.1.disposePacket q
    let c := b.1.readPacket q
    if a.2 || b.2 || c.2 then c.1.pumpLoop q fuel
    else
      match startable (s.frontQueue q).packets with
      | some p => if (s.frontQueue q).stopping then s else s.due [packetEvent p.type q]
      | none => s

/-- Rounds enough for every packet of a queue to be read, disposed of and retired. -/
def State.pumpFuel (s : State) (q : Nat) : Nat :=
  4 * ((s.frontQueue q).packets.length + (s.qcbField q 0x20 8 + 2 ^ 64 - s.qcbField q 0x10 8) % 2 ^ 64) + 64

/-- As `pumpLoop` to its end, after the completion writes that waited. -/
def State.pump (s : State) (q : Nat) : State := (s.retryFinish q).pumpLoop q (s.pumpFuel q)

/-- The packet that an event of a type performs: a started one that waits, or the next that may start (R410). -/
def State.currentPacket (s : State) (q type : Nat) : Option (Packet × State) :=
  let f := s.frontQueue q
  match f.packets.find? (fun p => p.progress = .started && p.type = type && p.type ≠ 1) with
  | some p => some (p, s)
  | none =>
    if f.stopping || f.destroying || (s.qState q).testBit 1 then none
    else
      match startable f.packets with
      | none => none
      | some p =>
        let arm := f.arms.find? (fun a => a.1 = p.index)
        if p.type = type && !p.bad && p.wellFormed && !arm.any (fun a => !a.2) && !(type = 5 && arm.isSome) then
          some (p, s.startPacket q p.index)
        else none

/-! ### Doorbells (R405) and the run list (R406) -/

/-- A doorbell write to queue `q` through a function: 0 is the physical function and every party of the package. -/
def State.doorbell (s : State) (q : Nat) (n : DWord) (func : Nat) : State :=
  let e := s.runEntry q
  let size := s.qcbField q 8 4
  let since (off : Nat) : Nat := (n - BitVec.ofNat 64 (s.qcbField q off 8)).toNat
  if !e.valid || (func ≠ 0 && (s.context e.ctx).func ≠ func) || !s.qcbValid q || (s.qState q).testBit 0
      || (s.qState q).testBit 2 then s
  else if size < since 0x10 || size < since 0x20 then
    ((s.setQcb q 0x28 1 (s.qState q ||| 1)).setErr q 9 n.toNat).queueInterrupt q
  else if since 0x20 = 0 then s
  else
    let s := s.setQcb q 0x20 8 n.toNat
    if s.isAttached q then s.pump q else s

/-- A write of one whole run-list entry; one attached to a slot is not changed (R406). -/
def State.writeRunList (s : State) (q : Nat) (val : Nat) : State :=
  if s.isAttached q then s
  else s.modFront (fun f =>
    { f with runList := Table.set f.runList q ⟨bits val 47 7 * 128, bits val 6 1, val.testBit 0⟩ })

/-! ### Hardware slots (R423, R424) -/

/-- The operation of HQCMD ends, refused or not. -/
def State.hqDone (s : State) (refused : Bool) : State :=
  s.modFront (fun f => { f with hqBusy := false, hqRefused := refused })

/-- May the queue be mapped (R406, R424)? -/
def State.mappable (s : State) (q : Nat) : Bool := (s.runEntry q).valid && !s.isAttached q && s.qcbMaps q

/-- MAP (R424). -/
def State.mapQueue (s : State) (slot q : Nat) : State :=
  if (Table.find s.front.slots slot).isSome || !s.mappable q then s.hqDone true
  else
    let s := (s.modFront (fun f =>
      { f with slots := Table.set f.slots slot q, hqQcb := (s.runEntry q).qcb })).modQueue q
        (fun x => { x with stopping := false })
    (s.hqDone false).pump q

/-- A queue with what packets of it wait for, and what the host has refused them, and nothing of others'. -/
def FrontQueue.waitsOf (x : FrontQueue) (kept : List Packet) : FrontQueue :=
  let mine (w : Nat × DWord) : Bool := kept.any (fun p => p.index = w.1)
  { x with hostWait := x.hostWait.filter mine, refused := x.refused.filter mine }

/-- No further packet of the queue starts: unstarted packets are discarded, and a BARRIER or PRED that has not completed is
abandoned, to start again at the next MAP (R424). -/
def State.stopQueue (s : State) (q : Nat) : State :=
  let f := s.frontQueue q
  let kept := f.packets.filter (fun p => p.progress ≠ .waiting && (p.complete || (p.type ≠ 2 && p.type ≠ 5)))
  let back := (f.packets.filter (fun p => !p.complete && p.progress ≠ .waiting && (p.type = 2 || p.type = 5))).head?
  let s := match back with
    | some p => s.setQcb q 0x18 8 p.index
    | none => s
  s.modQueue q (fun x => { (x.waitsOf kept) with packets := kept, stopping := true })

/-- Is a started SIGNAL, COPY, INVAL or MARKER of the queue not complete? -/
def State.queueBusy (s : State) (q : Nat) : Bool :=
  (s.frontQueue q).packets.any (fun p => !p.complete && p.type ≠ 1)

/-- The queue leaves its slot. -/
def State.detach (s : State) (slot : Nat) : State := s.modFront (fun f => { f with slots := Table.erase f.slots slot })

/-- A stopped queue with its complete packets retired (R410). -/
def State.retireAll (s : State) (q : Nat) : State := s.pumpLoop q ((s.frontQueue q).packets.length + 1)

/-- UNMAP with MODE 0 (R424), which waits for started packets other than launches. -/
def State.unmapSuspend (s : State) (slot : Nat) : State :=
  match Table.find s.front.slots slot with
  | none => s.hqDone true
  | some q =>
    let s := (s.stopQueue q).retryFinish q
    if s.queueBusy q then s.due [Instr.unmapSuspend (Fin.ofNat 128 slot)]
    else ((s.retireAll q).detach slot).hqDone false

/-- SWITCH (R424): UNMAP with MODE 0 and MAP in one operation; it is ignored when either part would be as it begins. -/
def State.switchQueue (s : State) (slot q : Nat) : State :=
  match Table.find s.front.slots slot with
  | none => s.hqDone true
  | some old =>
    if !(s.frontQueue old).stopping && !(s.detach slot).mappable q then s.hqDone true
    else
      let s := (s.stopQueue old).retryFinish old
      if s.queueBusy old then s.due [Instr.switch (Fin.ofNat 128 slot) (Fin.ofNat 1024 q)]
      else ((s.retireAll old).detach slot).mapQueue slot q

/-- A write of HQCMD (R423): the operation becomes due. -/
def State.writeHqCmd (s : State) (val : Nat) : State :=
  if s.front.hqBusy then s
  else
    let op := bits val 27 26
    let slot := bits val 23 17
    let q := bits val 16 7
    let set (busy : Bool) : State :=
      s.modFront (fun f => { f with hqBusy := busy, hqOp := op, hqMode := val.testBit 25, hqSlot := slot, hqQueue := q })
    match op with
    | 0 => (set true).due [Instr.map (Fin.ofNat 128 slot) (Fin.ofNat 1024 q)]
    | 1 => (set true).due [if val.testBit 25 then Instr.unmapDestroy (Fin.ofNat 128 slot) else Instr.unmapSuspend (Fin.ofNat 128 slot)]
    | 2 => (set true).due [Instr.switch (Fin.ofNat 128 slot) (Fin.ofNat 1024 q)]
    | _ => set false

/-! ### Packets other than LAUNCH (R411-R417) -/

/-- NOP completes at its start. -/
def State.nopPacket (s : State) (q : Nat) : State :=
  match s.currentPacket q 0 with
  | none => s
  | some (p, s) => (s.finishPacket q p.index true true).pump q

/-- A packet fails with an ERR that does not abort the queue (R412, R415). Its completion write asks for its page anew. -/
def State.failPacket (s : State) (q index code : Nat) : State :=
  (((s.forgetWaits q index).setErr q code index).finishPacket q index false true).pump q

/-- A packet waits for a page or a completion; its event is tried again. -/
def State.packetWaits (s : State) (q index : Nat) (page : Option DWord) (again : Instr) : State :=
  match page with
  | some _ => s.queueWaits q index page
  | none => s.due [again]

/-- SIGNAL (R412). -/
def State.signalPacket (s : State) (q : Nat) : State :=
  match s.currentPacket q 3 with
  | none => s
  | some (p, s) =>
    match s.signal (s.runEntry q).ctx (p.field 0x10) (p.arg = 1) (p.field 0x18) with
    | .ok s => (s.finishPacket q p.index true true).pump q
    | .error r =>
      match s.queueRetry q p.index r with
      | .fault _ => s.failPacket q p.index 11
      | .wait page => s.packetWaits q p.index page (packetEvent 3 q)

/-- COPY starts (R412). -/
def State.copyPacket (s : State) (q : Nat) : State :=
  match s.currentPacket q 4 with
  | none => s
  | some (p, s) => (s.pump q).due [Instr.copyComplete (Fin.ofNat 1024 q) (BitVec.ofNat 64 p.index)]

/-- The spots of a range up to its first fault, and what ended it. -/
def State.spotsUpTo (s : State) (ctx : Nat) (k : AccessKind) (va : DWord) (n : Nat) : List Spot × Option Retry :=
  (chunksOf va n).foldl (fun acc c =>
    match acc.2 with
    | some _ => acc
    | none =>
      match s.spotsPlain ctx k c.1 c.2 with
      | .ok ps => (acc.1 ++ ps, none)
      | .error (a, m) => (acc.1, some (m.retry a))) ([], none)

/-- COPY is performed (R412): after every page has a translation, the bytes are written up to the first fault. A line that takes a
byte of a poisoned line is poisoned (20 R454). -/
def State.copyComplete (s : State) (q index : Nat) : State :=
  match (s.frontQueue q).packets.find? (fun p => p.index = index && p.progress = .started && p.type = 4) with
  | none => s
  | some p =>
    let ctx := (s.runEntry q).ctx
    let n := (p.field 0x20).toNat
    let src := s.spotsUpTo ctx .read (p.field 0x10) n
    let dst := s.spotsUpTo ctx .write (p.field 0x18) n
    let stop (x : Option Retry) : Option Retry := x.map (s.queueRetry q index)
    match stop src.2, stop dst.2 with
    | some (.wait page), _ => s.packetWaits q index page (Instr.copyComplete (Fin.ofNat 1024 q) (BitVec.ofNat 64 index))
    | _, some (.wait page) => s.packetWaits q index page (Instr.copyComplete (Fin.ofNat 1024 q) (BitVec.ofNat 64 index))
    | a, b =>
      let m := min src.1.length dst.1.length
      let s := (chunksOf (p.field 0x18) m).foldl (fun s c => s.markDirty ctx c.1) s
      let bad := spotLines (((src.1.zip dst.1).filter (fun x => s.spotPoison [x.1])).map (·.2))
      let s := ((s.writeSpots (dst.1.take m) (s.spotBytes (src.1.take m))).readRemote src.1).poisonLines bad
      if a.isSome || b.isSome then s.failPacket q index 7 else (s.finishPacket q index true true).pump q

/-- Does a value meet a condition code against another (R409)? -/
def condHolds (code : Nat) (a b : DWord) : Bool :=
  match code with
  | 0 => a = b
  | 1 => a ≠ b
  | 2 => a.toInt < b.toInt
  | _ => b.toInt ≤ a.toInt

/-- What the reads of a BARRIER's signals come to, in their order (R414): none where the packet fails, at the first that is
negative or met a fault; the wait of the first that is not answered; or every value. -/
def barrierValues (reads : List (Except Retry DWord)) : Option (Except (Option DWord) (List DWord)) :=
  match reads with
  | [] => some (.ok [])
  | .error (.fault _) :: _ => none
  | .error (.wait page) :: _ => some (.error page)
  | .ok x :: rest =>
    if x.msb then none
    else
      match barrierValues rest with
      | some (.ok xs) => some (.ok (x :: xs))
      | y => y

/-- Is a write to a signal seen at its home slice, so that it makes an evaluation due (R414)? -/
def State.signalWatched (s : State) (ctx : Nat) (va : DWord) : Bool :=
  match s.signalPa ctx va with
  | some pa => placeOf pa = .mem pa
  | none => false

/-- One evaluation of a started BARRIER (R414). -/
def State.evaluateBarrier (s : State) (q : Nat) : State :=
  match (s.frontQueue q).packets.find? (fun p => p.progress = .started && p.type = 2) with
  | none => s
  | some p =>
    let ctx := (s.runEntry q).ctx
    let v : DWord := (BitVec.ofNat 32 p.arg32).signExtend 64
    let reads : List (Except Retry DWord) := (barrierSignals p.bytes).map (fun va =>
      match s.readPlain ctx va 8 with
      | .ok bs => .ok (BitVec.ofNat 64 (numOfBytes bs))
      | .error x => .error (s.queueRetry q p.index x))
    let again := Instr.barrierEvaluation (Fin.ofNat 1024 q)
    let s := (barrierSignals p.bytes).foldl (fun s va => s.usedRemote ctx va) s
    match barrierValues reads with
    | none => (((s.forgetWaits q p.index).abortQueue q 10 p.index).finishPacket q p.index false true).pump q
    | some (.error page) => s.packetWaits q p.index page again
    | some (.ok values) =>
      if ((List.range values.length).zip values).all (fun kx => condHolds (p.arg / 2 ^ (3 + 2 * kx.1) % 4) kx.2 v) then
        (s.finishPacket q p.index true true).pump q
      else if (barrierSignals p.bytes).any (fun va => !s.signalWatched ctx va) then s.due [again]
      else s

/-- BARRIER evaluates when it starts (R414). -/
def State.barrierPacket (s : State) (q : Nat) : State :=
  match s.currentPacket q 2 with
  | none => s
  | some (_, s) => s.evaluateBarrier q

/-- PRED (R417): the packets of its arms, by index, with whether they are taken. -/
def predArms (p : Packet) (taken : Option Bool) : List (Nat × Bool) :=
  let t := p.arg % 16
  let f := p.arg / 16 % 16
  (List.range t).map (fun i => (p.index + 1 + i, decide (taken = some true)))
    ++ (List.range f).map (fun i => (p.index + 1 + t + i, decide (taken = some false)))

/-- PRED (R417). -/
def State.predPacket (s : State) (q : Nat) : State :=
  match s.currentPacket q 5 with
  | none => s
  | some (p, s) =>
    let arms (s : State) (taken : Option Bool) : State := s.modQueue q (fun x => { x with arms := predArms p taken })
    match s.readPlain (s.runEntry q).ctx (p.field 0x10) 8 with
    | .ok bs =>
      let s := s.usedRemote (s.runEntry q).ctx (p.field 0x10)
      let hold := condHolds (p.arg / 256 % 4) (BitVec.ofNat 64 (numOfBytes bs)) (p.field 0x18)
      ((arms s (some hold)).finishPacket q p.index true true).pump q
    | .error r =>
      match s.queueRetry q p.index r with
      | .fault _ => (arms s none).failPacket q p.index 8
      | .wait page => s.packetWaits q p.index page (packetEvent 5 q)

/-- A shootdown starts (11 R278). -/
def State.startShootdown (s : State) (ctx lo hi : Nat) (group : Option GroupRef) (packet : Option (Nat × Nat)) : State :=
  let id := s.fresh
  let x : Shootdown := { id := id, ctx := ctx, lo := lo, hi := hi, group := group, packet := packet }
  ({ s.useFresh with shootdowns := s.shootdowns ++ [x] }).due [Instr.shootdownComplete id]

/-- INVAL performs a shootdown (R412), once. -/
def State.invalPacket (s : State) (q : Nat) : State :=
  match s.currentPacket q 6 with
  | none => s
  | some (p, t) =>
    if p.progress = .started then s
    else
    let s := t
    let lo := (p.field 0x10).toNat
    let range := if p.arg = 1 then (0, 2 ^ 64) else (lo, lo + (p.field 0x18).toNat)
    (s.startShootdown (s.runEntry q).ctx range.1 range.2 none (some (q, p.index))).pump q

/-- MARKER (R412); it waits while the log has no room (R452). -/
def State.markerPacket (s : State) (q : Nat) : State :=
  match s.currentPacket q 7 with
  | none => s
  | some (p, s) =>
    let ctx := (s.runEntry q).ctx
    let audit (s : State) : State :=
      if p.arg = 1 then s.auditEntry 0x200 ctx 3 ((p.bytes.drop 0x18).take 32) else s
    if p.arg = 1 && s.security.full then s.due [packetEvent 7 q]
    else if p.field 0x10 = 0 then ((audit s).finishPacket q p.index true true).pump q
    else
      match s.writePlain ctx (p.field 0x10) (bytesOfNum 8 s.time) with
      | .ok s => ((audit s).finishPacket q p.index true true).pump q
      | .error r =>
        match s.queueRetry q p.index r with
        | .fault _ => s.failPacket q p.index 11
        | .wait page => s.packetWaits q p.index page (packetEvent 7 q)

end Sys2Proof.Machine
end

