-- ==== Sys2Proof/Machine/Launches.lean ====
section
/-! DEFINITION. Kernel headers, launches and their stage queues (03 R93-R98; 17 R386-R389; 18 R418-R421; 19 R436,
R437). -/

namespace Sys2Proof.Machine

/-! ### Kernel headers (03 R93-R98) -/

/-- Are the bytes [lo, hi) of a record 0? -/
def zerosAt (bs : List Byte) (lo hi : Nat) : Bool := ((bs.drop lo).take (hi - lo)).all (fun b => b = 0)

/-- The n64 fields of a table read from memory, in an access that may wait or fail. -/
def readTables (s : State) (ctx : Nat) (base : DWord) (off n : Nat) : Except Retry (List Byte) :=
  s.readPlain ctx (base + BitVec.ofNat 64 off) n

/-- The `n` entries of a table of `size`-byte entries. -/
def entriesOf (bs : List Byte) (size n : Nat) : List (List Byte) :=
  (List.range n).map (fun i => (bs.drop (size * i)).take size)

/-- A stage entry (R94). -/
def stageOf (e : List Byte) : StageEntry :=
  { capacity := numAt e 0 4, varBase := numAt e 4 1, varCount := numAt e 5 1
    carry := ((e.drop 8).take (numAt e 6 1)).map (·.toNat) }

/-- A variant entry (R95). -/
def variantOf (e : List Byte) : VariantEntry :=
  { limit := BitVec.ofNat 32 (numAt e 0 4), entry := numAt e 4 4, foot := numAt e 8 1, groups := numAt e 9 1
    scratch := numAt e 12 4 }

/-- A region entry (R96). -/
def regionOfEntry (e : List Byte) : RegionEntry :=
  { region := numAt e 0 1, numIn := numAt e 1 1, numOut := numAt e 2 1, body := numAt e 4 4, close := numAt e 8 4 }

/-- Is a stage entry within R94? -/
def stageValid (e : List Byte) (nvar moored : Nat) : Bool :=
  let st := stageOf e
  1 ≤ st.capacity && st.capacity ≤ 16777216 && 1 ≤ st.varCount && st.varCount ≤ 4 && st.varBase + st.varCount ≤ nvar
    && numAt e 6 1 ≤ 16 && numAt e 7 1 = 0 && zerosAt e (8 + numAt e 6 1) 32
    && st.carry.all (fun r => r < 240 + moored)

/-- Is a variant entry within R95? -/
def variantValid (e : List Byte) (peak team scratch textLen : Nat) : Bool :=
  let v := variantOf e
  v.entry % 4 = 0 && v.entry < textLen && v.foot ≤ 60 && v.foot ≤ peak && 1 ≤ v.groups && v.groups ≤ 32
    && v.groups ≤ team && v.scratch % 128 = 0 && v.scratch ≤ scratch && zerosAt e 10 12 && zerosAt e 16 32

/-- Is a region entry within R96? -/
def regionValid (e : List Byte) : Bool :=
  let r := regionOfEntry e
  r.region < 64 && 1 ≤ r.numIn && r.numIn ≤ 8 && 1 ≤ r.numOut && r.numOut ≤ 8 && zerosAt e 3 4 && zerosAt e 12 16

/-- Do two byte ranges overlap? -/
def overlap (a b : Nat × Nat) : Bool := a.1 < b.1 + b.2 && b.1 < a.1 + a.2

/-- Are the ranges pairwise disjoint? An empty one meets none (DEDUCED, log entry 79). -/
def disjoint (rs : List (Nat × Nat)) : Bool :=
  match rs with
  | [] => true
  | r :: rest => rest.all (fun x => !overlap r x || r.2 = 0 || x.2 = 0) && disjoint rest

/-- The further conditions on a header of decode mode 8 or 7 (04 R100). -/
def legacyValid (h : List Byte) : Bool :=
  let decode := numAt h 4 1
  decode = 9 || (numAt h 8 1 = (if decode = 8 then 60 else 32) && numAt h 9 1 = (if decode = 8 then 16 else 0)
    && numAt h 0x15 1 = 1 && numAt h 0x16 1 = 1 && numAt h 0x17 1 = 0 && numAt h 0xA 1 = 0 && numAt h 0xB 1 = 0
    && (decode = 8 || numAt h 6 2 = 0))

/-- Is the header within R93 and consistent with its tables (R94-R97)? Without data DATAOFF is 0 (DEDUCED, log entry 79). -/
def headerValid (code : DWord) (h stages variants regions : List Byte) : Bool :=
  let decode := numAt h 4 1
  let scratch := numAt h 0xC 4
  let nstage := numAt h 0x15 1
  let nvar := numAt h 0x16 1
  let nregion := numAt h 0x17 1
  let textLen := numAt h 0x18 4
  let ranges := [(0, 256), (numAt h 0x20 4, 32 * nstage), (numAt h 0x24 4, 32 * nvar), (numAt h 0x28 4, 16 * nregion)
    , (numAt h 0x1C 4, textLen)]
  let dataOff := numAt h 0x2C 4
  let hasData := numAt h 0x30 4 ≠ 0
  let ss := entriesOf stages 32 nstage
  let vs := entriesOf variants 32 nvar
  let rs := entriesOf regions 16 nregion
  numAt h 0 4 = 0x394B5A47 && 7 ≤ decode && decode ≤ 9 && decode ≤ numAt h 5 1 && numAt h 6 2 < 2
    && numAt h 8 1 ≤ 60 && numAt h 9 1 ≤ 16 && numAt h 0xA 1 ≤ 64 && numAt h 0xB 1 ≤ 16
    && scratch % 128 = 0 && scratch ≤ 1572864 && numAt h 0x10 4 % 16 = 0 && numAt h 0x10 4 ≤ 65536
    && 1 ≤ numAt h 0x14 1 && numAt h 0x14 1 ≤ 32 && 1 ≤ nstage && nstage ≤ 8 && 1 ≤ nvar && nvar ≤ 32 && nregion ≤ 64
    && textLen % 4 = 0 && numAt h 0x1C 4 % 256 = 0 && numAt h 0x20 4 % 32 = 0 && numAt h 0x24 4 % 32 = 0
    && numAt h 0x28 4 % 16 = 0 && (if hasData then dataOff % 65536 = 0 && dataOff ≠ 0 else dataOff = 0)
    && zerosAt h 0x34 256
    && ss.all (fun e => stageValid e nvar (numAt h 9 1))
    && vs.all (fun e => variantValid e (numAt h 8 1) (numAt h 0x14 1) scratch textLen)
    && rs.all regionValid && decide (rs.map (fun e => numAt e 0 1)).Nodup
    && disjoint ranges && (!hasData || ranges.all (fun r => r.1 + r.2 ≤ dataOff))
    && code.toNat % (if hasData then 65536 else 256) = 0 && legacyValid h

/-- A header as the front end keeps it. In a legacy mode the footprint is PEAKFOOT (04 R101). -/
def headerOf (h stages variants regions : List Byte) : Header :=
  { decode := numAt h 4 1, feature := numAt h 5 1, strict := (numAt h 6 2).testBit 0, peakFoot := numAt h 8 1
    moored := numAt h 9 1, berths := numAt h 0xA 1, rings := numAt h 0xB 1, scratch := numAt h 0xC 4
    stack := numAt h 0x10 4, team := numAt h 0x14 1, textLen := numAt h 0x18 4, textOff := numAt h 0x1C 4
    stages := (entriesOf stages 32 (numAt h 0x15 1)).map stageOf
    variants := (entriesOf variants 32 (numAt h 0x16 1)).map (fun e =>
      { variantOf e with foot := if numAt h 4 1 = 9 then (variantOf e).foot else numAt h 8 1 })
    regions := (entriesOf regions 16 (numAt h 0x17 1)).map regionOfEntry }

/-- Why a LAUNCH does not start: it waits, or it fails with an ERR code (18 R416, R419). -/
inductive LaunchStop where
  | wait (page : Option DWord)
  | fail (code : Nat)
  deriving DecidableEq, Repr

/-- A read of the launch's checks: a fault or a refusal fails with the code. -/
def State.launchRead (s : State) (q index : Nat) (va : DWord) (n code : Nat) : Except LaunchStop (List Byte) :=
  match s.readPlain (s.runEntry q).ctx va n with
  | .ok bs => .ok bs
  | .error r =>
    match s.queueRetry q index r with
    | .wait page => .error (.wait page)
    | .fault _ => .error (.fail code)

/-- A check of a launch. -/
def launchCheck (b : Bool) (code : Nat) : Except LaunchStop Unit := if b then .ok () else .error (.fail code)

/-- The header checks of R98, with ERR 3 and 4. -/
def State.readHeader (s : State) (q index : Nat) (code : DWord) : Except LaunchStop Header := do
  let h ← s.launchRead q index code 256 3
  let at_ (off : Nat) : DWord := code + BitVec.ofNat 64 off
  let stages ← s.launchRead q index (at_ (numAt h 0x20 4)) (32 * numAt h 0x15 1) 3
  let variants ← s.launchRead q index (at_ (numAt h 0x24 4)) (32 * numAt h 0x16 1) 3
  let regions ← s.launchRead q index (at_ (numAt h 0x28 4)) (16 * numAt h 0x17 1) 3
  launchCheck (headerValid code h stages variants regions) 3
  launchCheck (numAt h 5 1 ≤ 9) 4
  return headerOf h stages variants regions

/-! ### The launch parameter block and process groups (18 R418; 19 R436, R437) -/

/-- Is the LPB within R418 for a launch of `tickets` tickets? -/
def lpbValid (lpb : DWord) (b : List Byte) (tickets : Nat) : Bool :=
  let flags := numAt b 0 4
  let t1 := numAt b 8 4
  let t2 := numAt b 0xC 4
  let t3 := numAt b 0x10 4
  lpb.toNat % 128 = 0 && flags &&& 0xFFFFFE0E = 0 && numAt b 4 4 ≤ tickets
    && ((t1 = 0 && t2 = 0 && t3 = 0) || (0 < t1 && t1 < t2 && t2 < t3))
    && (numAt b 4 4 ≠ 0 || numAt b 0x18 8 = 0) && numAt b 0x38 4 ≤ 65536 && numAt b 0x48 8 % 128 = 0
    && zerosAt b 0x14 0x18 && zerosAt b 0x3C 0x40 && zerosAt b 0x58 128

/-- Is an entry of a process-group table within R436 and R437? -/
def groupEntryValid (e : List Byte) (nent tickets : Nat) (seed : Bool) : Bool :=
  let first := numAt e 8 8
  let count := numAt e 0x10 8
  numAt e 2 2 < nent && numAt e 4 1 ≤ 8 && 1 ≤ count && first + count ≤ tickets && (!seed || (first = 0 && count = 1))
    && zerosAt e 5 8 && zerosAt e 0x30 64

/-- The share of a launch that this module runs (R437): the first ticket, the count and the address of its entry. -/
def State.processGroup (s : State) (q index : Nat) (pgt : DWord) (tickets : Nat) (seed : Bool) :
    Except LaunchStop (Nat × Nat × DWord) := do
  let h ← s.launchRead q index pgt 64 2
  let n := numAt h 4 4
  launchCheck (pgt.toNat % 64 = 0 && numAt h 0 4 = 0x54475050 && 1 ≤ n && n ≤ 4096 && zerosAt h 8 64) 2
  let b ← s.launchRead q index (pgt + 64) (64 * n) 2
  let es := entriesOf b 64 n
  launchCheck (es.all (fun e => groupEntryValid e n tickets seed) && decide (es.map (fun e => numAt e 2 2)).Nodup) 2
  let mine := (List.range n).filter (fun i => numAt (es.getD i []) 0 2 = s.links.modId.toNat)
  match mine with
  | [i] =>
    let e := es.getD i []
    return (numAt e 8 8, numAt e 0x10 8, pgt + 64 + BitVec.ofNat 64 (64 * i))
  | _ => .error (.fail 2)

/-! ### Launch areas (18 R420; 17 R386-R389) -/

/-- Bytes of one slot's carry block (17 R387). -/
def Header.cstride (h : Header) (st : StageEntry) : Nat := 128 + 128 * st.carry.length * h.team

/-- The offsets of each stage's record array and carry area in the launch area, and its end (18 R420). -/
def Header.layout (h : Header) : List (Nat × Nat) × Nat :=
  h.stages.foldl (fun acc st =>
    let base := acc.2
    let carry := base + st.capacity * 64
    (acc.1 ++ [(base, carry)], if st.carry = [] then carry else carry + st.capacity * h.cstride st))
    ([], 128 * (1 + h.stages.length))

/-- The physical address of an offset of the area: of a descriptor where it is registered (17 R387), of the rest under the
translations that the front end holds. -/
def Launch.pa (l : Launch) (off : Nat) : Nat :=
  let a := l.area.toNat + off
  let pages := if 128 ≤ off && off < 128 * (1 + l.header.stages.length) then l.homes else l.frames
  pages.getD (a / 0x10000 - l.area.toNat / 0x10000) 0 + a % 0x10000

/-- A live launch. -/
def State.launch? (s : State) (h : Nat) : Option Launch := Table.find s.front.launches h

/-- The state with a launch changed. -/
def State.modLaunch (s : State) (h : Nat) (f : Launch → Launch) : State :=
  s.modFront (fun x => { x with launches := Table.modify x.launches h f })

/-- A field of the launch record (18 R420). -/
def State.launchField (s : State) (l : Launch) (off n : Nat) : Nat := Memory.readNum s.mem (l.pa off) n

/-- Offsets of the launch record's counters. -/
def recTotal : Nat := 0x08
def recNext : Nat := 0x10
def recTree : Nat := 0x18
def recKills : Nat := 0x20

/-- The offset of a stage's descriptor in the area (18 R420). -/
def descOff (stage : Nat) : Nat := 128 * (1 + stage)

/-- A field of a stage's queue descriptor (17 R387). -/
def State.descField (s : State) (l : Launch) (stage off n : Nat) : Nat :=
  Memory.readNum s.mem (l.pa (descOff stage + off)) n

/-- Capacity, occupancy and room of a stage queue (17 R387): HEAD and TAIL are free-running. -/
def State.queueCap (s : State) (l : Launch) (stage : Nat) : Nat := s.descField l stage 0x10 4
def State.queueOcc (s : State) (l : Launch) (stage : Nat) : Nat :=
  (s.descField l stage 0x20 8 + 2 ^ 64 - s.descField l stage 0x18 8) % 2 ^ 64
def State.queueRoom (s : State) (l : Launch) (stage : Nat) : Nat := s.queueCap l stage - s.queueOcc l stage

/-- STATE of a descriptor: ABORTED and POISONED (17 R387). -/
def State.descAborted (s : State) (l : Launch) (stage : Nat) : Bool := (s.descField l stage 0x2E 1).testBit 0
def State.descPoisoned (s : State) (l : Launch) (stage : Nat) : Bool := (s.descField l stage 0x2E 1).testBit 1

/-- The offset in the area of the record of a queue's slot (17 R387). -/
def Launch.recordOff (l : Launch) (stage slot : Nat) : Nat := (l.header.layout.1.getD stage (0, 0)).1 + 64 * slot

/-- The offset in the area of the carry block of a queue's slot (17 R390). -/
def Launch.carryOff (l : Launch) (stage slot : Nat) : Nat :=
  (l.header.layout.1.getD stage (0, 0)).2 + l.header.cstride (l.header.stages.getD stage ⟨0, 0, 0, []⟩) * slot

/-- The descriptor's bytes as the front end lays them out (17 R387). -/
def Launch.descBytes (l : Launch) (handle stage : Nat) : List Byte :=
  let st := l.header.stages.getD stage ⟨0, 0, 0, []⟩
  let va (off : Nat) : Nat := (l.area + BitVec.ofNat 64 off).toNat
  bytesOfNum 8 (va (l.recordOff stage 0)) ++ bytesOfNum 8 (if st.carry = [] then 0 else va (l.carryOff stage 0))
    ++ bytesOfNum 4 st.capacity ++ bytesOfNum 4 (l.header.cstride st) ++ bytesOfNum 8 0 ++ bytesOfNum 8 0
    ++ bytesOfNum 4 handle ++ bytesOfNum 1 stage ++ bytesOfNum 1 l.ctx ++ List.replicate 82 0

/-- The physical page of an address of a launch area, which the front end maps readable whatever its leaf permits (17 R387; 18
R420). -/
def State.areaPage (s : State) (ctx : Nat) (va : DWord) : Except (DWord × Miss) Nat :=
  let w := walkChecked s.mem (va.toNat % 2 ^ 56) 3 (s.context ctx).root
  let own : Bool := bits va.toNat 63 56 = 0xFF && ((s.context ctx).remoteOf va.toNat).isNone && w.result = .leaf
  match if own then .ok ⟨.device (w.pa (va.toNat % 2 ^ 56)), 1⟩ else s.translatePlain ctx .read false va with
  | .ok ⟨.device pa, _⟩ => if placeOf pa = .mem pa then .ok pa else .error (va, .cause .physHole)
  | .ok _ => .error (va, .cause .physHole)
  | .error m => .error (va, m)

/-- The physical pages of a range of device memory, or why a page is not there. -/
def State.areaFrames (s : State) (ctx : Nat) (area : DWord) (n : Nat) : List (Except (DWord × Miss) Nat) :=
  let first := area.toNat / 0x10000
  let last := (area.toNat + (n - 1)) / 0x10000
  (List.range (last - first + 1)).map (fun i => s.areaPage ctx (BitVec.ofNat 64 ((first + i) * 0x10000)))

/-- The launch with the translations of its area made anew: where a page is not there, what goes to the area waits. -/
def State.refreshLaunch (s : State) (l : Launch) : Launch :=
  let pages := s.areaFrames l.ctx l.area l.areaSize
  { l with
    frames := (pages.zip l.frames).map (fun x => match x.1 with
      | .ok pa => pa
      | .error _ => x.2)
    lost := pages.any (fun x => match x with
      | .ok _ => false
      | .error _ => true) }

/-- The translations that the front end holds for launch areas in a range of a context are made anew (11 R278). -/
def State.refreshAreas (s : State) (ctx lo hi : Nat) : State :=
  s.modFront (fun f =>
    { f with
      launches := f.launches.map (fun e =>
        if e.2.ctx = ctx && e.2.area.toNat < hi && lo < e.2.area.toNat + e.2.areaSize then (e.1, s.refreshLaunch e.2) else e) })

/-- D is set in the leaf that a write into an area uses (11 R275). -/
def State.markArea (s : State) (l : Launch) (off : Nat) : State :=
  let va := l.area + BitVec.ofNat 64 off
  let v := va.toNat % 2 ^ 56
  let w := walkChecked s.mem v 3 (s.context l.ctx).root
  if w.result = .leaf && w.pa v = l.pa off then s.markDirtyHere l.ctx va else s

/-- Writes bytes into the area, page by page. -/
def State.fillArea (s : State) (l : Launch) (off : Nat) (bs : List Byte) : State :=
  ((chunksOf (l.area + BitVec.ofNat 64 off) bs.length).foldl (fun s c => s.markArea l (c.1 - l.area).toNat) s).writeCells
    (((List.range bs.length).zip bs).map (fun ib => (l.pa (off + ib.1), ib.2)))

/-- The state with a field of the area written. -/
def State.setArea (s : State) (l : Launch) (off n x : Nat) : State := (s.markArea l off).writeMem (l.pa off) n x

/-- The unique handle of a new launch: the lowest number from `nextHandle` on that no live launch has (18 R420). -/
def State.freshHandle (s : State) : Nat :=
  ((List.range (s.front.launches.length + 1)).map (fun i => (s.front.nextHandle + i) % 2 ^ 32)).find?
    (fun h => (s.launch? h).isNone) |>.getD 0

/-- The checks of R419, the launch that they accept and its tickets on this module (R420; 19 R437). -/
def State.checkLaunch (s : State) (q : Nat) (p : Packet) : Except LaunchStop (Launch × Nat) := do
  let entry := s.runEntry q
  let seed := p.arg = 1
  let gx := numAt p.bytes 0x20 4
  let gy := numAt p.bytes 0x24 2
  let gz := numAt p.bytes 0x26 2
  let tickets := gx * gy * gz
  let lpb := p.field 0x18
  let b ← s.launchRead q p.index lpb 128 2
  launchCheck (lpbValid lpb b tickets) 2
  let flags := numAt b 0 4
  let pincount := numAt b 4 4
  let pinBytes ← s.launchRead q p.index (BitVec.ofNat 64 (numAt b 0x18 8)) (2 * pincount) 2
  let pins := (List.range pincount).map (fun i => numAt pinBytes (2 * i) 2)
  launchCheck (pins.all (fun c => c < 384)) 2
  let share ← if flags.testBit 8 then s.processGroup q p.index (BitVec.ofNat 64 (numAt b 0x40 8)) tickets seed
    else .ok (0, tickets, p.field 0x28)
  let header ← s.readHeader q p.index (p.field 0x10)
  let size := header.layout.2
  launchCheck (size ≤ numAt b 0x50 8) 2
  let area := BitVec.ofNat 64 (numAt b 0x48 8)
  let frames ← (s.areaFrames entry.ctx area size).mapM (fun r =>
    match r with
    | .ok pa => Except.ok pa
    | .error (va, m) =>
      match s.queueRetry q p.index (m.retry va) with
      | .wait page => .error (LaunchStop.wait page)
      | .fault _ => .error (LaunchStop.fail 2))
  let launch : Launch := {
    ctx := entry.ctx, queue := q, index := p.index, compl := p.compl, intr := p.intr, seed := seed, gx := gx, gy := gy
    gz := gz, size := BitVec.ofNat 32 p.arg32, user := share.2.2, code := p.field 0x10, header := header
    idemp := flags.testBit 0, retry := bits flags 7 4, pins := pins, firstTicket := share.1, t1 := numAt b 8 4
    t2 := numAt b 0xC 4, t3 := numAt b 0x10 4, save := BitVec.ofNat 64 (numAt b 0x20 8), saveSize := numAt b 0x28 8
    haltArea := BitVec.ofNat 64 (numAt b 0x30 8), haltSize := numAt b 0x38 4, area := area, areaSize := size
    frames := frames, homes := frames, lost := false, aborted := false, draining := false }
  return (launch, share.2.1)

/-- The tickets of a launch on this module (18 R420; 19 R437). -/
def Launch.total (l : Launch) (s : State) : Nat := s.launchField l recTotal 8

/-- The start of a launch (18 R420): the launch record, the descriptors, and empty arrays. -/
def State.beginLaunch (s : State) (l : Launch) (total : Nat) : State :=
  let h := s.freshHandle
  let s := s.modFront (fun f =>
    { f with launches := Table.set f.launches h l, nextHandle := (h + 1) % 2 ^ 32 })
  let record := bytesOfNum 4 h ++ bytesOfNum 4 0 ++ bytesOfNum 8 total ++ bytesOfNum 8 0 ++ bytesOfNum 8 total
    ++ bytesOfNum 8 0 ++ List.replicate 88 0
  let s := s.fillArea l 0 record
  (List.range l.header.stages.length).foldl (fun s n => s.fillArea l (descOff n) (l.descBytes h n)) s

/-- What the checks of a LAUNCH packet read: its code object, its LPB, and the PINTAB and the process group that the LPB names. -/
def State.launchReads (s : State) (ctx : Nat) (p : Packet) : List DWord :=
  [p.field 0x10, p.field 0x18] ++
    match s.readPlain ctx (p.field 0x18) 128 with
    | .ok b => [BitVec.ofNat 64 (numAt b 0x18 8), BitVec.ofNat 64 (numAt b 0x40 8)]
    | .error _ => []

/-- LAUNCH (R419, R420). What its checks have read of another module they have read once, whether it starts or not (19 R435). -/
def State.launchPacket (s : State) (q : Nat) : State :=
  match s.currentPacket q 1 with
  | none => s
  | some (p, s') =>
    let ctx := (s.runEntry q).ctx
    let used (t : State) : State := (s.launchReads ctx p).foldl (fun t a => t.usedRemote ctx a) t
    match s.checkLaunch q p with
    | .ok (l, total) => (used (s'.beginLaunch l total)).pump q
    | .error (.wait page) => (used s).packetWaits q p.index page (packetEvent 1 q)
    | .error (.fail code) => (used s').failPacket q p.index code

/-! ### Completion, the spawn-tree counter and stage queues -/

/-- A launch whose TREE has reached 0 completes (18 R420): as a failure when it has been aborted or drained
(R425). -/
def State.completeLaunch (s : State) (h : Nat) : State :=
  match s.launch? h with
  | none => s
  | some l =>
    if s.launchField l recTree 8 ≠ 0 then s
    else
      let s := s.modFront (fun f =>
        { f with
          launches := Table.erase f.launches h, requests := f.requests.filter (fun r => r.launch ≠ h)
          relaunches := f.relaunches.filter (fun r => r.1 ≠ h)
          lives := f.lives.filter (fun x => x.1 ≠ h) })
      (s.finishWith l.queue l.index (!l.aborted && !l.draining) true l.aborted).pump l.queue

/-- The spawn-tree counter changes (02 R37). A decrement to 0 completes the launch. -/
def State.treeAdd (s : State) (h : Nat) (d : Int) : State :=
  match s.launch? h with
  | none => s
  | some l =>
    let new := ((s.launchField l recTree 8 : Int) + d).toNat
    (s.setArea l recTree 8 new).completeLaunch h

/-- A record is written into the slot at TAIL, with a continuation's carry block and its address (17 R386, R390). -/
def State.putRecord (s : State) (l : Launch) (stage : Nat) (rec carry : List Byte) : State :=
  let tail := s.descField l stage 0x20 8
  let slot := tail % s.queueCap l stage
  let s := s.fillArea l (l.recordOff stage slot) rec
  let s :=
    if carry = [] then s
    else
      let off := l.carryOff stage slot
      (s.fillArea l off carry).setArea l (l.recordOff stage slot + 0x18) 8 (l.area + BitVec.ofNat 64 off).toNat
  s.setArea l (descOff stage + 0x20) 8 (tail + 1)

/-- The enqueue of records, one atomic step at the home slice (17 R388): the increment comes first. `count` is what the
tree counter gains, and `life` the life that a continuation goes on with. -/
def State.performEnqueue (s : State) (h stage : Nat) (records : List (List Byte)) (carry : List Byte)
    (count : Int) (life : Option Life) : State :=
  match s.launch? h with
  | none => s
  | some l =>
    let tail := s.descField l stage 0x20 8
    let s := s.modFront (fun f => { f with lives := f.lives ++ life.toList.map (fun x => (h, stage, tail, x)) })
    let s := s.setArea l recTree 8 ((s.launchField l recTree 8 : Int) + count).toNat
    records.foldl (fun s r => s.putRecord l stage r carry) s

/-- Retries the blocked list of a stage queue from its head (17 R389). -/
def State.retryBlockedLoop (s : State) (h stage : Nat) : Nat → State
  | 0 => s
  | fuel + 1 =>
    match s.launch? h, s.front.requests.find? (fun r => r.launch = h && r.stage = stage) with
    | some l, some r =>
      let gone := s.modFront (fun f => { f with requests := f.requests.filter (fun x => x.id ≠ r.id) })
      let wake (s : State) : State :=
        match r.group with
        | some g =>
          match (s.group g).status with
          | .waiting (.queue (some id) _ _ _) => if id = r.id then s.finishWait g else s
          | _ => s
        | none => s
      if l.lost then s
      else if s.descAborted l stage then (wake gone).retryBlockedLoop h stage fuel
      else if r.records.length ≤ s.queueRoom l stage then
        (wake (gone.performEnqueue h stage r.records r.carry
          (if r.group.isSome then (r.records.length : Int) else 0) r.life)).retryBlockedLoop h stage fuel
      else s
    | _, _ => s

/-- As `retryBlockedLoop`, over the whole list. -/
def State.retryBlocked (s : State) (h stage : Nat) : State := s.retryBlockedLoop h stage (s.front.requests.length + 1)

/-- May an enqueue be performed at once: no earlier request waits and the room reaches it (17 R389), and the area is mapped (log
entry 36)? -/
def State.hasRoom (s : State) (h stage n : Nat) : Bool :=
  match s.launch? h with
  | none => false
  | some l => !l.lost && !s.front.requests.any (fun r => r.launch = h && r.stage = stage) && n ≤ s.queueRoom l stage

/-- Adds a request to the blocked list, with a number of its own (17 R389). -/
def State.addRequest (s : State) (h stage : Nat) (records : List (List Byte)) (carry : List Byte)
    (group : Option GroupRef) (life : Option Life) : State × Nat :=
  let id := s.fresh
  let r : QueueRequest :=
    { id := id, launch := h, stage := stage, records := records, carry := carry, group := group, life := life }
  (s.useFresh.modFront (fun f => { f with requests := f.requests ++ [r] }), id)

/-- The relaunches of a cycle arrive at their stage queues, after its claims (17 R394), and join the blocked list as any enqueue where
there is no room (17 R402). -/
def State.enterRelaunches (s : State) : State :=
  s.front.relaunches.foldl (fun s x =>
    let stage := numAt x.2.1 4 1
    if s.hasRoom x.1 stage 1 then s.performEnqueue x.1 stage [x.2.1] [] 0 (some x.2.2)
    else (s.addRequest x.1 stage [x.2.1] [] none (some x.2.2)).1) (s.modFront (fun f => { f with relaunches := [] }))

/-- The launches whose area had lost a page look for it again, and go on once it is there (11 R271, R278; log entry 36). -/
def State.retryAreas (s : State) : State :=
  (s.front.launches.filter (fun e => e.2.lost)).foldl (fun s e =>
    let l := s.refreshLaunch e.2
    let s := s.modLaunch e.1 (fun _ => l)
    if l.lost then s else (List.range l.header.stages.length).foldl (fun s n => s.retryBlocked e.1 n) s) s

/-- The work of a launch that is aborted is discarded (18 R421, 17 R402): its descriptors are marked, and TREE falls by the
queued records, the eviction records, the continuations and relaunches that wait for room, and the unclaimed tickets. -/
def State.discardWork (s : State) (h : Nat) (l : Launch) : State :=
  let stages := List.range l.header.stages.length
  let queued := (stages.map (s.queueOcc l)).foldl (· + ·) 0
  let evicted := (s.front.evicted.filter (fun e => e.launch = h)).length
  let waiting := (s.front.requests.filter (fun r => r.launch = h && r.group.isNone)).length
    + (s.front.relaunches.filter (fun r => r.1 = h)).length
  let unclaimed := s.launchField l recTotal 8 - s.launchField l recNext 8
  let s := stages.foldl (fun s n =>
    let s := s.setArea l (descOff n + 0x2E) 1 (s.descField l n 0x2E 1 ||| 1)
    s.setArea l (descOff n + 0x18) 8 (s.descField l n 0x20 8)) s
  let s := s.setArea l recNext 8 (s.launchField l recTotal 8)
  let s := s.modFront (fun f =>
    { f with
      evicted := f.evicted.filter (fun e => e.launch ≠ h)
      lives := f.lives.filter (fun x => x.1 ≠ h)
      requests := f.requests.filter (fun r => !(r.launch = h && r.group.isNone))
      relaunches := f.relaunches.filter (fun r => r.1 ≠ h) })
  let s := stages.foldl (fun s n => s.retryBlocked h n) s
  s.setArea l recTree 8 (s.launchField l recTree 8 - queued - evicted - waiting - unclaimed)

end Sys2Proof.Machine
end

