-- ==== Sys2Proof/Machine/Stacks.lean ====
section
/-! DEFINITION. The stack cache and its backing pages (09 R233-R236). -/

namespace Sys2Proof.Machine

/-- Where a block of 16 bytes of every lane lies in virtual memory (R236). -/
def Group.blockAddr (g : Group) (block : Nat) : DWord := g.privateBase + BitVec.ofNat 64 (512 * block)

/-- Bytes of every lane in a block. -/
def Group.blockBytes (g : Group) (block : Nat) : List Byte := Memory.readBytes g.stack (512 * block) 512

/-- The spots of a block's page for the stack cache of a group, with supervisor privilege (DEDUCED, log entry 13). -/
def State.blockSpots (s : State) (r : GroupRef) (k : AccessKind) (block : Nat) : State × Except Miss (List Spot) :=
  let a := s.attrs r
  let (s', x) := s.translate r.core a.ctx k false ((s.group r).blockAddr block)
  match x with
  | .error m => (s', .error m)
  | .ok t =>
    let ps := (List.range 512).map t.target.spot
    match ps.findSome? (fun p => s'.spotCause a.ctx false k p) with
    | some c => (s', .error (.cause c))
    | none => (s', .ok ps)

/-- The lines of a block's spots that hold a poisoned unit of the stack cache (R221; 20 R454). -/
def Group.poisonedLines (g : Group) (block : Nat) (ps : List Spot) : List Nat :=
  ((List.range 32).filter (fun l => g.stackPoison.contains (32 * block + l))).flatMap (fun l =>
    (ps[16 * l]?.toList).filterMap (fun p => match p with
      | .device (.mem pa) => some (pa / 128)
      | _ => none))

/-- The stack cache writes a block back (R236), or the fault that the write-back takes. Poisoned bytes stay so. -/
def State.writeBlock (s : State) (r : GroupRef) (block : Nat) : State × Option Miss :=
  match s.blockSpots r .write block with
  | (s', .ok ps) =>
    let g := s.group r
    let s' := (s'.markDirtyBy r.core (s.attrs r).ctx (g.blockAddr block)).writeSpots ps (g.blockBytes block)
    ((s'.poisonLines (g.poisonedLines block ps)).modGroup r (fun g =>
      { g with backed := block :: g.backed.filter (· ≠ block), dirty := g.dirty.filter (· ≠ block) }), none)
  | (s', .error m) => (s', some m)

/-- The stack cache reads a block that its page holds (R236; 06 R134: another party's write to the page may be seen). Bytes
of a poisoned line are poisoned (R221). -/
def State.readBlock (s : State) (r : GroupRef) (block : Nat) : State × Option Miss :=
  match s.blockSpots r .read block with
  | (s', .ok ps) =>
    let bad := (List.range 32).filter (fun l => s'.spotPoison ((ps.drop (16 * l)).take 16))
    (s'.modGroup r (fun g =>
      { g with
        stack := Memory.writeBytes g.stack (512 * block) (s'.spotBytes ps), missing := g.missing.filter (· ≠ block)
        held := block :: g.held.filter (· ≠ block)
        stackPoison := bad.map (32 * block + ·) ++ g.stackPoison.filter (fun u => u / 32 ≠ block) }),
      none)
  | (s', .error m) => (s', some m)

/-- The group without a block in its stack cache: what its backing page holds is refilled when it is needed (R236). -/
def Group.dropBlock (g : Group) (block : Nat) : Group :=
  { g with
    held := g.held.filter (· ≠ block)
    missing := if g.backed.contains block then block :: g.missing.filter (· ≠ block) else g.missing }

/-- The stack cache writes the block at a private offset back, or drops it and refills it, which it may do only while the
page holds it (R236). A write-back that faults is tried again until it succeeds; a refill that faults leaves the block to
the instruction that needs it. -/
def State.stackWriteback (s : State) (r : GroupRef) (offset : Nat) (refill : Bool) : State :=
  let g := s.group r
  let block := offset / 16
  if (s.group? r).isNone || g.limit ≤ offset || g.missing.contains block then s
  else if !refill then
    match s.writeBlock r block with
    | (s', none) => s'
    | (s', some _) => if g.dirty.contains block then s'.due [Instr.stackWriteback r offset false] else s'
  else if g.backed.contains block then
    match s.readBlock r block with
    | (s', none) => s'
    | (s', some _) => s'.modGroup r (fun g => g.dropBlock block)
  else s

/-- The write-back of a block of an evicted group's stack cache, from its record; one that faults changes nothing (R236). -/
def State.writeRecordBlock (s : State) (ctx : Nat) (g : Group) (block : Nat) : State × Group :=
  let va := g.blockAddr block
  match s.translatePlain ctx .write false va with
  | .error _ => (s, g)
  | .ok t =>
    let ps := (List.range 512).map t.target.spot
    if ps.any (fun p => (s.spotCause ctx false .write p).isSome) then (s, g)
    else
      (((s.markDirty ctx va).writeSpots ps (g.blockBytes block)).poisonLines (g.poisonedLines block ps),
        { g with backed := block :: g.backed.filter (· ≠ block), dirty := g.dirty.filter (· ≠ block) }.dropBlock block)

/-- Eviction writes the whole stack cache back (R236). A block whose write-back faults stays in the record, and its write-back is
tried again (`State.retryEvicted`). -/
def State.writeStackBack (s : State) (r : GroupRef) : State :=
  let s := (s.group r).dirty.reverse.foldl (fun s b => (s.writeBlock r b).1) s
  s.modGroup r (fun g => (g.held.filter (fun b => !g.dirty.contains b)).foldl Group.dropBlock g)

/-- What an instruction does that needs bytes whose write-back or refill takes a fault (R236; 11 R270, R276). -/
def State.blockStop (s : State) (r : GroupRef) (block : Nat) (m : Miss) : Stop :=
  let va := (s.group r).blockAddr block
  let all (c : Cause) : Stop := .trap { Trap.plain c with lanes := some (s.group r).em, addr := va }
  match m with
  | .cause c => all c
  | .atsPending => .stall (.accept (.ats (pageOf va)))
  | .atsDenied => .hostPath (pageOf va)
  | .notPresent => if s.touches r then all .pageNotPresent else .hostPath (pageOf va)

/-- Blocks that a stack cache of 4 KiB holds (06 R131). -/
def stackBlocks : Nat := 8

/-- The stack cache makes room for one more block: the oldest blocks leave it, written back first if they were stored to
(R236). -/
def State.makeStackRoom (s : State) (r : GroupRef) : Nat → State × Option Stop
  | 0 => (s, none)
  | n + 1 =>
    match (s.group r).held.getLast? with
    | none => (s, none)
    | some victim =>
      if (s.group r).dirty.contains victim then
        match s.writeBlock r victim with
        | (s', some m) => (s', some (s'.blockStop r victim m))
        | (s', none) => (s'.modGroup r (fun g => g.dropBlock victim)).makeStackRoom r n
      else (s.modGroup r (fun g => g.dropBlock victim)).makeStackRoom r n

/-- An instruction needs a block: the stack cache takes it in, or the instruction takes the fault of a write-back or of the
refill (R236). -/
def State.needBlock (s : State) (r : GroupRef) (block : Nat) : State × Option Stop :=
  if (s.group r).held.contains block then (s, none)
  else
    match s.makeStackRoom r ((s.group r).held.length + 1 - stackBlocks) with
    | (s', some e) => (s', some e)
    | (s', none) =>
      if (s'.group r).missing.contains block then
        match s'.readBlock r block with
        | (s'', none) => (s'', none)
        | (s'', some m) => (s'', some (s''.blockStop r block m))
      else (s'.modGroup r (fun g => { g with held := block :: g.held }), none)

/-- As `needBlock` for several blocks. -/
def State.needBlocks (s : State) (r : GroupRef) (blocks : List Nat) : State × Option Stop :=
  blocks.foldl (fun x b => match x with
    | (s, some e) => (s, some e)
    | (s, none) => s.needBlock r b) (s, none)

end Sys2Proof.Machine
end

