-- ==== Sys2Proof/Machine/Stores.lean ====
section
/-! DEFINITION. The store buffer (06 R147, R157; 09 R229, R237). -/

namespace Sys2Proof.Machine

/-- A store that leaves the buffer is performed at its home (06 R147): an L1 copy of its core takes the line as it is then,
so that it stays the line of one instant (06 R149, R150), or is dropped (09 R224), and an uncorrectable error in it poisons its lines (20 R454). -/
def State.performStore (s : State) (core : Nat) (b : BufferedStore) : State :=
  if b.host then
    b.cells.foldl (fun (s : State) (c : Host.Cell) => s.writeHost b.func c.1 [c.2]) s
  else
    let s := s.writeCells b.cells
    let s := if b.poisoned then
        { s with poisoned := (b.cells.map (fun (c : Host.Cell) => c.1 / 128) ++ s.poisoned).eraseDups } else s
    let hit (x : L1Line) : Bool := b.cells.any (fun c => c.1 / 128 = x.line)
    s.modCore core (fun k =>
      { k with
        l1 :=
          if b.keeps then
            k.l1.map (fun x => if hit x then { x with bytes := Memory.readBytes s.mem (128 * x.line) 128 } else x)
          else k.l1.filter (fun x => !hit x) })

/-- The oldest buffered store of a core with a number leaves the buffer. Stores of one lane to one byte stay in order:
one goes only when no earlier store of the buffer touches its bytes (06 R143). -/
def State.storePerform (s : State) (core id : Nat) : State :=
  let k := s.core core
  match k.stores.find? (fun b => b.id = id) with
  | none => s
  | some b =>
    let earlier := k.stores.takeWhile (fun x => x.id ≠ id)
    if earlier.any (fun x => x.host = b.host && x.cells.any (fun c => b.cells.any (fun d => c.1 = d.1))) then
      s.due [Instr.storePerform (Fin.ofNat 384 core) id]
    else
      (s.modCore core (fun k => { k with stores := k.stores.filter (fun x => x.id ≠ id) })).performStore core b

/-- Every store of a group in the buffer is performed, oldest first (09 R229, R237). -/
def State.flushStores (s : State) (r : GroupRef) : State :=
  let mine := (s.core r.core).stores.filter (fun b => b.slot = r.slot)
  let s := s.modCore r.core (fun k => { k with stores := k.stores.filter (fun b => b.slot ≠ r.slot) })
  mine.foldl (fun s b => s.performStore r.core b) s

/-- A group's store enters the buffer; its performance is due. `host` names the function of a store to the host-shared half. -/
def State.bufferStore (s : State) (r : GroupRef) (ctx : Nat) (keeps : Bool) (host : Option Nat) (cells : List Host.Cell) :
    State :=
  let id := s.fresh
  let b : BufferedStore :=
    { id := id, slot := r.slot, ctx := ctx, keeps := keeps, host := host.isSome, func := host.getD 0, cells := cells
      poisoned := false }
  (s.useFresh.modCore r.core (fun k => { k with stores := k.stores ++ [b] })).due
    [Instr.storePerform (Fin.ofNat 384 r.core) id]

end Sys2Proof.Machine
end

