-- ==== Sys2Proof/Machine/Teams.lean ====
section
/-! DEFINITION. Placement, retirement, kill and eviction of teams, and the front end's part in them (02 R36-R43, R53-R61;
17 R386-R403; 18 R420-R422). -/

namespace Sys2Proof.Machine

/-! ### Phase records (17 R386) -/

/-- The bytes of a record. -/
def recordBytes (size : Word) (stage kind variant retry : Nat) (tx ty tz : Word) (wake groups : Nat)
    (carry dep parent : DWord) (launch : Nat) (user : DWord) : List Byte :=
  bytesOfNum 4 size.toNat ++ bytesOfNum 1 stage ++ bytesOfNum 1 kind ++ bytesOfNum 1 variant ++ bytesOfNum 1 retry
    ++ bytesOfNum 4 tx.toNat ++ bytesOfNum 4 ty.toNat ++ bytesOfNum 4 tz.toNat ++ bytesOfNum 1 wake
    ++ bytesOfNum 1 groups ++ bytesOfNum 2 0 ++ bytesOfNum 8 carry.toNat ++ bytesOfNum 8 dep.toNat
    ++ bytesOfNum 8 parent.toNat ++ bytesOfNum 4 launch ++ bytesOfNum 4 0 ++ bytesOfNum 8 user.toNat

/-- A word and a 64-bit field of a record. -/
def recWord (r : List Byte) (off : Nat) : Word := BitVec.ofNat 32 (numAt r off 4)
def recDWord (r : List Byte) (off : Nat) : DWord := BitVec.ofNat 64 (numAt r off 8)

/-- The record of ticket `t`, or of the seed (02 R35, 17 R392, R402). -/
def Launch.ticketRecord (l : Launch) (handle t retry : Nat) : List Byte :=
  let g := l.firstTicket + t
  let x := g % l.gx
  let y := g / l.gx % l.gy
  let z := g / (l.gx * l.gy)
  recordBytes l.size 0 0 0xFF retry (BitVec.ofNat 32 x) (BitVec.ofNat 32 y) (BitVec.ofNat 32 z) 0 0 0 0
    (BitVec.allOnes 64) handle l.user

/-- The core that a ticket is pinned to (18 R420). -/
def Launch.pinOf (l : Launch) (t : Nat) : Option Nat := l.pins[t]?

/-- The core that a life's new record is pinned to: a relaunched ticket keeps its pin (18 R420). -/
def Launch.lifePin (l : Launch) (o : Origin) : Option Nat :=
  match o with
  | .ticket t => l.pinOf t
  | _ => none

/-! ### The variant selector (02 R40) and resources (02 R41-R43) -/

/-- The variant of a stage that a size value selects, by its index in the variant table. -/
def Header.select (h : Header) (stage : Nat) (size : Word) : Option (Nat × VariantEntry) :=
  let st := h.stages.getD stage ⟨0, 0, 0, []⟩
  let all := (List.range st.varCount).filterMap (fun i =>
    (h.variants[st.varBase + i]?).map (fun v => (st.varBase + i, v)))
  let ok := all.filter (fun x => size.toNat ≤ x.2.limit.toNat)
  ok.foldl (fun acc x =>
    match acc with
    | none => some x
    | some y => if x.2.limit.toNat < y.2.limit.toNat then some x else acc) none

/-- The general group slots of a sub-core (02 R41). -/
def generalSlots (sub : Nat) : List Nat :=
  ((List.range 14) ++ (if sub = 0 then [] else [15])).map (fun i => 16 * sub + i)

/-- The registers per bank that are reserved on a sub-core's general pool (02 R43). -/
def Core.reservedFoot (k : Core) (sub : Nat) : Nat :=
  (if sub = 0 then 24 else 0) +
    ((k.groups.filter (fun e => e.1 / 16 = sub && e.2.kind = .general)).map (fun e =>
      match Table.find k.teams e.2.team with
      | some t => t.foot
      | none => 0)).foldl (· + ·) 0

/-- The slots for the groups of a team whose group 0 runs on sub-core `b`: the lowest free one for each (02 R42). -/
def Core.slotsFor (k : Core) (b n foot : Nat) : Option (List Nat) :=
  let take (acc : Option (List Nat)) (i : Nat) : Option (List Nat) :=
    acc.bind (fun got =>
      let sub := (b + i) % 4
      let used := (got.filter (fun x => x / 16 = sub)).length
      if 388 < k.reservedFoot sub + (used + 1) * foot then none
      else
        ((generalSlots sub).find? (fun x => (Table.find k.groups x).isNone && !got.contains x)).map (fun x => got ++ [x]))
  (List.range n).foldl take (some [])

/-- The lowest run of `n` numbers below `limit` that no team's run meets (02 R42). -/
def freeRun (limit n : Nat) (runs : List (Nat × Nat)) : Option Nat :=
  if n = 0 then some 0
  else (List.range (limit + 1 - n)).find? (fun b => runs.all (fun r => r.2 = 0 || !overlap (b, n) r))

/-- The lowest place for `n` bytes of scratchpad, 128-byte aligned (02 R42). -/
def freeScratch (n : Nat) (runs : List (Nat × Nat)) : Option Nat :=
  if n = 0 then some 0
  else
    let ends := 0 :: runs.map (fun r => r.1 + r.2)
    let ok := ends.filter (fun b => b + n ≤ 0x180000 && runs.all (fun r => r.2 = 0 || !overlap (b, n) r))
    ok.foldl (fun acc b => some (min b (acc.getD b))) none

/-- What a placement reserves (02 R42). -/
structure Reserve where
  slots : List Nat
  scratch : Nat
  berth : Nat
  ring : Nat
  deriving DecidableEq, Repr

/-- The resources for a team, all or none (02 R42). -/
def Core.reserve (k : Core) (h : Header) (v : VariantEntry) (b : Nat) : Option Reserve := do
  let slots ← k.slotsFor b v.groups v.foot
  let scratch ← freeScratch v.scratch (k.teams.map (fun e => (e.2.scratchBase, e.2.scratchBytes)))
  let berth ← freeRun 64 h.berths (k.teams.map (fun e => (e.2.berthBase, e.2.berthCount)))
  let ring ← freeRun 16 h.rings (k.teams.map (fun e => (e.2.ringBase, e.2.ringCount)))
  return { slots := slots, scratch := scratch, berth := berth, ring := ring }

/-- May a core take teams of a context: it holds the context, is not fenced, and is not asked to gate (02 R42; 16 R384;
18 R426)? -/
def State.takesTeams (s : State) (core ctx : Nat) : Bool :=
  (s.core core).ctx = some ctx && !(s.core core).fenced && s.gateOf core = .on

/-! ### Placement (17 R391, R395; 02 R39) -/

/-- A new scratchpad allocation, whose contents are undefined (02 R39): free values (log entry 5). -/
def State.freshScratch (s : State) (core base n : Nat) : State :=
  let bs := (List.range n).map (Config.scratchByte s.fresh)
  (s.useFresh).modCore core (fun k => k.writeWin base bs)

/-- What a carry block gives register `c` of group `g` (17 R390, R391): its lanes, its compressed and its poison bit. -/
def carried (block : List Byte) (ncarry g c : Nat) : Lanes × Bool × Bool :=
  let at_ := 128 + 128 * (g * ncarry + c)
  (Lanes.ofFn (fun l => BitVec.ofNat 32 (numAt block (at_ + 4 * l) 4)), (numAt block (2 * g) 2).testBit c,
    (numAt block (64 + 2 * g) 2).testBit c)

/-- Gives a group its carried registers: those of its section, or 0 in every lane. -/
def State.takeCarry (s : State) (r : GroupRef) (g groups : Nat) (carry : List Nat) (block : List Byte) : State :=
  ((List.range carry.length).zip carry).foldl (fun s cr =>
    let x := if g < groups && block ≠ [] then carried block carry.length g cr.1 else (Lanes.zero, false, false)
    let reg := Reg.v cr.2
    let s := s.modGroup r (fun y =>
      let y := if cr.2 < 240 then { y with v := Table.set y.v cr.2 ⟨x.1, x.2.1⟩ } else y
      if x.2.2 then { y with poison := reg :: y.poison } else y)
    if cr.2 < 240 then s
    else s.modCore r.core (fun k => { k with win := Memory.writeLanes k.win (mooredOffset r.slot (cr.2 - 240)) x.1 })) s

/-- Zeroes the moored storage of a slot (02 R39). -/
def State.zeroMoored (s : State) (core slot : Nat) : State :=
  s.modCore core (fun k => { k with win := Memory.clear k.win (mooredOffset slot 0) (mooredOffset slot 16) })

/-- The carry block that a record names, as reads of its context; bytes that cannot be read are free values (log entry
15). -/
def State.carryBlock (s : State) (ctx : Nat) (addr : DWord) (n : Nat) : List Byte :=
  match s.readPlain ctx addr n with
  | .ok bs => bs
  | .error _ => (List.range n).map (fun i => BitVec.ofNat 8 (Config.word s.fresh i).toNat)

/-- A private base: a device-half address that is a multiple of 65,536 (09 R236), of which the placer chooses the rest. -/
def privateBase (b : DWord) : DWord := 0xFF00000000000000 ||| (b &&& 0x00FFFFFFFFFF0000)

/-- Places a team of a record on a core with its resources (17 R391, R395). Placement is an acquire at dev scope, which
drops the core's L1 copies (17 R388). `bases` are the private bases (09 R236). -/
def State.placeTeam (s : State) (core h : Nat) (l : Launch) (rec : List Byte) (vi : Nat) (v : VariantEntry) (x : Reserve)
    (origin : Origin) (copy : Option Nat) (bases : List DWord) : State :=
  let id := s.fresh
  let stage := numAt rec 4 1
  let st := l.header.stages.getD stage ⟨0, 0, 0, []⟩
  let user := recDWord rec 0x38
  let size := recWord rec 0
  let team : Team :=
    { launch := h, ctx := l.ctx, stage := stage, variant := vi, tx := recWord rec 8, ty := recWord rec 0xC
      tz := recWord rec 0x10, size := size, user := user, dep := recDWord rec 0x20, parent := recDWord rec 0x28
      retry := numAt rec 7 1, origin := origin, copy := copy, slots := x.slots, foot := v.foot
      moored := l.header.moored, strict := l.header.strict, decode := l.header.decode, scratchBase := x.scratch
      scratchBytes := v.scratch, berthBase := x.berth, berthCount := l.header.berths, ringBase := x.ring
      ringCount := l.header.rings, barriers := [], batonHolder := none, batonQueue := [], batonFrom := 0, phaseSize := 0
      phaseStage := 0, phaseArrived := [], clockStart := s.time, clockFrozen := 0, frozenAt := none, clockSeen := 0
      preempt := false, ending := .no }
  let entry := l.code + BitVec.ofNat 64 (l.header.textOff + v.entry)
  let groups := numAt rec 0x15 1
  let carryAt := recDWord rec 0x18
  let need := 128 + 128 * (groups * st.carry.length)
  let block := if carryAt = 0 || st.carry = [] then [] else s.carryBlock l.ctx carryAt need
  let blank (i : Nat) : Group :=
    { Group.blank with
      team := id, number := i, pc := entry, limit := l.header.stack, privateBase := privateBase (bases.getD i 0)
      s := (Group.blank.s.set 0 (user.setWidth 32)).set 1 ((user >>> 32).setWidth 32) |>.set 2 size }
  let s := s.useFresh.modCore core (fun k =>
    { k with
      l1 := [], teams := Table.set k.teams id team
      groups := ((List.range x.slots.length).zip x.slots).foldl (fun t is => Table.set t is.2 (blank is.1)) k.groups })
  let s := if v.scratch = 0 then s else s.freshScratch core x.scratch v.scratch
  ((List.range x.slots.length).zip x.slots).foldl (fun s is =>
    let r : GroupRef := ⟨core, is.2⟩
    ((s.zeroMoored core is.2).takeCarry r is.1 groups st.carry block).joinReady r (s.cycle + 1)) s

/-! ### Release of a team -/

/-- The groups of a team that have neither exited nor stopped. -/
def State.liveSlots (s : State) (t : TeamRef) (team : Team) : List Nat :=
  team.slots.filter (fun slot =>
    match (s.group ⟨t.core, slot⟩).status with
    | .halted => false
    | .exited => false
    | _ => true)

/-- The Slipway records of a team that ends are removed (15 R371); a formed recovery group runs on for its others, and a lane
that it has taken becomes an orphan. -/
def Core.dropRecords (k : Core) (slots : List Nat) : Core :=
  { k with
    surrogate :=
      { k.surrogate with
        slipway := (k.surrogate.slipway.filter (fun x => !(slots.contains x.slot) || x.taken.isSome || x.orphan)).map (fun x =>
          if slots.contains x.slot then { x with orphan := true } else x)
        queue := k.surrogate.queue.filter (fun e =>
          match e with
          | .call slot _ => !(slots.contains slot)
          | _ => true) } }

/-- The Tug of a core with an assignment is to look for work (17 R392). What the claim leaves to the placer are free values
(log entry 5). -/
def State.dueClaim (s : State) (core : Nat) : State :=
  if s.front.assignments.any (fun a => a.core = core) then
    let w := Config.word s.fresh
    s.useFresh.due [Instr.tugClaim (Fin.ofNat 384 core)
      { sub := Fin.ofNat 4 (w 0).toNat, bases := (List.range 32).map (fun i => w (2 * i + 1) ++ w (2 * i + 2)) }]
  else s

/-- Releases a team's slots, berths, rings, scratchpad and baton (02 R42, R58): nothing of it stays resident, and the Tug
looks for work. -/
def State.releaseTeam (s : State) (t : TeamRef) : State :=
  match s.team? t with
  | none => s
  | some team =>
    let s := s.modCore t.core (fun k =>
      { k.dropRecords team.slots with
        teams := Table.erase k.teams t.team
        groups := k.groups.filter (fun e => !(team.slots.contains e.1))
        ready := k.ready.map (fun q => q.filter (fun e => !(team.slots.contains e.2)))
        barrel := k.barrel.map (fun e => e.filter (fun slot => !(team.slots.contains slot)))
        berths := k.berths.filter (fun e => !(team.berthBase ≤ e.1 && e.1 < team.berthBase + team.berthCount))
        rings := k.rings.filter (fun e => !(team.ringBase ≤ e.1 && e.1 < team.ringBase + team.ringCount)) })
    s.dueClaim t.core

/-- Is a berth of the team busy (02 R19)? -/
def State.berthsBusy (s : State) (t : TeamRef) (team : Team) : Bool :=
  (s.core t.core).berths.any (fun e =>
    team.berthBase ≤ e.1 && e.1 < team.berthBase + team.berthCount && e.2.state = .busy)

/-- Is a load, atomic or pop of the team's groups outstanding (09 R237, 16 R382), an access held (11 R273), a write of a moored
register in flight (07 R172), or a page of the launch's area awaited (11 R278; log entry 36)? -/
def State.loadsOut (s : State) (t : TeamRef) (team : Team) : Bool :=
  (s.launch? team.launch).any (·.lost) ||
  team.slots.any (fun slot =>
    let g := s.group ⟨t.core, slot⟩
    g.outstanding ≠ [] || g.predicted ≠ [] || g.inflight.any (fun w => w.reg.isMoored))

/-- Is a bulk push of the team not wholly in the FIFO (16 R382)? -/
def State.bulkOut (s : State) (t : TeamRef) : Bool := (s.core t.core).bulk.any (fun b => b.team = t.team)

/-- Are engine commands of the team still to complete (02 R58)? A held drain does not count: it is discarded (14 R344). -/
def State.commandsOut (s : State) (t : TeamRef) : Bool :=
  let k := s.core t.core
  let mine (slot : Nat) : Bool := (s.team? t).any (fun team => team.slots.contains slot)
  k.surrogate.queue.any (fun e =>
    match e with
    | .call slot _ => mine slot
    | .load slot _ _ _ _ _ _ _ => mine slot
    | .evict slot _ => mine slot)
    || k.crane.any (fun q => q.any (fun c => c.team = t.team)) || k.matrix.queue.any (fun c => c.team = t.team)
    || k.drain.any (fun c => c.team = t.team && c.held.isNone) || s.bulkOut t

/-- The stores of every group of the team leave the buffer (09 R237). -/
def State.flushTeam (s : State) (t : TeamRef) (team : Team) : State :=
  team.slots.foldl (fun s slot => s.flushStores ⟨t.core, slot⟩) s

/-! ### Retirement (17 R399) -/

/-- Adds to a dependence counter as one atomic at its home (17 R398); a counter that cannot be reached is left. -/
def State.depAdd (s : State) (ctx : Nat) (addr : DWord) (d : DWord) : State :=
  match s.signal ctx addr true d with
  | .ok s => s
  | .error _ => s

/-- A team retires: its stores are performed, DEP falls by 1, its reservations are released, and the spawn-tree counter
falls by 1. -/
def State.retireTeam (s : State) (t : TeamRef) (team : Team) : State :=
  let s := s.flushTeam t team
  let s := if team.dep = 0 then s else s.depAdd team.ctx team.dep (BitVec.allOnes 64)
  (s.releaseTeam t).treeAdd team.launch (-1)

/-! ### Kill, relaunch and abort (02 R58, R59; 17 R402; 18 R421, R422) -/

/-- A halt record's 16 bytes (10 R259). -/
def HaltRecord.bytes (h : HaltRecord) : List Byte :=
  bytesOfNum 8 h.pc.toNat ++ bytesOfNum 1 h.cause ++ bytesOfNum 1 h.reason ++ bytesOfNum 1 h.skid
    ++ bytesOfNum 1 h.flags ++ bytesOfNum 4 h.detail.toNat

/-- The halt record of a group that has stopped or exited (10 R259). -/
def Group.haltBytes (g : Group) : List Byte :=
  match g.halt with
  | some h => h.bytes
  | none => ({ pc := g.pc, cause := 0, reason := 0, skid := 0, flags := 0, detail := 0 } : HaltRecord).bytes

/-- Writes an entry of a halt area and its count (18 R422), unless a page is awaited. A write that meets a fault is skipped
(DESIGN CHOICE, log entry 16). -/
def State.tryHalt (s : State) (w : HaltWrite) : Except (Option DWord) State := do
  let put (s : State) (va : DWord) (bs : List Byte) : Except (Option DWord) State :=
    match s.writePlain w.ctx va bs with
    | .ok s => .ok s
    | .error (.fault _) => .ok s
    | .error (.wait page) => .error page
  match s.readPlain w.ctx w.area 8 with
  | .error (.fault _) => return s
  | .error (.wait page) => .error page
  | .ok bs =>
    let k := numOfBytes bs
    let s := s.usedRemote w.ctx w.area
    let s ← if k < w.size then put s (w.area + BitVec.ofNat 64 (64 + 576 * k)) w.entry else .ok s
    put s w.area (bytesOfNum 8 (k + 1))

/-- As `tryHalt`; an entry whose page is awaited is kept, and the page is asked for (11 R277). -/
def State.putHalt (s : State) (w : HaltWrite) : State :=
  match s.tryHalt w with
  | .ok s => s
  | .error page =>
    let s := match page with
      | some p => s.requestPage w.ctx p none none
      | none => s
    s.modFront (fun f => { f with halts := f.halts ++ [{ w with awaits := page }] })

/-- The entries that wait are tried again. -/
def State.retryHalts (s : State) : State :=
  s.front.halts.foldl State.putHalt (s.modFront (fun f => { f with halts := [] }))

/-- A kill is counted, in the launch record and in the halt area, which takes its entry (18 R420, R422). -/
def State.writeHalt (s : State) (l : Launch) (entry : List Byte) : State :=
  (s.setArea l recKills 8 (s.launchField l recKills 8 + 1)).putHalt
    { ctx := l.ctx, area := l.haltArea, size := l.haltSize, entry := entry, awaits := none }

/-- The bytes of a halt-area entry (18 R422). -/
def haltEntry (tx ty tz : Word) (stage groups retry tcause : Nat) (parent : DWord) (core : Nat) (records : List (List Byte)) :
    List Byte :=
  let head := bytesOfNum 4 tx.toNat ++ bytesOfNum 4 ty.toNat ++ bytesOfNum 4 tz.toNat ++ bytesOfNum 1 stage
    ++ bytesOfNum 1 groups ++ bytesOfNum 1 retry ++ bytesOfNum 1 tcause ++ bytesOfNum 8 parent.toNat ++ bytesOfNum 2 core
    ++ List.replicate 38 0
  (head ++ records.flatMap id ++ List.replicate 512 0).take 576

/-- The TCAUSE of a kill (18 R422): 0 for a group's own fault and for the watchdog. -/
def tcauseOf (tcause : Nat) : Nat := if tcause = Cause.watchdog.code then 0 else tcause

/-- A launch is aborted (18 R421): its queue takes the ERR, its work is discarded, and its running teams are killed with
LAUNCH_ABORT. -/
def State.abortLaunch (s : State) (h code : Nat) : State :=
  match s.launch? h with
  | none => s
  | some l =>
    if l.aborted then s
    else
      let s := s.modLaunch h (fun x => { x with aborted := true })
      let s := (s.setErr l.queue code l.index).setArea l 4 1 (s.launchField l 4 1 ||| 1)
      let s := s.discardWork h l
      let teams := s.cores.flatMap (fun e => e.2.teams.filterMap (fun t =>
        if t.2.launch = h then some (⟨e.1, t.1⟩ : TeamRef) else none))
      (teams.foldl (fun s t =>
        match s.team? t with
        | none => s
        | some team =>
          if team.ending.isKill then s
          else
            (s.modTeam t (fun x => { x with ending := .kill Cause.launchAbort.code })).due
              ((s.liveSlots t team).map (fun slot => Instr.haltDelivery ⟨t.core, slot⟩) ++ [Instr.teamKill t])) s).completeLaunch h

/-- The record that began a life, with RETRY raised by 1 (17 R402). -/
def Launch.lifeRecord (l : Launch) (h : Nat) (origin : Origin) (retry : Nat) : List Byte :=
  match origin with
  | .ticket t => l.ticketRecord h t (retry + 1)
  | .seed => l.ticketRecord h 0 (retry + 1)
  | .record bs => bs.set 7 (BitVec.ofNat 8 (retry + 1))

/-- What follows a kill (02 R59): an idempotent launch relaunches the life while its retries last; otherwise the launch is
aborted. A launch that is aborted or draining relaunches nothing (17 R402). -/
def State.afterKill (s : State) (h : Nat) (origin : Origin) (retry : Nat) : State :=
  match s.launch? h with
  | none => s
  | some l =>
    if l.idemp && retry < l.retry && !l.aborted && !l.draining then
      s.modFront (fun f =>
        { f with relaunches := f.relaunches ++ [(h, l.lifeRecord h origin retry, { origin := origin, copy := none })] })
    else if l.aborted then s.treeAdd h (-1)
    else (s.setArea l recTree 8 (s.launchField l recTree 8 - 1)).abortLaunch h 5

/-- The kill of a team once its commands have settled (02 R58). Its held drains are discarded (14 R344). -/
def State.killTeam (s : State) (t : TeamRef) (team : Team) (tcause : Nat) : State :=
  let s := s.flushTeam t team
  let records := team.slots.map (fun slot => (s.group ⟨t.core, slot⟩).haltBytes)
  let s :=
    match s.launch? team.launch with
    | none => s
    | some l =>
      s.writeHalt l (haltEntry team.tx team.ty team.tz team.stage team.slots.length team.retry (tcauseOf tcause) team.parent
        t.core records)
  let s := s.modCore t.core (fun k =>
    { k with
      drain := k.drain.filter (fun c => !(c.team = t.team)), bulk := k.bulk.filter (fun b => !(b.team = t.team)) })
  (s.releaseTeam t).afterKill team.launch team.origin team.retry

/-- A record that no variant takes is treated as a team killed by NO_VARIANT (02 R40, 18 R422). -/
def State.killRecord (s : State) (h : Nat) (l : Launch) (rec : List Byte) (origin : Origin) : State :=
  (s.writeHalt l (haltEntry (recWord rec 8) (recWord rec 0xC) (recWord rec 0x10) (numAt rec 4 1) 0 (numAt rec 7 1)
    Cause.noVariant.code (recDWord rec 0x28) 0xFFFF [])).afterKill h origin (numAt rec 7 1)

/-! ### The save area (17 R400-R402) -/

/-- The ranges of a launch's save area that are in use: eviction blocks, and the copies of records that began lives. -/
def State.savedRanges (s : State) (h : Nat) : List (Nat × Nat) :=
  (s.front.evicted.filter (fun e => e.launch = h)).flatMap (fun e =>
      (e.block, e.size) :: e.team.copy.toList.map (fun c => (c, 64)))
    ++ s.cores.flatMap (fun e => e.2.teams.flatMap (fun t =>
      if t.2.launch = h then t.2.copy.toList.map (fun c => (c, 64)) else []))
    ++ (s.front.lives.filter (fun x => x.1 = h)).flatMap (fun x => x.2.2.2.copy.toList.map (fun c => (c, 64)))
    ++ (s.front.requests.filter (fun x => x.launch = h)).flatMap (fun x =>
      (x.life.bind (·.copy)).toList.map (fun c => (c, 64)))

/-- A free place of `n` bytes in the save area, 64-aligned. -/
def State.saveRoom (s : State) (h : Nat) (l : Launch) (n : Nat) : Option Nat :=
  let used := s.savedRanges h
  let up (x : Nat) : Nat := (x + 63) / 64 * 64
  let ends := 0 :: used.map (fun r => up (r.1 + r.2))
  let ok := ends.filter (fun b => b + n ≤ l.saveSize && used.all (fun r => !overlap (b, n) r))
  ok.foldl (fun acc b => some (min b (acc.getD b))) none

/-- Writes bytes at an offset of the save area; a write that cannot be performed is skipped (log entry 37). -/
def State.saveBytes (s : State) (l : Launch) (off : Nat) (bs : List Byte) : Option State :=
  match s.writePlain l.ctx (l.save + BitVec.ofNat 64 off) bs with
  | .ok s => some s
  | .error _ => none

/-- The bytes of an eviction block. -/
def blockBytes (mark size : Nat) : List Byte := (List.range size).map (Config.blockByte mark)

/-! ### Eviction (02 R53, R54; 17 R400) -/

/-- Is a group at a pre-emption point (02 R53)? -/
def State.groupAtPoint (s : State) (r : GroupRef) : Bool :=
  match (s.group r).status with
  | .exited => true
  | .swapped => true
  | .hostHeld _ => true
  | .waiting (.barrier _ _) => true
  | .waiting (.liftPop n) => ((s.core r.core).incoming.filter (fun e => e.present)).length < n
  | .waiting (.dep _) => true
  | .waiting (.queue _ _ _ _) => true
  | .waiting .srgClose => true
  | _ => false

/-- Is a surrogate call of the team deciding, or a record of it in a formed recovery group (15 R370)? -/
def State.surrogateHolds (s : State) (t : TeamRef) (team : Team) : Bool :=
  team.slots.any (fun slot => ((s.group ⟨t.core, slot⟩).call.map (·.state)) = some .deciding)
    || (s.core t.core).surrogate.slipway.any (fun x => team.slots.contains x.slot && x.taken.isSome && !x.orphan)

/-- Is the team at a pre-emption point, with its loads returned and nothing else in its way (02 R53; 09 R237; 15 R370;
16 R382)? -/
def State.atPoint (s : State) (t : TeamRef) (team : Team) : Bool :=
  team.ending = .no && !s.berthsBusy t team && team.slots.all (fun slot => s.groupAtPoint ⟨t.core, slot⟩)
    && !s.loadsOut t team && !s.bulkOut t && !s.surrogateHolds t team

/-- The wake code of a group (17 R400). -/
def Group.wakeCode (g : Group) : Nat :=
  match g.status with
  | .waiting (.dep _) => 1
  | .waiting (.queue _ _ _ _) => 2
  | .waiting (.liftPop _) => 3
  | .hostHeld _ => 4
  | _ => 0

/-- Eviction (02 R54), in one step. The eviction block takes a free place of the save area; without one the team runs on
(18 R426). -/
def State.evict (s : State) (t : TeamRef) (team : Team) (l : Launch) : State :=
  let k := s.core t.core
  let records := k.surrogate.slipway.filter (fun x => team.slots.contains x.slot && !x.orphan)
  let size := 4096 + team.scratchBytes + 40960 * team.slots.length + 64 * records.length + 256
  match s.saveRoom team.launch l size with
  | none => s
  | some block =>
    let s := team.slots.foldl (fun s slot => (s.settleAll ⟨t.core, slot⟩).writeStackBack ⟨t.core, slot⟩) (s.flushTeam t team)
    let k := s.core t.core
    let groups := team.slots.map (fun slot => s.group ⟨t.core, slot⟩)
    let wake := (groups.find? (fun g => g.wakeCode ≠ 0)).map (·.wakeCode) |>.getD 0
    let inRun (base n : Nat) (e : Nat) : Bool := base ≤ e && e < base + n
    let written := s.saveBytes l block (blockBytes s.fresh size)
    let e : Evicted :=
      { launch := team.launch, wake := wake, core := t.core, block := block, size := size
        record := recordBytes team.size team.stage 2 team.variant team.retry team.tx team.ty team.tz
          wake team.slots.length (l.save + BitVec.ofNat 64 block) team.dep team.parent team.launch team.user
        mark := written.map (fun _ => s.fresh), team := team, groups := groups
        scratch := Memory.readBytes k.win team.scratchBase team.scratchBytes
        berths := (k.berths.filter (fun e => inRun team.berthBase team.berthCount e.1)).map (fun e => (e.1 - team.berthBase, e.2))
        rings := (k.rings.filter (fun e => inRun team.ringBase team.ringCount e.1)).map (fun e =>
          (e.1 - team.ringBase, { e.2 with base := e.2.base - team.scratchBase }))
        moored := team.slots.map (fun slot => Memory.readBytes k.win (mooredOffset slot 0) 0x800)
        records := records }
    let requests := groups.filterMap (fun g =>
      match g.status with
      | .waiting (.queue id _ _ _) => id
      | _ => none)
    let s := (written.getD s).useFresh.modCore t.core (fun k =>
      { k with
        surrogate :=
          { k.surrogate with slipway := k.surrogate.slipway.filter (fun x => !(team.slots.contains x.slot) || x.orphan) } })
    (s.releaseTeam t).modFront (fun f =>
      { f with evicted := f.evicted ++ [e], requests := f.requests.filter (fun r => !(requests.contains r.id)) })

/-- Is the dependence counter at a virtual address of a context at most 0, where it can be reached (17 R398)? -/
def State.depLow (s : State) (ctx : Nat) (va : DWord) : Bool :=
  match s.translatePlain ctx .read true va with
  | .ok ⟨.device pa, _⟩ => s.counter pa ≤ 0
  | _ => false

/-- Does the wake condition of an evicted team hold on a core (17 R400)? For WAKE 1 the counter at DEP is watched, and the one that the
dep.wait names, for which the team may resume earlier. -/
def State.wakes (s : State) (e : Evicted) (core : Nat) : Bool :=
  let waiting := e.groups.find? (fun g => g.wakeCode ≠ 0)
  let lift := e.groups.any (fun g => g.wakeCode = 3)
  (!lift || core = e.core) &&
    match waiting.map (·.status) with
    | some (Status.waiting (.dep a)) =>
      s.counter a.toNat ≤ 0 || (e.team.dep ≠ 0 && s.depLow e.team.ctx e.team.dep)
    | some (Status.waiting (.queue _ h stage records)) =>
      (s.launch? h).all (fun l => s.descAborted l stage || records.length ≤ s.queueRoom l stage)
    | some (Status.waiting (.liftPop n)) => n ≤ ((s.core core).incoming.filter (fun x => x.present)).length
    | some (Status.hostHeld page) => !((s.context e.team.ctx).hostRequests.any (fun h => h.page = page))
    | _ => true

/-- A group as it resumes (02 R54): a waiting instruction is evaluated afresh, without the arrival that it has made. -/
def Group.resumed (g : Group) (id : Nat) : Group :=
  match g.status with
  | .waiting (.queue _ h stage records) =>
    { g with team := id, status := .running, resumeWait := some (.queue none h stage records), holdUntil := 0 }
  | .waiting w => { g with team := id, status := .running, resumeWait := some w, holdUntil := 0 }
  | .exited => { g with team := id }
  | _ => { g with team := id, status := .running, hold := .none, stall := 0, holdUntil := 0 }

/-- Is the eviction block as it was written (17 R401)? -/
def State.blockIntact (s : State) (e : Evicted) (l : Launch) : Bool :=
  match e.mark with
  | none => true
  | some n =>
    match s.readPlain l.ctx (l.save + BitVec.ofNat 64 e.block) e.size with
    | .ok bs => bs = blockBytes n e.size
    | .error _ => true

/-- Resumption of an evicted team on a core (02 R54; 17 R400; 15 R370). The core's L1 copies are dropped, so that the team
sees its own earlier stores (06 R147), and write-backs that faulted since its eviction are due again (09 R236). Where software has changed the block, the team's resumption is undefined (17 R401):
its groups are stuck and never issue. -/
def State.resume (s : State) (e : Evicted) (core : Nat) (x : Reserve) (intact : Bool) : State :=
  let id := s.fresh
  let team := { e.team with
    slots := x.slots, scratchBase := x.scratch, berthBase := x.berth, ringBase := x.ring, clockStart := s.time
    clockFrozen := 0, frozenAt := none, clockSeen := 0, preempt := false
    batonHolder := e.team.batonHolder, batonQueue := e.team.batonQueue, batonFrom := 0 }
  let moved (slot : Nat) : Nat :=
    match (List.range e.team.slots.length).find? (fun i => e.team.slots.getD i 64 = slot) with
    | some i => x.slots.getD i slot
    | none => slot
  let s := s.useFresh.modCore core (fun k =>
    { k with
      l1 := [], teams := Table.set k.teams id team
      groups := ((x.slots.zip e.groups).foldl (fun t sg => Table.set t sg.1 (sg.2.resumed id)) k.groups)
      berths := e.berths.foldl (fun t b => Table.set t (x.berth + b.1) b.2) k.berths
      rings := e.rings.foldl (fun t b => Table.set t (x.ring + b.1) { b.2 with base := b.2.base + x.scratch }) k.rings
      surrogate :=
        { k.surrogate with
          slipway := k.surrogate.slipway ++ e.records.map (fun r => { r with slot := moved r.slot, entered := s.cycle }) } })
  let s := s.modCore core (fun k => k.writeWin x.scratch e.scratch)
  let s := (x.slots.zip e.moored).foldl (fun s sm => s.modCore core (fun k => k.writeWin (mooredOffset sm.1 0) sm.2)) s
  let s := s.due (x.slots.flatMap (fun slot =>
    (s.group ⟨core, slot⟩).dirty.map (fun b => Instr.stackWriteback ⟨core, slot⟩ (16 * b) false)))
  x.slots.foldl (fun s slot =>
    if (s.group ⟨core, slot⟩).status = .exited || !intact then s else s.joinReady ⟨core, slot⟩ (s.cycle + 1)) s

/-- The write-backs that faulted at evictions are tried again for the records (09 R236). -/
def State.retryEvicted (s : State) : State :=
  let group (e : Evicted) (x : State × List Group) (g : Group) : State × List Group :=
    let y := g.dirty.reverse.foldl (fun (y : State × Group) b => y.1.writeRecordBlock e.team.ctx y.2 b) (x.1, g)
    (y.1, x.2 ++ [y.2])
  let record (x : State × List Evicted) (e : Evicted) : State × List Evicted :=
    let y := e.groups.foldl (group e) (x.1, [])
    (y.1, x.2 ++ [{ e with groups := y.2 }])
  if s.front.evicted.all (fun e => e.groups.all (fun g => g.dirty = [])) then s
  else
    let x := s.front.evicted.foldl record (s, [])
    x.1.modFront (fun f => { f with evicted := x.2 })

/-! ### Claims by the Tugs (17 R392) -/

/-- A stage queue's head is claimed for a record that has its resources: HEAD rises by 1, and the blocked list is retried
(17 R389, R392). -/
def State.claimHead (s : State) (h : Nat) (l : Launch) (stage : Nat) : State :=
  (s.setArea l (descOff stage + 0x18) 8 (s.descField l stage 0x18 8 + 1)).retryBlocked h stage

/-- The attempt of one place where a Tug looks for work: the state when it took some. -/
abbrev Claim := Option State

/-- Takes an eviction record (17 R392 order 1). -/
def State.claimEvicted (s : State) (core h : Nat) (l : Launch) (b : Nat) : Claim :=
  (s.front.evicted.filter (fun e => e.launch = h && s.wakes e core)).findSome? (fun e =>
    let v := l.header.variants.getD e.team.variant ⟨0, 0, 0, 0, 0⟩
    if 256 < (s.core core).surrogate.slipway.length + e.records.length then none
    else
      match (s.core core).reserve l.header v b with
      | none => none
      | some x =>
        let s := s.modFront (fun f => { f with evicted := f.evicted.filter (fun y => y ≠ e) })
        some (s.resume e core x (s.blockIntact e l)))

/-- Takes the record at the head of a stage queue (17 R392 order 2; 17 R402 for the copy of a KIND 0 record). -/
def State.claimStage (s : State) (core h : Nat) (l : Launch) (stage b : Nat) (bases : List DWord) : Claim :=
  if s.queueOcc l stage = 0 || s.descAborted l stage || s.descPoisoned l stage then none
  else
    let head := s.descField l stage 0x18 8
    let off := l.recordOff stage (head % s.queueCap l stage)
    let rec_ := (List.range 64).map (fun i => Memory.read s.mem (l.pa (off + i)))
    let fresh := numAt rec_ 5 1 = 0
    let here (x : Nat × Nat × Nat × Life) : Bool := x.1 = h && x.2.1 = stage && x.2.2.1 = head
    let life : Option Life := (s.front.lives.find? here).map (fun x => x.2.2.2)
    let s := s.modFront (fun f => { f with lives := f.lives.filter (fun x => !here x) })
    let origin : Origin := (life.map (·.origin)).getD (.record rec_)
    let pinned := fresh && (l.lifePin origin).any (fun c => c ≠ core)
    let keep := fresh && origin.isRecord && l.idemp
    let copy := if keep then s.saveRoom h l 64 else life.bind (·.copy)
    if pinned || (keep && copy.isNone) then none
    else
      match l.header.select stage (recWord rec_ 0) with
      | none => some ((s.claimHead h l stage).killRecord h l rec_ origin)
      | some (vi, v) =>
        match (s.core core).reserve l.header v b with
        | none => none
        | some x =>
          let s := match copy with
            | some c => if keep then (s.saveBytes l c rec_).getD s else s
            | none => s
          some ((s.claimHead h l stage).placeTeam core h l rec_ vi v x origin copy bases)

/-- Takes a ticket (17 R392 order 3). -/
def State.claimTicket (s : State) (core h : Nat) (l : Launch) (b : Nat) (bases : List DWord) : Claim :=
  let t := s.launchField l recNext 8
  if s.launchField l recTotal 8 ≤ t || (match l.pinOf t with | some c => c ≠ core | none => false) then none
  else
    let rec_ := l.ticketRecord h t 0
    let origin : Origin := if l.seed then .seed else .ticket t
    let claimed := s.setArea l recNext 8 (t + 1)
    match l.header.select 0 l.size with
    | none => some (claimed.killRecord h l rec_ origin)
    | some (vi, v) =>
      match (s.core core).reserve l.header v b with
      | none => none
      | some x => some (claimed.placeTeam core h l rec_ vi v x origin none bases)

/-- The pairs of an assignment from the highest-numbered stage to the lowest (17 R392). -/
def stagesDown (a : Assignment) : List (Nat × Nat) :=
  (List.range 8).reverse.flatMap (fun n => a.stages.filter (fun p => p.2 = n))

/-- The live launches among some, in the order of their launch: handles rise, and wrap at 2^32 (17 R392; 18 R420). -/
def State.inLaunchOrder (s : State) (hs : List Nat) : List Nat :=
  let live := s.front.launches.map (·.1)
  (live.filter (fun h => s.front.nextHandle ≤ h) ++ live.filter (fun h => h < s.front.nextHandle)).filter hs.contains

/-- A Tug takes work once, in the order of R392, and looks again when it has taken some. -/
def State.tugClaim (s : State) (core : Nat) (p : Placement) : State :=
  match s.front.assignments.find? (fun a => a.core = core) with
  | none => s
  | some a =>
    let launches := (a.stages.map (·.1) ++ a.tickets).eraseDups
    let live (h : Nat) (f : Launch → Claim) : Claim :=
      match s.launch? h with
      | some l => if s.takesTeams core l.ctx && !l.aborted && !l.draining && !l.lost then f l else none
      | none => none
    let b := p.sub.val
    let first := launches.findSome? (fun h => live h (fun l => s.claimEvicted core h l b))
    let second := (stagesDown a).findSome? (fun x => live x.1 (fun l => s.claimStage core x.1 l x.2 b p.bases))
    let third := (s.inLaunchOrder a.tickets).findSome? (fun h => live h (fun l => s.claimTicket core h l b p.bases))
    match first.orElse (fun _ => second.orElse (fun _ => third)) with
    | some t => t.dueClaim core
    | none => s

/-! ### The Pilot's scheduling rounds (17 R393, R400) -/

/-- Is a stage owed service: it holds a record, and it is the last stage or a later one has room (17 R393; DEDUCED, log entry
80)? -/
def State.stageOwed (s : State) (l : Launch) (n : Nat) : Bool :=
  let count := l.header.stages.length
  !l.aborted && !l.draining && s.queueOcc l n ≠ 0
    && (n + 1 = count || (List.range count).any (fun m => n < m && 0 < s.queueRoom l m))

/-- The stages that are owed service. -/
def State.owedStages (s : State) : List (Nat × Nat) :=
  s.front.launches.flatMap (fun e =>
    ((List.range e.2.header.stages.length).filter (s.stageOwed e.2)).map (fun n => (e.1, n)))

/-- Is a stage assigned to a core? -/
def assigned (plan : List Assignment) (x : Nat × Nat) : Bool := plan.any (fun a => a.stages.contains x)

/-- A plan with a stage assigned to a core as well. -/
def addStage (plan : List Assignment) (core : Nat) (x : Nat × Nat) : List Assignment :=
  if plan.any (fun a => a.core = core) then
    plan.map (fun a => if a.core = core then { a with stages := a.stages ++ [x] } else a)
  else plan ++ [⟨core, [x], []⟩]

/-- A plan with a launch assigned to the first core of some, unless one of them has it. -/
def addLaunch (plan : List Assignment) (cores : List Nat) (x : Nat × Nat) : List Assignment :=
  match cores with
  | [] => plan
  | core :: _ =>
    if plan.any (fun a => cores.contains a.core && (a.tickets.contains x.1 || a.stages.any (fun y => y.1 = x.1))) then plan
    else addStage plan core x

/-- The assignments that a plan of the Pilot comes to: each core's first; a stage that is owed service and that neither this
plan nor the last names (17 R393); and the launch of each evicted team whose condition holds (17 R400). Those go to the lowest
core that may take them (DESIGN CHOICE, log entry 80). -/
def State.completePlan (s : State) (plan : List Assignment) : List Assignment :=
  let cores (ctx : Nat) : List Nat := (s.cores.map (·.1)).filter (fun c => s.takesTeams c ctx)
  let plan := plan.foldl (fun p a => if p.any (fun b => b.core = a.core) then p else p ++ [a]) []
  let owed := s.owedStages.filter (fun x => !assigned plan x && !assigned s.front.assignments x)
  let plan := owed.foldl (fun p x =>
    match ((s.launch? x.1).elim [] (fun l => cores l.ctx)).head? with
    | some core => addStage p core x
    | none => p) plan
  s.front.evicted.foldl (fun p e =>
    addLaunch p ((cores e.team.ctx).filter (s.wakes e)) (e.launch, e.team.stage)) plan

/-- The end of a scheduling round (17 R393): the assignments are set, and the Tugs look for work. -/
def State.schedulingRound (s : State) (plan : List Assignment) : State :=
  let plan := s.completePlan plan
  plan.foldl (fun s a => s.dueClaim a.core) (s.modFront (fun f => { f with assignments := plan }))

end Sys2Proof.Machine
end

