-- ==== Sys2Proof/Machine/Control.lean ====
section
/-! DEFINITION. Control space: the device's register maps (00 R4, R5; 10 R262; 11 R268, R269; 18 R405, R406, R423; 19
R430, R431; 20). -/

namespace Sys2Proof.Machine

/-- A bit of a map. -/
def bit (b : Bool) (i : Nat) : Nat := if b then 2 ^ i else 0

/-- STATE of SECSTAT (20 R445). -/
def ModuleState.code (x : ModuleState) : Nat :=
  match x with
  | .starting => 0
  | .running => 1
  | .safe => 2

/-- The 64-bit word at an 8-aligned offset of a 512-bit value. -/
def word512 (x : BitVec 512) (i : Nat) : Nat := x.toNat / 2 ^ (64 * i) % 2 ^ 64

/-- The maps of the security block, by offset from 0x0FF0_0005_0000 (20). ATTCMD's GO and APPENDCMD read 0, and the other
registers without an access code what was written (DEDUCED, log entry 17). -/
def State.securityWord (s : State) (o : Nat) : Nat :=
  let x := s.security
  if o = 0 then x.state.code * 2 ^ 16 + x.fails * 2 ^ 12 + bit x.warm 8
  else if 0x100 ≤ o && o < 0x300 then word512 (x.meas.getD ((o - 0x100) / 64) 0) ((o - 0x100) % 64 / 8)
  else if o = 0x340 then x.extIndex
  else if 0x380 ≤ o && o < 0x3C0 then word512 x.nonce ((o - 0x380) / 8)
  else if o = 0x3C0 then x.attAddr + bit x.attErr 2
  else if 0x400 ≤ o && o < 0x440 then word512 x.head ((o - 0x400) / 8)
  else if o = 0x440 then x.lost * 2 ^ 32 + x.unspilled
  else if o = 0x448 then x.spillBase.toNat
  else if o = 0x450 then x.spillM
  else if 0x480 ≤ o && o < 0x4A0 then x.append.toNat / 2 ^ (8 * (o - 0x480)) % 2 ^ 64
  else if o = 0x800 then bit x.releasing.isSome 31 + x.ctxStatus * 2 ^ 28 + x.ctxOp * 2 ^ 9 + x.ctxCtx
  else if 0x1000 ≤ o && o < 0x1A20 then numOfBytes ((s.idKey.drop (o - 0x1000)).take 8)
  else if o = 0x2000 then x.mbox.toNat
  else if 0x4000 ≤ o && o < 0x4C00 then
    let k := s.core ((o - 0x4000) / 8)
    let next := (k.scrubDue.map (·.2)).getD none
    let ctx := if k.scrubDue.isSome then next else k.ctx
    bit k.scrubDue.isSome 63 + bit k.corectxErr 62 + bit ctx.isSome 7 + k.corectxCtx
  else 0

/-- A context descriptor's word (11 R268). -/
def Context.word (c : Context) (i : Nat) : Nat :=
  match i with
  | 0 => c.root + c.func * 2 + bit c.valid 0
  | 1 => c.poolBase
  | 2 => c.poolSize.toNat
  | _ => c.poolTail.toNat * 2 ^ 32 + c.poolHead.toNat

/-- The debug registers' words (10 R262). -/
def State.debugWord (s : State) (o : Nat) : Nat :=
  let d := s.dbg
  if o = 0 then
    bit (s.agenda.any (fun i =>
      match i with
      | .debugAttach | .debugDetach | .debugStop | .debugResume | .debugStep | .debugRead | .debugWrite => true
      | _ => false)) 63
      + d.status * 2 ^ 59 + d.op * 2 ^ 52 + d.ctx * 2 ^ 46 + d.core * 2 ^ 37 + d.slot * 2 ^ 31
  else if o = 8 then d.kind * 2 ^ 20 + d.num * 2 ^ 12 + d.index * 2 ^ 6
  else if 0x80 ≤ o && o < 0x100 then
    (d.data.getD ((o - 0x80) / 4) 0).toNat + (d.data.getD ((o - 0x80) / 4 + 1) 0).toNat * 2 ^ 32
  else 0

/-- Is a debug request running (10 R262)? -/
def State.debugBusy (s : State) : Bool := (s.debugWord 0).testBit 63

/-- The 64-bit word at an 8-aligned offset of control space; offsets without a register read 0, as reserved fields do
(R4; DEDUCED, log entry 17). In SAFE only MBOX and SECSTAT respond (20 R445). -/
def State.controlWord (s : State) (o : Nat) : Nat :=
  if s.security.state = .safe && o ≠ 0x50000 && o ≠ 0x52000 then 0
  else if o = 0x10000 then
    let f := s.front
    bit f.hqBusy 31 + bit f.hqRefused 30 + f.hqOp * 2 ^ 26 + bit f.hqMode 25 + f.hqSlot * 2 ^ 17 + f.hqQueue * 2 ^ 7
  else if o = 0x10008 then s.front.hqQcb
  else if 0x12000 ≤ o && o < 0x14000 then
    let e := s.runEntry ((o - 0x12000) / 8)
    e.qcb + e.ctx * 2 + bit e.valid 0
  else if 0x20000 ≤ o && o < 0x20800 then (s.context ((o - 0x20000) / 32)).word ((o - 0x20000) % 32 / 8)
  else if o = 0x30000 then s.links.modId.toNat
  else if 0x30100 ≤ o && o < 0x30190 then
    let n := (o - 0x30100) / 8
    bit (s.links.up.getD n false) 16 + (s.links.peer.getD n 0).toNat
  else if 0x40000 ≤ o && o < 0x44000 then
    let e := Table.get (s.context ((o - 0x40000) / 256)).remote (0, 0) ((o - 0x40000) % 256 / 16)
    if o % 16 = 0 then e.1.toNat else e.2.toNat
  else if 0x50000 ≤ o && o < 0x60000 then s.securityWord (o - 0x50000)
  else if 0x60000 ≤ o && o < 0x60100 then s.debugWord (o - 0x60000)
  else 0

/-- The byte at an offset of control space. -/
def State.controlByte (s : State) (o : Nat) : Byte := BitVec.ofNat 8 (s.controlWord (o / 8 * 8) / 2 ^ (8 * (o % 8)))

/-! ### Writes -/

/-- A write of part of a word: the bytes that `mask` covers take `val`'s. -/
def mergeBits (old mask val : Nat) : Nat := (old &&& (2 ^ 512 - 1 - mask)) ||| (val &&& mask)

/-- POOLTAIL is written unless the count would exceed POOLSIZE (11 R269). -/
def State.writePoolTail (s : State) (ctx : Nat) (val : Word) : State :=
  s.modContext ctx (fun c => if c.poolSize.toNat < (val - c.poolHead).toNat then c else { c with poolTail := val })

/-- POOLSIZE is written unless the count would exceed it (11 R269). A value above 2^24 is stored as written (R268; DESIGN CHOICE, log
entry 97). -/
def State.writePoolSize (s : State) (ctx : Nat) (val : Word) : State :=
  s.modContext ctx (fun c => if val.toNat < c.poolCount then c else { c with poolSize := val })

/-- A write of a context descriptor's word (11 R268): reserved and RO fields are ignored. -/
def State.writeContext (s : State) (ctx i mask val : Nat) : State :=
  let new := mergeBits ((s.context ctx).word i) mask val
  match i with
  | 0 => s.modContext ctx (fun c => { c with root := bits new 47 13 * 2 ^ 13, func := bits new 7 1 })
  | 1 => s.modContext ctx (fun c => { c with poolBase := bits new 47 7 * 128 })
  | 2 => s.writePoolSize ctx (BitVec.ofNat 32 new)
  | _ => if mask / 2 ^ 32 = 0 then s else s.writePoolTail ctx (BitVec.ofNat 32 (new / 2 ^ 32))

/-- A write of a remote range's word (19 R431). -/
def State.writeRemote (s : State) (ctx e : Nat) (second : Bool) (mask val : Nat) : State :=
  s.modContext ctx (fun c =>
    let old := Table.get c.remote (0, 0) e
    let new :=
      if second then (old.1, BitVec.ofNat 64 (mergeBits old.2.toNat mask val) &&& 0xFFFFFF#64)
      else (BitVec.ofNat 64 (mergeBits old.1.toNat mask val) &&& 0xFFFFFFFFFFFFFF#64, old.2)
    { c with remote := Table.set c.remote e new })

/-- The event of a debug request's OP (10 R262, R263); a reserved OP ends at once with BAD_REQUEST. -/
def State.startDebug (s : State) : State :=
  match s.dbg.op with
  | 0 => s.due [Instr.debugAttach]
  | 1 => s.due [Instr.debugDetach]
  | 2 => s.due [Instr.debugStop]
  | 3 => s.due [Instr.debugResume]
  | 4 => s.due [Instr.debugStep]
  | 5 => s.due [Instr.debugRead]
  | 6 => s.due [Instr.debugWrite]
  | _ => { s with dbg := { s.dbg with status := 1 } }

/-- A write of a debug register's word (10 R262). -/
def State.writeDebug (s : State) (o mask val : Nat) : State :=
  if s.debugBusy then s
  else
    let set (f : DebugRegs → DebugRegs) : State := { s with dbg := f s.dbg }
    if o = 0 then
      let new := mergeBits (s.debugWord 0) mask val
      set (fun d =>
        { d with op := bits new 55 52, ctx := bits new 51 46, core := bits new 45 37, slot := bits new 36 31 })
    else if o = 8 then
      let new := mergeBits (s.debugWord 8) mask val
      set (fun d => { d with kind := bits new 23 20, num := bits new 19 12, index := bits new 11 6 })
    else if o = 16 then if (val &&& mask).testBit 0 then s.startDebug else s
    else if 0x80 ≤ o && o < 0x100 then
      let new := mergeBits (s.debugWord o) mask val
      let i := (o - 0x80) / 4
      set (fun d => { d with data := (d.data.set i (BitVec.ofNat 32 new)).set (i + 1) (BitVec.ofNat 32 (new / 2 ^ 32)) })
    else s

/-- A write of a word of the security block (20). `tug` tells a Tug's append from the Pilot's. -/
def State.writeSecurity (s : State) (o mask val : Nat) (tug : Bool) : State :=
  let x := s.security
  let merge64 (old : Nat) : Nat := mergeBits old mask val
  let part (i : Nat) (old : Nat) : Nat := mergeBits old (mask * 2 ^ (64 * i)) (val * 2 ^ (64 * i))
  let masked := val &&& mask
  if o = 0 then if masked.testBit 0 then s.writeReady else s
  else if 0x300 ≤ o && o < 0x340 then
    s.modSecurity (fun y => { y with extData := BitVec.ofNat 512 (part ((o - 0x300) / 8) x.extData.toNat) })
  else if o = 0x340 then s.writeExtCmd (mergeBits x.extIndex mask val)
  else if 0x380 ≤ o && o < 0x3C0 then
    s.modSecurity (fun y => { y with nonce := BitVec.ofNat 512 (part ((o - 0x380) / 8) x.nonce.toNat) })
  else if o = 0x3C0 then s.writeAttCmd (mergeBits x.attAddr mask val)
  else if o = 0x448 then s.modSecurity (fun y => { y with spillBase := BitVec.ofNat 64 (merge64 x.spillBase.toNat) })
  else if o = 0x450 then s.modSecurity (fun y => { y with spillM := merge64 x.spillM })
  else if 0x480 ≤ o && o < 0x4A0 then
    s.modSecurity (fun y => { y with append := BitVec.ofNat 256 (part ((o - 0x480) / 8) x.append.toNat) })
  else if o = 0x4A0 then s.auditAppend (masked % 2 ^ 16) tug
  else if o = 0x800 then s.writeCtxCmd (mergeBits (x.ctxOp * 2 ^ 9 + x.ctxCtx) mask val)
  else if o = 0x2000 then s.useFresh.writeMbox (BitVec.ofNat 64 (merge64 x.mbox.toNat)) s.sameFuses
  else if 0x4000 ≤ o && o < 0x4C00 then s.writeCoreCtx ((o - 0x4000) / 8) (mergeBits (s.securityWord o) mask val)
  else s

/-- A write of part of the word at an 8-aligned offset of control space. -/
def State.writeControlWord (s : State) (o mask val : Nat) (tug : Bool) : State :=
  if s.security.state = .safe && o ≠ 0x50000 && o ≠ 0x52000 then s
  else if o = 0x10000 then s.writeHqCmd (mergeBits (s.controlWord o) mask val)
  else if 0x20000 ≤ o && o < 0x20800 then s.writeContext ((o - 0x20000) / 32) ((o - 0x20000) % 32 / 8) mask val
  else if o = 0x30000 then
    { s with links := { s.links with modId := BitVec.ofNat 16 (mergeBits s.links.modId.toNat mask val) } }
  else if 0x40000 ≤ o && o < 0x44000 then
    s.writeRemote ((o - 0x40000) / 256) ((o - 0x40000) % 256 / 16) (o % 16 = 8) mask val
  else if 0x50000 ≤ o && o < 0x60000 then s.writeSecurity (o - 0x50000) mask val tug
  else if 0x60000 ≤ o && o < 0x60100 then s.writeDebug (o - 0x60000) mask val
  else s

/-- A write of `size` bytes at an offset of control space. A doorbell and a run-list entry take only an aligned 8-byte
write (18 R405, R406); elsewhere the bytes written are merged. -/
def State.writeControl (s : State) (o size val : Nat) (tug : Bool) : State :=
  if size = 0 then s
  else if 0x1000000 ≤ o && o < 0x5000000 then
    if s.security.state ≠ .safe && size = 8 && o % 0x10000 = 0 then
      s.doorbell ((o - 0x1000000) / 0x10000) (BitVec.ofNat 64 val) 0
    else s
  else if 0x12000 ≤ o && o < 0x14000 then
    if s.security.state ≠ .safe && size = 8 && o % 8 = 0 then s.writeRunList ((o - 0x12000) / 8) (val % 2 ^ 64) else s
  else
    (List.range ((o % 8 + size + 7) / 8)).foldl (fun s i =>
      let base := o / 8 * 8 + 8 * i
      let all := (2 ^ (8 * size) - 1) * 2 ^ (8 * (o % 8))
      let v := val % 2 ^ (8 * size) * 2 ^ (8 * (o % 8))
      s.writeControlWord base (all / 2 ^ (64 * i) % 2 ^ 64) (v / 2 ^ (64 * i) % 2 ^ 64) tug) s

end Sys2Proof.Machine
end

