-- ==== Sys2Proof/Machine/Halts.lean ====
section
/-! DEFINITION. Halts, kills, the watchdog, queue destruction, shootdowns, host responses, links and outside accesses
(02 R57-R61; 11 R270, R277, R278; 18 R425, R426; 19). -/

namespace Sys2Proof.Machine

/-! ### Halt delivery (02 R57, R58) -/

/-- The CAUSE that a stopped group records when it did not fault itself: WATCHDOG for a watchdog's kill (18 R422), else 0. -/
def Ending.groupCause (e : Ending) : Nat :=
  match e with
  | .kill c => if c = Cause.watchdog.code then c else 0
  | _ => 0

/-- A group is stopped where it stands by a halt that it did not cause (02 R57 items 3 and 4). -/
def State.stopSibling (s : State) (r : GroupRef) : State :=
  let cause := match s.teamOf r with
    | some t => t.ending.groupCause
    | none => 0
  s.stopGroup r { (s.group r).siblingRecord with cause := cause }

/-- Does the group issue in every turn of a barrel slot: neither stalled nor penalised (02 R57 item 4)? -/
def State.isIssuing (s : State) (r : GroupRef) : Bool :=
  let g := s.group r
  g.status = .running && (s.core r.core).barrel.contains (some r.slot) && g.stall = 0 && g.hold = .none && g.paid = 0
    && g.owed = 0
    && g.holdUntil ≤ s.cycle

/-- The halt reaches a group of a team that is ending (02 R57). How many of the three instructions it still issues is a
free value (log entry 5). -/
def State.haltDelivery (s : State) (r : GroupRef) : State :=
  match s.teamOf r with
  | none => s
  | some team =>
    let g := s.group r
    if team.ending = .no || team.ending = .phase || g.status = .halted || g.status = .exited || g.skidLeft.isSome then s
    else if s.isIssuing r then
      let n := Config.skid s.fresh % 4
      if n = 0 then s.useFresh.stopSibling r
      else s.useFresh.modGroup r (fun g => { g with skidLeft := some n, skid := 0 })
    else s.stopSibling r

/-- After a skid instruction: the group stops when it may issue no more, or when its run has ended (02 R57 item 3). -/
def State.skidEnds (s : State) (r : GroupRef) : State :=
  let g := s.group r
  match g.skidLeft with
  | none => s
  | some n =>
    if g.status = .halted || g.status = .exited then s.modGroup r (fun g => { g with skidLeft := none })
    else if n = 0 || g.status ≠ .running || !(s.core r.core).barrel.contains (some r.slot) then s.stopSibling r
    else s

/-- A reservation's advance arrives. It is applied as the cycle ends, after the consumer advances of the cycle (01 R21). -/
def Ring.complete (x : Ring) (id : Nat) : Ring :=
  { x with reserved := x.reserved.map (fun r => if r.id = id then { r with done := true } else r) }

/-- The held drain of a killed team is discarded (14 R344): the queue proceeds, its reservation is given up, and its berth
becomes free. -/
def State.discardHeld (s : State) (t : TeamRef) : State :=
  match (s.core t.core).drain.find? (fun c => c.team = t.team && c.held.isSome) with
  | none => s
  | some c =>
    s.modCore t.core (fun k =>
      { k with
        drain := k.drain.filter (fun d => d.id ≠ c.id)
        berths := Table.set k.berths c.berth Berth.free
        rings := match c.ring with
          | some n => Table.modify k.rings n (fun x => x.complete c.id)
          | none => k.rings })

/-- The results of held accesses that are not performed after all are given up (11 R273). -/
def Group.forget (g : Group) (ps : List HeldAccess) : Group :=
  { g with outstanding := g.outstanding.filter (fun o => !ps.any (fun p => p.result = o.id)) }

/-- The held accesses of a group that a refused page stops are dropped (11 R273); those behind them are performed (09 R237). -/
def Group.dropRefused (g : Group) (page : DWord) : Group :=
  let gone (p : HeldAccess) : Bool := p.cause ≠ 0 && p.page = page
  { g.forget (g.predicted.filter gone) with predicted := g.predicted.filter (fun p => !gone p) }

/-- The kill of a halted team, once its groups have stopped, its commands have settled (02 R58; 16 R382), and its accesses, those that
a failed prediction holds among them, are performed (09 R237). Its held drain goes at once. -/
def State.teamKill (s : State) (t : TeamRef) : State :=
  match s.team? t with
  | none => s
  | some team =>
    match team.ending with
    | .kill c =>
      let s := s.discardHeld t
      if s.liveSlots t team ≠ [] || s.commandsOut t || s.loadsOut t team then s.due [Instr.teamKill t]
      else s.killTeam t team c
    | _ => s

/-! ### The watchdog (18 R426) -/

/-- A team's residency clock in nanoseconds. -/
def State.teamClock (s : State) (team : Team) : Nat :=
  (team.frozenAt.getD s.time) - team.clockStart - team.clockFrozen

/-- Has the team's clock reached a limit in microseconds? -/
def State.clockReached (s : State) (team : Team) (limit : Nat) : Bool := limit ≠ 0 && limit * 1000 ≤ s.teamClock team

/-- T1 requests pre-emption (02 R61); a team that a debugger has stopped keeps the request. -/
def State.watchdogT1 (s : State) (t : TeamRef) : State :=
  match s.team? t with
  | none => s
  | some team =>
    match s.launch? team.launch with
    | none => s
    | some l =>
      if s.clockReached team l.t1 && (team.ending = .no || team.ending = .stop) then
        (s.modTeam t (fun x => { x with preempt := true })).due [Instr.eviction t]
      else s

/-- T2 kills the team with WATCHDOG. -/
def State.watchdogT2 (s : State) (t : TeamRef) : State :=
  match s.team? t with
  | none => s
  | some team =>
    match s.launch? team.launch with
    | none => s
    | some l => if s.clockReached team l.t2 then s.haltTeam t Cause.watchdog.code else s

/-- A team of a fenced core is killed with WATCHDOG at once: its groups stop, and its engine commands are abandoned. -/
def State.fenceTeam (s : State) (t : TeamRef) : State :=
  match s.team? t with
  | none => s
  | some team =>
    let s := s.modTeam t (fun x => { x with ending := .kill Cause.watchdog.code })
    let s := (s.liveSlots t team).foldl (fun s slot => s.stopSibling ⟨t.core, slot⟩) s
    s.killTeam t team Cause.watchdog.code

/-- T3 fences the core (18 R426). -/
def State.watchdogT3 (s : State) (t : TeamRef) : State :=
  match s.team? t with
  | none => s
  | some team =>
    match s.launch? team.launch with
    | none => s
    | some l =>
      if s.clockReached team l.t3 then
        let s := s.modCore t.core (fun k =>
          { k with
            fenced := true, crane := [[], [], [], []], matrix := { k.matrix with queue := [] }, drain := [], bulk := []
            taking := 0, surrogate := { k.surrogate with queue := [] } })
        let teams := (s.core t.core).teams.map (fun e => (⟨t.core, e.1⟩ : TeamRef))
        (teams.foldl State.fenceTeam s).log 9 team.ctx (bytesOfNum 2 t.core)
      else s

/-- An eviction (02 R53-R55), due in the cycles in which the team is at a pre-emption point with a request pending; the request
lapses when the save area has no free block (18 R426). -/
def State.evictionStep (s : State) (t : TeamRef) : State :=
  match s.team? t with
  | none => s
  | some team =>
    match s.launch? team.launch with
    | none => s
    | some l =>
      if s.atPoint t team then
        let s := s.modTeam t (fun x => { x with preempt := false })
        s.evict t { team with preempt := false } l
      else s

/-! ### Destruction of a queue (18 R425) -/

/-- The number under which the destruction of a queue waits for pages: no packet's. -/
def destroyIndex : Nat := 2 ^ 64

/-- Zeroes a part of a range that lies in one page, for the front-end Crane, whose writes need W and set D (11 R267, R275): none
where it waits for the page. A part that meets a fault is left (DEDUCED, log entry 77). -/
def State.zeroPart (s : State) (q ctx : Nat) (va : DWord) (n : Nat) : State × Bool :=
  match s.translatePlain ctx .write false va with
  | .ok t => ((s.markDirty ctx va).writeSpots ((List.range n).map t.target.spot) (List.replicate n 0), true)
  | .error m =>
    match s.queueRetry q destroyIndex (m.retry va) with
    | .wait page => (s.queueWaits q destroyIndex page, false)
    | .fault _ => (s, true)

/-- Zeroes a virtual range: is it done, or does a part of it wait for its page? -/
def State.zeroRange (s : State) (q ctx : Nat) (va : DWord) (n : Nat) : State × Bool :=
  (chunksOf va n).foldl (fun x c =>
    let y := x.1.zeroPart q ctx c.1 c.2
    (y.1, x.2 && y.2)) (s, true)

/-- Zeroes the ranges that the destruction of a queue has left; those that wait for a page are kept. -/
def State.zeroAreas (s : State) (q : Nat) : State :=
  let ctx := (s.runEntry q).ctx
  let x := (s.frontQueue q).areas.foldl (fun (x : State × List (DWord × Nat)) a =>
    let y := x.1.zeroRange q ctx a.1 a.2
    (y.1, if y.2 then x.2 else x.2 ++ [a])) (s, [])
  x.1.modQueue q (fun f => { f with areas := x.2 })

/-- The packets that have not retired are completed with −1 (R425 steps 3 and 4): a BARRIER or PRED that has started is
abandoned, and a complete packet's signal takes −1 as well. No failure of a packet has set ERR here. -/
def State.failUnretired (s : State) (q : Nat) : State :=
  (s.frontQueue q).packets.foldl (fun s p =>
    if p.complete then
      (s.modPacket q p.index (fun p => { p with progress := .started })).finishWith q p.index false false false
    else if p.progress = .started && (p.type = 2 || p.type = 5) then
      (s.forgetWaits q p.index).finishWith q p.index false true false
    else s) s

/-- UNMAP with MODE 1, steps 1 to 4: a BARRIER or PRED is abandoned as a failure, the queue's launches drain, and the remaining
packets retire with −1. A launch whose area has lost a page drains once the page is there (log entry 36). -/
def State.unmapDestroy (s : State) (slot : Nat) : State :=
  match Table.find s.front.slots slot with
  | none => s.hqDone true
  | some q =>
    let mine := s.front.launches.filter (fun e => e.2.queue = q)
    let base := BitVec.ofNat 64 (s.qcbField q 0 8)
    let areas := mine.flatMap (fun e => [(e.2.area, e.2.areaSize), (e.2.save, e.2.saveSize)])
      ++ (if base.msb then [(base, 64 * s.qcbField q 8 4)] else [])
    let begun := (s.frontQueue q).destroying
    let s :=
      if begun then s
      else (s.modQueue q (fun f => { (f.waitsOf (f.packets.filter (fun p => p.progress ≠ .waiting))) with
        destroying := true, areas := areas })).failUnretired q
    let s := (mine.filter (fun e => !e.2.draining && !e.2.lost)).foldl (fun s e =>
      let s := s.modLaunch e.1 (fun l => { l with draining := true })
      ((s.setArea e.2 4 1 (s.launchField e.2 4 1 ||| 2)).discardWork e.1 e.2).completeLaunch e.1) s
    (s.pump q).due
      [if mine.any (fun e => !e.2.draining && e.2.lost) then Instr.unmapDestroy (Fin.ofNat 128 slot)
        else Instr.queueDestroyed (Fin.ofNat 1024 q)]

/-- Step 5: when every packet has retired and every launch is complete, the areas and a ring in device memory are zeroed,
and the queue is destroyed. Until then the step is due again. -/
def State.queueDestroyed (s : State) (q : Nat) : State :=
  if !(s.frontQueue q).destroying then s
  else
    let s := s.pump q
    let live := s.front.launches.any (fun e => e.2.queue = q)
    let again := Instr.queueDestroyed (Fin.ofNat 1024 q)
    if live || (s.frontQueue q).packets ≠ [] || s.qcbField q 0x10 8 ≠ s.qcbField q 0x20 8 then s.due [again]
    else
      let s := s.zeroAreas q
      if (s.frontQueue q).areas ≠ [] then s.due [again]
      else
        let s := (s.setQcb q 0x28 1 (s.qState q ||| 4)).queueInterrupt q
        let s := s.modFront (fun x =>
          { x with
            slots := x.slots.filter (fun e => e.2 ≠ q)
            runList := Table.modify x.runList q (fun e => { e with valid := false })
            queues := Table.erase x.queues q })
        s.hqDone false

/-! ### Shootdowns (11 R278) -/

/-- The buffered stores of a context are performed on every core. -/
def State.flushContext (s : State) (ctx : Nat) : State :=
  let refs := s.cores.flatMap (fun e =>
    ((e.2.stores.filter (fun b => b.ctx = ctx)).map (fun b => (⟨e.1, b.slot⟩ : GroupRef))).eraseDups)
  refs.foldl State.flushStores s

/-- May a result be written into the file now (07 R165): after every earlier fixed-latency write to its registers and every
earlier return to them, and with the write ports of its banks not taken in this cycle? -/
def Group.mayReturn (g : Group) (cycle : Nat) (o : Outstanding) : Bool :=
  let regs := o.regs.map (·.1)
  let bank (reg : Reg) : Option Nat := match reg with
    | .v n => some (n % 4)
    | _ => none
  g.inflight.all (fun w =>
      !regs.contains w.reg && !(w.port && w.due = cycle && regs.any (fun x => bank x = bank w.reg)))
    && (g.outstanding.takeWhile (fun x => x.id ≠ o.id)).all (fun x => x.regs.all (fun y => !regs.contains y.1))

/-- A variable-latency result returns (07 R165): its register takes its lanes, and its pending bits clear. A result that may
not be written yet, or whose group has a shootdown under way (11 R284), stays due. -/
def State.returnResult (s : State) (r : GroupRef) (id : Nat) : State :=
  let s := s.settle r
  match (s.group r).outstanding.find? (fun o => o.id = id) with
  | none => s
  | some o =>
    if !(s.group r).mayReturn s.cycle o || s.shootdowns.any (fun x => x.group = some r) then s.due [Instr.loadReturn r id]
    else
      let s := o.regs.foldl (fun s x => s.writeReg r x.1 o.mask x.2) s
      let s := if o.slots = 0 then s else s.modCore r.core (fun k => { k with taking := k.taking - o.slots })
      s.modGroup r (fun g =>
        { g with
          outstanding := g.outstanding.filter (fun x => x.id ≠ id)
          landed := o.regs.map (·.1) ++ g.landed
          poison := if o.poisoned then ((o.regs.map (·.1)) ++ g.poison).eraseDups
            else g.poison.filter (fun reg => !(o.regs.any (fun x => x.1 = reg) && wholeWrite reg o.mask)) })

/-- A shootdown completes: the translations are dropped and the stores accepted under them performed; its packet completes,
and an unmap's result becomes due (11 R278, R284; 18 R411). -/
def State.shootdownComplete (s : State) (id : Nat) : State :=
  match s.shootdowns.find? (fun x => x.id = id) with
  | none => s
  | some x =>
    let s := ((s.flushContext x.ctx).dropTlbs x.ctx x.lo x.hi).refreshAreas x.ctx x.lo x.hi
    let s := { s with shootdowns := s.shootdowns.filter (fun y => y.id ≠ id) }
    match x.packet with
    | some (q, index) => (s.finishPacket q index true true).pump q
    | none => s

/-! ### The host's answers (11 R270, R277) -/

/-- The packets of a queue that waited for the host's answer for a page go on; one that it has refused them is a fault to
them, once. -/
def State.resumeQueue (s : State) (q : Nat) (page : DWord) (refused : Bool) : State :=
  let s := s.modQueue q (fun f =>
    { f with
      hostWait := f.hostWait.filter (fun w => w.2 ≠ page)
      refused := if refused then f.hostWait.filter (fun w => w.2 = page) ++ f.refused
        else f.refused.filter (fun w => w.2 ≠ page) })
  let started := (s.frontQueue q).packets.filter (fun p => p.progress = .started && p.type ≠ 1)
  let again := started.map (fun p =>
    if p.type = 2 then Instr.barrierEvaluation (Fin.ofNat 1024 q)
    else if p.type = 4 then Instr.copyComplete (Fin.ofNat 1024 q) (BitVec.ofNat 64 p.index)
    else packetEvent p.type q)
  (s.pump q).due again

/-- The groups and queues that wait for a page: the request leaves the context. -/
def State.takeRequest (s : State) (ctx : Nat) (page : DWord) : Option (HostRequest × State) :=
  ((s.context ctx).hostRequests.find? (fun h => h.page = page)).map (fun h =>
    (h, s.modContext ctx (fun c => { c with hostRequests := c.hostRequests.filter (fun x => x.page ≠ page) })))

/-- The groups that a request holds. -/
def State.heldFor (s : State) (h : HostRequest) : List GroupRef :=
  h.groups.filter (fun r => (s.group r).status = .hostHeld h.page)

/-- The groups that go on issuing and whose held accesses wait for a page (11 R273), each with the cause of the fault. -/
def State.predictedFor (s : State) (h : HostRequest) : List (GroupRef × Nat) :=
  h.groups.eraseDups.filterMap (fun r =>
    if (s.group r).status = .hostHeld h.page then none
    else ((s.group r).predicted.find? (fun p => p.cause ≠ 0 && p.page = h.page)).map (fun p => (r, p.cause)))

/-- A group is halted from outside with the KILLED flag (11 R273, R277; 19 R434). One that has stopped or exited keeps its record
(02 R57; 10 R259), and its team is halted. -/
def State.hostKills (s : State) (r : GroupRef) (cause : Nat) : State :=
  let g := s.group r
  match g.status, g.kind with
  | .halted, .general => s.haltTeam ⟨r.core, g.team⟩ 0
  | .exited, .general => s.haltTeam ⟨r.core, g.team⟩ 0
  | _, _ => s.haltWith r { pc := g.pc, cause := cause, reason := 0, skid := 0, flags := 32, detail := 0 }

/-- The host has refused a page: the Crane commands and the srg.load entries that wait for it fault (12 R303; 15 R367), and the
halt-area entries that wait for it are skipped (log entry 16). -/
def State.refuseEngines (s : State) (ctx : Nat) (page : DWord) : State :=
  let command (c : CraneCommand) : CraneCommand :=
    if c.ctx = ctx && c.awaits = some page then { c with fault := some c.awaitsAt, awaits := none } else c
  let entry (e : SurrogateEntry) : SurrogateEntry :=
    match e with
    | .load slot result id addr x user (some p) refused => .load slot result id addr x user (some p) (refused || (x = ctx && p = page))
    | e => e
  let s := s.modFront (fun f => { f with halts := f.halts.filter (fun w => !(w.ctx = ctx && w.awaits = some page)) })
  { s with
    cores := s.cores.map (fun e =>
      (e.1,
        { e.2 with
          crane := e.2.crane.map (fun q => q.map command)
          surrogate := { e.2.surrogate with queue := e.2.surrogate.queue.map entry } })) }

/-- Is a step another module's access that waits for a page here (19 R432)? -/
def waitsRemotely (ctx : Nat) (page : DWord) (i : Instr) : Bool :=
  match i with
  | .remoteAccess c va _ => c = ctx && (pageOf va = page || pageOf (va + 15) = page)
  | _ => false

/-- The host maps a page or refuses it (11 R277): a refusal halts the team with PAGE_NOT_PRESENT and KILLED, or for an access
that a failed prediction holds with the cause of its fault (R273). -/
def State.hostPageResponse (s : State) (ctx : Nat) (page : DWord) (mapped : Bool) : State :=
  match s.takeRequest ctx page with
  | none => s
  | some (h, s) =>
    let s := (s.heldFor h).foldl (fun s r =>
      if mapped then s.wake r else s.hostKills r Cause.pageNotPresent.code) s
    let s := if mapped then s else
      (s.predictedFor h).foldl (fun s x => (s.hostKills x.1 x.2).modGroup x.1 (fun g => g.dropRefused page)) s
    let s := if mapped then s else (s.refuseEngines ctx page).dropDue (waitsRemotely ctx page)
    h.queues.foldl (fun s q => s.resumeQueue q page (!mapped)) s

/-- The queues of a context that the front end keeps packets of or that are attached. -/
def State.queuesOf (s : State) (ctx : Nat) : List Nat :=
  (s.front.queues.map (·.1) ++ s.front.slots.map (·.2)).eraseDups.filter (fun q => (s.runEntry q).ctx = ctx)

/-- An ATS completion (11 R270). One that grants no access is never held (R271): a page request for the page goes out, for which
every access to it waits. The queues of the context go on (18 R407, R411). -/
def State.atsCompletion (s : State) (ctx : Nat) (page : DWord) (r w : Bool) : State :=
  if !(s.context ctx).valid || page.msb then s
  else
    let s :=
      if r || w then
        s.modContext ctx (fun c =>
          { c with ats := ⟨pageOf page, c.func, r, w⟩ :: c.ats.filter (fun x => x.page ≠ pageOf page) })
      else s.requestPage ctx (pageOf page) none none
    (s.queuesOf ctx).foldl State.pump s

/-- A Page Request Group response (11 R270): success retries the access, which asks for the page anew; any other response raises
HOST_PAGE. -/
def State.priResponse (s : State) (ctx : Nat) (page : DWord) (ok : Bool) : State :=
  match s.takeRequest ctx page with
  | none => s
  | some (h, s) =>
    let s := (s.heldFor h).foldl (fun s r =>
      if ok then s.wake r
      else s.trap r { Trap.plain .hostPage with lanes := some (s.group r).em, addr := page }) s
    let s := if ok then s else s.refuseEngines ctx page
    h.queues.foldl (fun s q => s.resumeQueue q page (!ok)) s

/-- An ATS Invalidate Request (11 R270): the accesses accepted under the translation are performed, and it is dropped. -/
def State.atsInvalidate (s : State) (ctx : Nat) (page : DWord) : State :=
  (s.flushContext ctx).modContext ctx (fun c => { c with ats := c.ats.filter (fun x => x.page ≠ pageOf page) })

/-! ### Links (19 R430, R434) -/

/-- A link is trained. -/
def State.linkUp (s : State) (n : Nat) (peer : BitVec 16) : State :=
  { s with links := { s.links with up := s.links.up.set n true, peer := s.links.peer.set n peer } }

/-- A link goes down: accepted remote accesses are resent over another, and a team whose access has none left is halted
with PHYS_HOLE and KILLED. -/
def State.linkDown (s : State) (n : Nat) : State :=
  let s := { s with links := { s.links with up := s.links.up.set n false } }
  let stranded (g : Group) : Bool := g.outstanding.any (fun o => o.remote.any (fun e => !s.linkFor e))
  (s.groupsWhere (fun g => stranded g && g.status ≠ .halted && g.status ≠ .exited)).foldl (fun s r =>
    s.hostKills r Cause.physHole.code) s

end Sys2Proof.Machine
end

