-- ==== Sys2Proof/Machine/Outside.lean ====
section
/-! DEFINITION. Atomics, and the accesses of other modules and of the host to this one (09 R227; 19 R429, R432, R433). -/

namespace Sys2Proof.Machine

/-! ### Atomics (09 R227) -/

/-- The new value of an atomic of `n` bytes; `op2` is the new value of cas. -/
def atomicNew (sub ty n old op op2 : Nat) : Nat :=
  let w := 8 * n
  let sg := typeSigned ty
  let a := intOf w sg (num64 old)
  let b := intOf w sg (num64 op)
  match sub with
  | 0 => if ty = 9 then (f32Format.add 0 old op).1 else (old + op) % 2 ^ w
  | 1 => if a ≤ b then old else op
  | 2 => if b ≤ a then old else op
  | 3 => old &&& op
  | 4 => old ||| op
  | 5 => old ^^^ op
  | 6 => op
  | _ => if old = op then op2 else old

/-! ### Accesses from outside the package (19 R429, R432, R433) -/

/-- The size of an outside access, and what it writes given the old value; none for a read. -/
def outsideEffect (a : OutsideAccess) (old : Nat) : Option (Nat × Nat) :=
  match a with
  | .read _ => none
  | .write n v => some (n, v.toNat)
  | .atomic sub ty n v c =>
    some (n, if sub = 7 then atomicNew 7 ty n old (c.toNat % 2 ^ (8 * n)) v.toNat else atomicNew sub ty n old v.toNat 0)
  | .fetchAdd n v => some (n, (old + v.toNat) % 2 ^ (8 * n))
  | .swap n v => some (n, v.toNat)
  | .cas n c v => some (n, if old = c.toNat % 2 ^ (8 * n) then v.toNat else old)

/-- The bytes of an outside access. -/
def outsideSize (a : OutsideAccess) : Nat :=
  match a with
  | .read n => n
  | .write n _ => n
  | .atomic _ _ n _ _ => n
  | .fetchAdd n _ => n
  | .swap n _ => n
  | .cas n _ _ => n

/-- What an outside access does. -/
def outsideKind (a : OutsideAccess) : AccessKind :=
  match a with
  | .read _ => .read
  | .write _ _ => .write
  | _ => .atomic

/-- A host access through BAR2 (19 R429): performed at the home slice or at the window's core, with no context; refused in
a hole and at a core without power (01 R25). An atomic on a window region other than the scratchpad is not performed (01 R27;
DEDUCED, log entry 76). -/
def State.bar2Access (s : State) (addr : Nat) (a : OutsideAccess) : State :=
  let ps := (List.range (outsideSize a)).map (fun i => placeOf (addr + i))
  let bad := ps.any (fun p =>
    match p with
    | .mem _ => false
    | .window core _ r => s.isGated core || (outsideKind a = .atomic && r ≠ .scratchpad)
    | _ => true)
  if bad then s
  else
    match outsideEffect a (numOfBytes (s.spotBytes (ps.map Spot.device))) with
    | none => s
    | some (n, v) => s.storeOutside addr (bytesOfNum n v)

/-- What another module's access does here (19 R432, R433): it is translated by this module's own tables in the context it names,
and one that meets a fault is answered with it and changes nothing. One to a page that is not present takes the host path
(11 R277). -/
def State.remoteAccess (s : State) (ctx : Nat) (va : DWord) (a : OutsideAccess) : State :=
  if !(s.context ctx).valid then s
  else
    match s.spotsAt true ctx (outsideKind a) va (outsideSize a) with
    | .ok ps =>
      match outsideEffect a (numOfBytes (s.spotBytes ps)) with
      | none => s
      | some (n, v) => ((chunksOf va n).foldl (fun s c => s.markDirtyHere ctx c.1) s).writeSpots ps (bytesOfNum n v)
    | .error (addr, m) =>
      match m with
      | .notPresent => (s.requestPage ctx (pageOf addr) none none).due [Instr.remoteAccess (Fin.ofNat 64 ctx) va a]
      | .atsPending => s.due [Instr.remoteAccess (Fin.ofNat 64 ctx) va a]
      | _ => s

end Sys2Proof.Machine
end

