-- ==== Sys2Proof/Machine/Access.lean ====
section
/-! DEFINITION. The load-store engine's accesses: addresses, the checks of 09 R220, and reading and writing (09 R213-R228,
R237; 06 R131-R158). -/

namespace Sys2Proof.Machine

/-! ### A lane's access (R217, R220) -/

/-- Why a lane's access is not performed. -/
inductive LaneFail where
  /-- A cause of R220 with the lane's address. -/
  | cause (c : Cause) (addr : DWord)
  /-- PAGE_NOT_PRESENT (11 R276) for a page, with the lane's address. -/
  | touch (page addr : DWord)
  /-- It waits, or takes the host path (11 R270, R276, R277). -/
  | stop (x : Stop)
  /-- It used a predicted translation, and the walk met a fault at a page (11 R273). -/
  | held (page : DWord) (cause : Nat)
  deriving DecidableEq, Repr

/-- The order of a cause in the table of R220, up to the windows' causes. -/
def causeOrder (c : Cause) : Nat :=
  match c with
  | .nonCanonical => 1
  | .physHole => 3
  | .windowContext | .windowPriv => 4
  | .windowAtomic | .hostAtomic => 5
  | _ => 2

/-- The order of R220 at which an access fails. -/
def LaneFail.order (e : LaneFail) : Nat :=
  match e with
  | .cause c _ => causeOrder c
  | _ => 2

/-- The failure of the lowest order (R220), and of those that of the lowest address. -/
def firstOf (es : List LaneFail) : Option LaneFail := [1, 2, 3, 4, 5].findSome? (fun n => es.find? (fun e => e.order = n))

/-- A lane's access that has passed its checks: where each byte lies, whether a part is strongly ordered (06 R137, R139),
and the remote ranges it goes through (19 R431). -/
structure LaneAccess where
  lane : Nat
  addr : DWord
  spots : List Spot
  strong : Bool
  remote : List (DWord × DWord)
  deriving DecidableEq, Repr

/-- What a missing translation of a part of a lane's access does (11 R270, R276, R277). A page of another module takes the host
path there, whatever this module's pool (19 R432). -/
def State.dataMiss (s : State) (r : GroupRef) (addr va : DWord) (m : Miss) : LaneFail :=
  match m with
  | .cause c => .cause c addr
  | .atsPending => .stop (.stall (.accept (.ats (pageOf va))))
  | .atsDenied => .stop (.hostPath (pageOf va))
  | .notPresent =>
    if s.touches r && ((s.context (s.attrs r).ctx).remoteOf va.toNat).isNone then .touch (pageOf va) addr
    else .stop (.hostPath (pageOf va))

/-- The cause of a walk that met a fault of R266, as a prediction reports it (11 R273). -/
def Miss.walkFault (m : Miss) : Option Nat :=
  match m with
  | .notPresent => some Cause.pageNotPresent.code
  | .cause .pagePermission => some Cause.pagePermission.code
  | .cause .pageOrd => some Cause.pageOrd.code
  | _ => none

/-- Has an access of a core a translation to predict from (11 R273): an entry for another page of the run that CONT asserts, not
strongly ordered, that permits it, where no entry covers the page? -/
def State.mayPredict (s : State) (core ctx : Nat) (k : AccessKind) (asUser : Bool) (va : DWord) : Bool :=
  let v := va.toNat % 2 ^ 56
  let tlb := (s.core core).tlb ++ Table.get s.dieTlb [] (dieOf core)
  bits va.toNat 63 56 = 0xFF && ((s.context ctx).remoteOf va.toNat).isNone && (tlbFind tlb ctx v).isNone
    && tlb.any (fun t =>
      t.ctx = ctx && t.level = 0 && t.cont ≠ 0 && t.ord ≠ 0 && permits t.r t.w t.x t.user k asUser
        && t.pages.any (fun p => p.1 / 2 ^ t.cont = pageNumber 0 v / 2 ^ t.cont))

/-- What the checks of R220 orders 1 to 5 find in a part of an access, or in all of it: what fails, the spots of its bytes, and
whether a page is strongly ordered (06 R139). -/
structure Checked where
  fails : List LaneFail
  spots : List Spot
  strong : Bool
  deriving DecidableEq, Repr

/-- The part of a lane's access that lies in one page; `addr` is the lane's address. -/
def State.pagePart (s : State) (r : GroupRef) (k : AccessKind) (addr va : DWord) (n : Nat) : State × Checked :=
  let a := s.attrs r
  let g := s.group r
  let user : Bool := g.privilege = .user
  let fail (e : LaneFail) : Checked := { fails := [e], spots := [], strong := false }
  match g.predicted.find? (fun p => p.cause ≠ 0 && p.page = pageOf va) with
  | some p => (s, fail (.held p.page p.cause))
  | none =>
  let (s', t) := s.translate r.core a.ctx k user va
  match t with
  | .error m =>
    match if s.mayPredict r.core a.ctx k user va then m.walkFault else none with
    | some c =>
      (s'.useFresh, fail (if Config.predicts s.fresh then .held (pageOf va) c else s.dataMiss r addr va m))
    | none => (s', fail (s.dataMiss r addr va m))
  | .ok t =>
    let closed (i : Nat) : Bool := user && k.writes && s.inArea a.ctx (va + BitVec.ofNat 64 i)
    let spots := (List.range n).map t.target.spot
    (s',
      { fails := (if (List.range n).any closed then [.cause .pagePermission addr] else [])
          ++ spots.filterMap (fun p => (s.spotCause a.ctx (g.kind = .tug) k p).map (fun c => .cause c addr))
        spots := spots, strong := t.ord = 0 })

/-- The parts of a lane's access (06 R139). -/
def State.pageParts (s : State) (r : GroupRef) (k : AccessKind) (addr : DWord) (cs : List (DWord × Nat)) : State × Checked :=
  match cs with
  | [] => (s, { fails := [], spots := [], strong := false })
  | c :: rest =>
    let (s', x) := s.pagePart r k addr c.1 c.2
    let (s'', y) := s'.pageParts r k addr rest
    (s'', { fails := x.fails ++ y.fails, spots := x.spots ++ y.spots, strong := x.strong || y.strong })

/-- An access to virtual memory. -/
def State.virtualAccess (s : State) (r : GroupRef) (k : AccessKind) (lane : Nat) (va : DWord) (n : Nat) :
    State × Except LaneFail LaneAccess :=
  let (s', x) := s.pageParts r k va (chunksOf va n)
  match firstOf x.fails with
  | some e => (s', .error e)
  | none =>
    let c := s.context (s.attrs r).ctx
    let ranges := (chunksOf va n).filterMap (fun p => if p.1.msb then c.remoteOf p.1.toNat else none)
    (s', .ok { lane := lane, addr := va, spots := x.spots, strong := x.strong, remote := ranges.eraseDups })

/-- The spots of a range of device physical memory. -/
def physicalSpots (pa n : Nat) : List Spot := (List.range n).map (fun i => Spot.device (placeOf (pa + i)))

/-- The signed displacement in EXT (R213). -/
def dispOf (f : LongFields) : Int := f.ext.toInt

/-- The index times its scale (R217). -/
def scaledIndex (f : LongFields) (b : DWord) : Int :=
  intOf 32 (!f.ixu) b * (2 ^ f.scale : Nat)

/-- The three kinds of address that are not private (R217). -/
inductive AddressKind where
  | virtual_
  | scratch
  | window
  deriving DecidableEq, Repr

/-- The kind of address of an opcode. -/
def addressKind (op : Op) : AddressKind :=
  match op with
  | .lds | .sts | .atoms | .reds => .scratch
  | .ldw | .stw => .window
  | _ => .virtual_

/-- A lane's virtual address (R217); stm has no index. -/
def virtualAddress (op : Op) (f : LongFields) (a b : DWord) : DWord :=
  a + BitVec.ofInt 64 ((if op = .stm then 0 else scaledIndex f b) + dispOf f)

/-- A lane's access with the checks of R220 orders 1 to 7. -/
def State.laneAccess (s : State) (r : GroupRef) (op : Op) (f : LongFields) (k : AccessKind) (n lane : Nat) (a b : DWord) :
    State × Except LaneFail LaneAccess :=
  let attrs := s.attrs r
  match addressKind op with
  | .virtual_ => s.virtualAccess r k lane (virtualAddress op f a b) n
  | .scratch =>
    let off := (intOf 32 false a + scaledIndex f b + dispOf f) % (2 ^ 32 : Nat) |>.toNat
    let addr := BitVec.ofNat 64 off
    if k = .atomic && off % n ≠ 0 then (s, .error (.cause .misaligned addr))
    else if attrs.scratchBytes < off + n then (s, .error (.cause .scratchRange addr))
    else
      (s, .ok
        { lane := lane, addr := addr, spots := physicalSpots (windowBase r.core + attrs.scratchBase + off) n
          strong := false, remote := [] })
  | .window =>
    let core := (intOf 32 false a).toNat
    let off := intOf 32 false b + dispOf f
    let pa := (0x0F0000000000 + 0x10000000 * core : Nat) + off
    let addr := BitVec.ofInt 64 pa
    if 383 < core || off < 0 || 0x0FFFFFFF < off then (s, .error (.cause .physHole addr))
    else
      let spots := physicalSpots pa.toNat n
      let causes := spots.filterMap (fun p => s.spotCause attrs.ctx ((s.group r).kind = .tug) k p)
      match firstOf (causes.map (fun c => .cause c addr)) with
      | some e => (s, .error e)
      | none => (s, .ok { lane := lane, addr := addr, spots := spots, strong := false, remote := [] })

/-- Does an access touch the host-shared half? -/
def LaneAccess.onHost (x : LaneAccess) : Bool :=
  x.spots.any (fun p => match p with
    | .host _ _ => true
    | _ => false)

/-- Is an atomic one that the host-shared half accepts (06 R136)? -/
def hostAtomicOk (f : LongFields) : Bool := (f.lsub = 0 && f.ty ≠ 9) || f.lsub = 6 || f.lsub = 7

/-- R220 orders 5, 6 and 8 for an access that has passed the others. -/
def State.lateChecks (s : State) (r : GroupRef) (f : LongFields) (k : AccessKind) (n : Nat) (x : LaneAccess) :
    Except LaneFail LaneAccess :=
  if k = .atomic && x.onHost && !hostAtomicOk f then .error (.cause .hostAtomic x.addr)
  else if k = .atomic && x.addr.toNat % n ≠ 0 then .error (.cause .misaligned x.addr)
  else if k.writes && (s.group r).kind = .recovery then .error (.cause .purity x.addr)
  else .ok x

/-- Every lane of an instruction, checked in ascending order; translation goes on from lane to lane. Every byte of an active lane's
access is checked, also those that the mask of stm disables (DESIGN CHOICE, log entry 92). -/
def State.laneAccesses (s : State) (r : GroupRef) (op : Op) (f : LongFields) (k : AccessKind) (n : Nat) (x : Issue)
    (ls : List Nat) : State × List (Nat × Except LaneFail LaneAccess) :=
  match ls with
  | [] => (s, [])
  | l :: rest =>
    let (s', a) := s.laneAccess r op f k n l (laneVal x.a l) (laneVal x.b l)
    let a := match a with
      | .ok y => s.lateChecks r f k n y
      | .error e => .error e
    let (s'', more) := s'.laneAccesses r op f k n x rest
    (s'', (l, a) :: more)

/-- The lanes that fail with a cause. -/
def failMask (xs : List (Nat × Except LaneFail LaneAccess)) (c : Cause) : Mask :=
  Mask.ofFn (fun l => xs.any (fun x => x.1 = l &&
    (match x.2 with
     | .error (.cause d _) => d = c
     | .error (.touch _ _) => c = .pageNotPresent
     | _ => false)))

/-- What the lowest failing lane does (R220). -/
def firstFail (all xs : List (Nat × Except LaneFail LaneAccess)) : Option Stop :=
  match xs with
  | [] => none
  | (_, .ok _) :: rest => firstFail all rest
  | (_, .error (.stop x)) :: _ => some x
  | (_, .error (.held page _)) :: _ => some (.hostPath page)
  | (_, .error (.cause c addr)) :: _ => some (.trap { Trap.plain c with lanes := some (failMask all c), addr := addr })
  | (_, .error (.touch _ addr)) :: _ =>
    some (.trap { Trap.plain .pageNotPresent with lanes := some (failMask all .pageNotPresent), addr := addr })

/-- The page that the lowest failing lane finds not present, where that is why it fails. -/
def missingPage (xs : List (Nat × Except LaneFail LaneAccess)) : Option DWord :=
  match xs with
  | [] => none
  | (_, .ok _) :: rest => missingPage rest
  | (_, .error (.touch page _)) :: _ => some page
  | (_, .error (.stop (.hostPath page))) :: _ => some page
  | (_, .error (.held page _)) :: _ => some page
  | _ => none

/-- Where some lanes' accesses are held by a failed prediction and no other fails, the page and the cause of the first (11
R273). -/
def heldPage (xs : List (Nat × Except LaneFail LaneAccess)) : Option (DWord × Nat) :=
  let fails := xs.filterMap (fun x =>
    match x.2 with
    | .ok _ => none
    | .error (.held page c) => some (some (page, c))
    | .error _ => some none)
  if fails.contains none then none else fails.head?.join

/-- The accesses of the lanes that passed. -/
def passed (xs : List (Nat × Except LaneFail LaneAccess)) : List LaneAccess :=
  xs.filterMap (fun x => match x.2 with
    | .ok a => some a
    | .error _ => none)

/-- The lanes of an instruction's accesses: those of Active(), or the gate lane alone under U = 1 and for ldu (R222,
R223). -/
def Issue.accessLanes (x : Issue) (op : Op) (f : LongFields) : List Nat :=
  if !x.acts then []
  else if op = .ldu then [x.s.self.uniformLane f]
  else if f.u then [x.s.self.gateLane]
  else x.lanes.lanes

/-! ### Reading -/

/-- The newest byte that a group's buffered stores give a location (06 R147). -/
def Core.forwarded (k : Core) (slot : Nat) (host : Option Nat) (a : Nat) : Option Byte :=
  (k.stores.reverse.filter (fun b => b.slot = slot && (if b.host then some b.func else none) = host)).findSome? (fun b =>
    (b.cells.reverse.find? (fun c => c.1 = a)).map (fun c => c.2))

/-- The byte of an L1 copy (06 R132). -/
def Core.l1Byte (k : Core) (pa : Nat) : Option Byte :=
  (k.l1.find? (fun x => x.line = pa / 128)).map (fun x => x.bytes.getD (pa % 128) 0)

/-- The byte that a load of a group returns (06 R143, R147). What another module returns is a free value. -/
def State.loadByte (s : State) (r : GroupRef) (useL1 : Bool) (p : Spot) : Byte :=
  let k := s.core r.core
  match p with
  | .device (.mem pa) =>
    match k.forwarded r.slot none pa with
    | some b => b
    | none => if useL1 then (k.l1Byte pa).getD (Memory.read s.mem pa) else Memory.read s.mem pa
  | .device (.control o) => s.controlByte o
  | .host f va => (k.forwarded r.slot (some f) va).getD (Memory.read (s.hostMemOf f) va)
  | p => s.spotByte p

/-- The number that a lane's access reads. -/
def State.loadNum (s : State) (r : GroupRef) (useL1 : Bool) (ps : List Spot) : Nat :=
  numOfBytes (ps.map (s.loadByte r useL1))

/-- Lines of an L1 data cache of 192 KiB (01 R11). -/
def l1Lines : Nat := 1536

/-- An L1 copy of a line is brought in, if the core holds none; the oldest leaves a full cache (DESIGN CHOICE, log entry
71). -/
def State.fillL1 (s : State) (core line : Nat) : State :=
  if (s.core core).l1.any (fun x => x.line = line) then s
  else
    let bytes := Memory.readBytes s.mem (128 * line) 128
    s.modCore core (fun k => { k with l1 := ({ line := line, bytes := bytes } :: k.l1).take l1Lines })

/-- L1 copies of lines are dropped. -/
def State.dropLines (s : State) (core : Nat) (lines : List Nat) : State :=
  s.modCore core (fun k => { k with l1 := k.l1.filter (fun x => !lines.contains x.line) })

/-- Every L1 copy of a core is dropped (R224, R231). -/
def State.dropAllL1 (s : State) (core : Nat) : State := s.modCore core (fun k => { k with l1 := [] })

/-- Is the scope clu or wider (03 R79)? -/
def wideScope (f : LongFields) : Bool := 3 ≤ f.scp
/-- Does the order acquire, and does it release (03 R79)? -/
def acquires (f : LongFields) : Bool := f.ord % 2 = 1
/-- Does the order release? -/
def releases (f : LongFields) : Bool := 2 ≤ f.ord

/-- The effect of an acquire at clu or wider on the core's L1 (R224). -/
def State.acquireL1 (s : State) (core : Nat) (f : LongFields) : State :=
  if acquires f && wideScope f then s.dropAllL1 core else s

/-- May a load be answered from L1 and keep a copy there (R224, 06 R137)? -/
def cachable (f : LongFields) (strong : Bool) : Bool :=
  f.cp = 0 && !strong && !(acquires f && wideScope f)

/-- A load's value extended to its registers (R215). -/
def extendLoad (f : LongFields) (x : Nat) : Nat :=
  if f.quad then x
  else if f.ty = 7 then (BitVec.ofInt 32 (intOf 8 true (num64 x))).toNat
  else if f.ty = 5 then (BitVec.ofInt 32 (intOf 16 true (num64 x))).toNat
  else x

/-- Word `i` of a number. -/
def wordOf (x i : Nat) : Word := BitVec.ofNat 32 (x / 2 ^ (32 * i))

/-- The words of a result whose number in lane `l` is `x l`; one value stands in every lane when it is uniform. -/
def resultOf (words : Nat) (one : Option Nat) (xs : List (Nat × Nat)) : List Lanes :=
  (List.range words).map (fun i =>
    match one with
    | some l => Lanes.splat (wordOf (Table.get xs 0 l) i)
    | none => Lanes.ofFn (fun l => wordOf (Table.get xs 0 l) i))

/-- The numbers of the group's buffered stores that touch a location. -/
def Core.coveredBy (k : Core) (slot : Nat) (p : Spot) : List Nat :=
  let hit (host : Bool) (a : Nat) : List Nat :=
    (k.stores.filter (fun b => b.slot = slot && b.host = host && b.cells.any (fun c => c.1 = a))).map (·.id)
  match p with
  | .device (.mem pa) => hit false pa
  | .host _ va => hit true va
  | _ => []

/-- Would a lane's load take some of its bytes, and not all of them, from one buffered store? -/
def Core.mixes (k : Core) (slot : Nat) (x : LaneAccess) : Bool :=
  let cover := x.spots.map (k.coveredBy slot)
  cover.any (· ≠ []) && cover.any (fun c => c.getLast? ≠ (cover.headD []).getLast?)

/-- Is the load of these lanes one event of a whole line (06 R150)? -/
def lineEvent (op : Op) (f : LongFields) (active : Mask) (xs : List LaneAccess) : Bool :=
  let n := accessBytes f
  (op = .ld || op = .lds || op = .st || op = .sts) && !f.u && (n = 4 || n = 8 || n = 16) && xs.length = 128 / n
    && (xs.map (·.lane)) = active.lanes && (active.lowest.getD 0) % (128 / n) = 0
    && ((List.range xs.length).zip xs).all (fun ix =>
      ix.2.lane = active.lowest.getD 0 + ix.1 && ix.2.addr.toNat = (xs.head?.map (·.addr.toNat)).getD 0 + n * ix.1)
    && (xs.head?.map (·.addr.toNat)).getD 0 % 128 = 0

/-- The state before a load takes its value: where a single event of it would mix bytes of the store buffer with others,
the group's stores are performed first (06 R149, R150). -/
def State.beforeLoads (s : State) (r : GroupRef) (op : Op) (f : LongFields) (active : Mask) (xs : List LaneAccess) : State :=
  let k := s.core r.core
  let any (x : LaneAccess) : Bool := x.spots.any (fun p => k.coveredBy r.slot p ≠ [])
  if xs.any (k.mixes r.slot) || (lineEvent op f active xs && xs.any any) then s.flushStores r else s

/-- One lane's load: its number, and the state with the L1 as it leaves it. -/
def State.loadLane (s : State) (r : GroupRef) (f : LongFields) (x : LaneAccess) : State × Nat :=
  let l1 := cachable f x.strong
  let v := extendLoad f (s.loadNum r l1 x.spots)
  let lines := spotLines x.spots
  let s := if l1 then lines.foldl (fun s n => s.fillL1 r.core n) s else s.dropLines r.core lines
  (s.readRemote x.spots, v)

/-- The loads of the lanes, in ascending order. -/
def State.loadLanes (s : State) (r : GroupRef) (f : LongFields) (xs : List LaneAccess) : State × List (Nat × Nat) :=
  match xs with
  | [] => (s, [])
  | x :: rest =>
    let (s', v) := s.loadLane r f x
    let (s'', vs) := s'.loadLanes r f rest
    (s'', (x.lane, v) :: vs)

/-! ### Writing -/

/-- The bytes of a lane's datum (R215). -/
def datumBytes (ws : List Lanes) (n lane : Nat) : List Byte :=
  (ws.flatMap (fun w => bytesOfNum 4 (w.at' lane).toNat)).take n

/-- Writes bytes at the spots of windows and control space, which hold no store back (06 R138; 01 R27). -/
def State.writeNow (s : State) (xs : List (Spot × Byte)) : State :=
  let windows := xs.filter (fun x => match x.1 with
    | .device (.window _ _ _) => true
    | _ => false)
  let s := s.writeSpots (windows.map (·.1)) (windows.map (·.2))
  let control := xs.filterMap (fun x => match x.1 with
    | .device (.control o) => some (o, x.2)
    | _ => none)
  match control with
  | [] => s
  | (o, _) :: _ => s.writeControl o control.length (numOfBytes (control.map (·.2))) true

/-- The cells of device memory among bytes at spots. -/
def deviceCells (xs : List (Spot × Byte)) : List Host.Cell :=
  xs.filterMap (fun x => match x.1 with
    | .device (.mem pa) => some (pa, x.2)
    | _ => none)

/-- The cells of a function's host-shared half among bytes at spots. -/
def hostCells (func : Nat) (xs : List (Spot × Byte)) : List Host.Cell :=
  xs.filterMap (fun x => match x.1 with
    | .host f va => if f = func then some (va, x.2) else none
    | _ => none)

/-- The functions whose host-shared halves hold some of the bytes at spots. -/
def hostFuncs (xs : List (Spot × Byte)) : List Nat :=
  (xs.filterMap (fun x => match x.1 with
    | .host f _ => some f
    | _ => none)).eraseDups

/-- An instruction's store to device memory and the host-shared half: on strongly ordered pages it is performed at once,
and elsewhere it enters the store buffer (06 R137, R157). A release first performs every earlier store (06 R144). -/
def State.storeOut (s : State) (r : GroupRef) (f : LongFields) (strong : Bool) (xs : List (Spot × Byte)) : State :=
  let ctx := (s.attrs r).ctx
  let keeps := f.cp = 0
  let s := if releases f || strong then s.flushStores r else s
  let dev := deviceCells xs
  let s := if dev = [] then s
    else if strong then
      s.performStore r.core
        { id := 0, slot := r.slot, ctx := ctx, keeps := keeps, host := false, func := 0, cells := dev, poisoned := false }
    else s.bufferStore r ctx keeps none dev
  (hostFuncs xs).foldl (fun s n => s.bufferStore r ctx false (some n) (hostCells n xs)) s

/-- D is set for the pages of a virtual access that is to be performed (11 R275). -/
def State.markAccess (s : State) (r : GroupRef) (op : Op) (x : LaneAccess) : State :=
  if addressKind op = .virtual_ then
    (chunksOf x.addr x.spots.length).foldl (fun s c => s.markDirtyBy r.core (s.attrs r).ctx c.1) s
  else s

/-! ### Atomics (R227, R228) -/

/-- One lane's atomic, performed at its home (06 R148): the old value, and the state after. -/
def State.atomicLane (s : State) (r : GroupRef) (op : Op) (f : LongFields) (c : List Lanes) (x : LaneAccess) : State × Nat :=
  let n := x.spots.length
  let old := s.loadNum r false x.spots
  let data := datumBytes c 16 x.lane
  let new := atomicNew f.lsub f.ty n old (numAt data 0 n) (numAt data n n)
  let s := s.markAccess r op x
  let xs := x.spots.zip (bytesOfNum n new)
  let dev := deviceCells xs
  let s := (s.writeNow xs).dropLines r.core (spotLines x.spots)
  let s := if dev = [] then s else s.writeCells dev
  let s := xs.foldl (fun s y => match y.1 with
    | .host f va => s.writeHost f va [y.2]
    | _ => s) s
  (s.readRemote x.spots, old)

/-- The atomics of the lanes, in ascending order. -/
def State.atomicLanes (s : State) (r : GroupRef) (op : Op) (f : LongFields) (c : List Lanes) (xs : List LaneAccess) :
    State × List (Nat × Nat) :=
  match xs with
  | [] => (s, [])
  | x :: rest =>
    let (s', v) := s.atomicLane r op f c x
    let (s'', vs) := s'.atomicLanes r op f c rest
    (s'', (x.lane, v) :: vs)

end Sys2Proof.Machine
end

