-- ==== Sys2Proof/Machine/Sysregs.lean ====
section
/-! DEFINITION. The system registers: their privileges, what they read, and what a write does (10 R250, R251). -/

namespace Sys2Proof.Machine

/-- What a system register reads. -/
inductive SysValue where
  | lanes (x : Lanes)
  | w32 (x : Word)
  | w64 (x : DWord)
  deriving DecidableEq, Repr

/-- Is the number a register of R250, with an index that it takes? -/
def sysValid (num idx : Nat) : Bool := num < 0x10 && (idx = 0 || num = 0x0B)

/-- The privilege that a read needs (R250). -/
def sysReadNeeds (num : Nat) : Privilege :=
  match num with
  | 0x08 => .supervisor
  | 0x0F => .system
  | _ => .user

/-- The privilege that a write needs (R250); a write to an RO register needs none and is ignored. -/
def sysWriteNeeds (num : Nat) : Privilege :=
  match num with
  | 0x04 | 0x05 | 0x08 | 0x09 | 0x0A | 0x0C | 0x0D | 0x0F => .system
  | _ => .user

/-- The state of a team berth (01 R16); one that is not listed is free. -/
def Core.berth (k : Core) (b : Nat) : Berth := Table.get k.berths Berth.free b

/-- sr.bmap of a group's team (R251). -/
def State.bmap (s : State) (r : GroupRef) : DWord :=
  let a := s.attrs r
  BitVec.ofNat 64 ((List.range a.berthCount).foldl (fun acc n =>
    acc + bit (((s.core r.core).berth (a.berthBase + n)).state = .ready) n) 0)

/-- sr.tstat (R251). -/
def Group.tstat (g : Group) : Word := BitVec.ofNat 32 (g.cause * 256 + bit (g.kind = .tug) 1 + bit g.sup 0)

/-- The entries of the FIFO toward a core that its AVAIL counts (16 R375). -/
def Core.avail (k : Core) : Nat := (k.incoming.filter (fun e => e.present)).length

/-- The free slots of the FIFO from a core (16 R375). -/
def State.liftFree (s : State) (core : Nat) : Nat :=
  let p := s.core (partnerOf core)
  16 - p.incoming.length - p.taking

/-- The gate states' codes (16 R383). -/
def GateState.code (x : GateState) : Nat :=
  match x with
  | .on => 0
  | .pending => 1
  | .gated => 2
  | .waking => 3

/-- What a system register of a group reads. -/
def State.sysRead (s : State) (r : GroupRef) (num idx : Nat) : SysValue :=
  let g := s.group r
  let a := s.attrs r
  let k := s.core r.core
  let c := s.context a.ctx
  match num with
  | 0x00 => .w64 (s.bmap r)
  | 0x01 => .lanes g.fpst
  | 0x02 => .w32 (if g.nonUniform then 1 else 0)
  | 0x03 => .w32 (s.footValue r)
  | 0x04 => .w32 (BitVec.ofNat 32 g.sp)
  | 0x05 => .w32 (BitVec.ofNat 32 g.limit)
  | 0x06 => .w64 (BitVec.ofNat 64 s.time)
  | 0x07 => .w32 g.tstat
  | 0x08 => .w64 c.tvec
  | 0x09 => .w32 (BitVec.ofNat 32 k.swapth)
  | 0x0A => .w32 (BitVec.ofNat 32 (k.matrix.held * 2 ^ 22 + k.matrix.ramp * 2 ^ 11 + k.matrix.budget))
  | 0x0B => .w32 (c.qbound.getD idx 0)
  | 0x0C => .w32 (BitVec.ofNat 32 c.vthresh)
  | 0x0D => .w32 (BitVec.ofNat 32 c.vwin)
  | 0x0E => .w32 (BitVec.ofNat 32 (k.avail * 256 + s.liftFree r.core))
  | _ => if isUpper r.core then .w32 0 else .w32 (BitVec.ofNat 32 (k.gate.code * 2 + bit k.gateReq 0))

/-- A change of REQ of a lower core's sr.gate (16 R384). -/
def State.writeGate (s : State) (core : Nat) (req : Bool) : State :=
  let k := s.core core
  if isUpper core || k.gateReq = req then s
  else
    let set (g : GateState) : State := s.modCore core (fun k => { k with gateReq := req, gate := g })
    match k.gate, req with
    | .on, true => set .pending
    | .pending, false => set .on
    | .gated, false => (set .waking).due [Instr.gateWakeComplete (Fin.ofNat 384 core)]
    | g, _ => set g

/-- A write of a group's or its core's or context's system register, other than sr.fpst; RO fields and registers ignore
it (R250). A value of sr.stkp.SP that is no multiple of 16 is stored as it is (09 R233; DESIGN CHOICE, log entry 95). -/
def State.sysWrite (s : State) (r : GroupRef) (num : Nat) (val : DWord) : State :=
  let a := s.attrs r
  let v := val.toNat
  match num with
  | 0x02 => if v.testBit 0 then s.modGroup r (fun g => { g with nonUniform := false }) else s
  | 0x04 => s.modGroup r (fun g => { g with sp := v % 2 ^ 17, spWrites := [] })
  | 0x05 => s.modGroup r (fun g => { g with limit := v % 2 ^ 17 })
  | 0x08 => s.modContext a.ctx (fun c => { c with tvec := val &&& ~~~0x1FE#64 })
  | 0x09 => s.modCore r.core (fun k => { k with swapth := v % 2 ^ 16 })
  | 0x0A => s.modCore r.core (fun k =>
      { k with matrix := { k.matrix with held := bits v 31 22, ramp := bits v 21 11, budget := bits v 10 0 } })
  | 0x0C => s.modContext a.ctx (fun c => { c with vthresh := v % 128 })
  | 0x0D => s.modContext a.ctx (fun c => { c with vwin := v % 128 })
  | 0x0F => s.writeGate r.core (v.testBit 0)
  | _ => s

end Sys2Proof.Machine
end

