-- ==== Sys2Proof/Machine/Debug.lean ====
section
/-! DEFINITION. Debug access (10 R261-R263). -/

namespace Sys2Proof.Machine

/-- The request ends with a status. -/
def State.debugStatus (s : State) (status : Nat) : State := { s with dbg := { s.dbg with status := status } }

/-- The group that the request names. -/
def State.debugGroup (s : State) : GroupRef := ⟨s.dbg.core, s.dbg.slot⟩

/-- The team that it names. -/
def State.debugTeam (s : State) : TeamRef := ⟨s.dbg.core, (s.group s.debugGroup).team⟩

/-- Are NUM and INDEX in range for KIND (R262)? -/
def DebugRegs.objectValid (d : DebugRegs) : Bool :=
  match d.kind with
  | 0 => d.num < 256
  | 1 => d.num < 64
  | 2 => d.num < 16
  | 3 => 1 ≤ d.num && d.num ≤ 3
  | 4 => d.num < 8
  | 5 => d.num < 7
  | 6 => true
  | 7 => sysValid d.num d.index
  | 8 => true
  | _ => false

/-- Does the request name a general group of the context on a core assigned to it (R263)? -/
def State.debugNamesGroup (s : State) : Bool :=
  let d := s.dbg
  (s.core d.core).ctx = some d.ctx && d.core < 384 &&
    match s.group? s.debugGroup, s.teamOf s.debugGroup with
    | some _, some t => t.ctx = d.ctx
    | _, _ => false

/-- Is the named team stopped by the debugger, every group of it? -/
def State.debugStopped (s : State) : Bool :=
  match s.team? s.debugTeam with
  | some t => t.ending = .stop && s.liveSlots s.debugTeam t = []
  | none => false

/-- The checks of R263 up to NOT_STOPPED for a request on a team: the status of the first that fails. -/
def State.debugCheck (s : State) (object stopped : Bool) : Nat :=
  let d := s.dbg
  if !(s.context d.ctx).valid || !s.debugNamesGroup || (object && !d.objectValid) then 1
  else if !(s.context d.ctx).debugger then 2
  else if stopped && !s.debugStopped then 4
  else 0

/-- ATTACH (R263): recorded in the audit log. -/
def State.debugAttach (s : State) : State :=
  let d := s.dbg
  let c := s.context d.ctx
  if !c.valid then s.debugStatus 1
  else if c.debugger then s.debugStatus 3
  else ((s.modContext d.ctx (fun c => { c with debugger := true })).log 7 d.ctx (bytesOfNum 2 d.core)).debugStatus 0

/-- A stopped group continues at its recorded address (R261). One that a STOP has not stopped yet goes on without a skid. -/
def State.resumeGroup (s : State) (r : GroupRef) : State :=
  if (s.group r).status = .halted then
    (s.modGroup r (fun g =>
      { g with status := .running, halt := none, hold := .none, stall := 0, paid := 0, holdUntil := 0, skid := 0 })).joinReady r
      (s.cycle + 1)
  else s.modGroup r (fun g => { g with skidLeft := none, skid := 0, stepping := false })

/-- A stopped team continues; its residency clock has not counted the stop (R261, 18 R426). A team whose last group has
exited in a step retires (02 R56). -/
def State.resumeTeam (s : State) (t : TeamRef) : State :=
  match s.team? t with
  | none => s
  | some team =>
    let s := s.modTeam t (fun x =>
      { x with
        ending := if s.liveSlots t team = [] && team.slots.all (fun slot => (s.group ⟨t.core, slot⟩).status = .exited) then .retire else .no
        clockFrozen := x.clockFrozen + (s.time - (x.frozenAt.getD s.time)), frozenAt := none })
    team.slots.foldl (fun s slot => s.resumeGroup ⟨t.core, slot⟩) s

/-- The stopped teams of a context. -/
def State.stoppedTeams (s : State) (ctx : Nat) : List TeamRef :=
  s.cores.flatMap (fun e => e.2.teams.filterMap (fun t =>
    if t.2.ctx = ctx && t.2.ending = .stop then some (⟨e.1, t.1⟩ : TeamRef) else none))

/-- DETACH resumes every stopped team of the context (R263). -/
def State.debugDetach (s : State) : State :=
  let d := s.dbg
  let c := s.context d.ctx
  if !c.valid then s.debugStatus 1
  else if !c.debugger then s.debugStatus 2
  else
    let s := (s.stoppedTeams d.ctx).foldl State.resumeTeam s
    ((s.modContext d.ctx (fun c => { c with debugger := false })).log 8 d.ctx (bytesOfNum 2 d.core)).debugStatus 0

/-- A team is stopped as though a fault occurred, with CAUSE 0 and without a kill (R261). -/
def State.stopTeam (s : State) (t : TeamRef) : State :=
  match s.team? t with
  | none => s
  | some team =>
    if team.ending = .no then
      (s.modTeam t (fun x => { x with ending := .stop, frozenAt := some s.time })).due
        ((s.liveSlots t team).map (fun slot => Instr.haltDelivery ⟨t.core, slot⟩))
    else s

/-- STOP. -/
def State.debugStop (s : State) : State :=
  match s.debugCheck false false with
  | 0 => (s.stopTeam s.debugTeam).debugStatus 0
  | n => s.debugStatus n

/-- RESUME. -/
def State.debugResume (s : State) : State :=
  match s.debugCheck false true with
  | 0 => (s.resumeTeam s.debugTeam).debugStatus 0
  | n => s.debugStatus n

/-- STEP: the named group issues one instruction, then stops again. -/
def State.debugStep (s : State) : State :=
  match s.debugCheck false true with
  | 0 =>
    let r := s.debugGroup
    ((s.modGroup r (fun g => { g with stepping := g.status = .halted })).resumeGroup r).debugStatus 0
  | n => s.debugStatus n

/-- A group that was stepped stops once it has issued (R261), with a skid of 0. One that has exited, or that has stopped at a
fault of its own, stays as it is (R259). -/
def State.stepEnds (s : State) (r : GroupRef) : State :=
  let g := s.group r
  if g.status = .exited || g.status = .halted then s.modGroup r (fun g => { g with stepping := false }) else
  if (s.group r).stepping then (s.modGroup r (fun g => { g with stepping := false, skid := 0 })).stopSibling r else s

/-- The words that DBGDATA takes: 32 lanes, or an object of at most 8 bytes in bytes 0 to 7. -/
def objectWords (x : DWord) : List Word := [x.setWidth 32, (x >>> 32).setWidth 32] ++ List.replicate 30 0

/-- The object that READ names, as DBGDATA's words. An empty latch and an invalid entry have no value: a free value (log
entry 5). -/
def State.debugObject (s : State) : List Word :=
  let d := s.dbg
  let r := s.debugGroup
  let g := s.group r
  let free : Lanes := Lanes.ofFn (fun l => Config.word s.fresh l)
  let predLanes (m : Mask) : Lanes := Lanes.ofFn (fun l => if m.lane l then 1 else 0)
  match d.kind with
  | 0 => s.readReg r (.v d.num)
  | 1 => objectWords ((g.s.getD d.num 0).setWidth 64)
  | 2 => objectWords ((g.k.getD d.num 0).setWidth 64)
  | 3 => (g.latch d.num).getD free
  | 4 => (g.cache.getD d.num none).getD free
  | 5 => predLanes (g.preds.getD d.num 0)
  | 6 => objectWords (g.em.setWidth 64)
  | 7 =>
    match s.sysRead r d.num d.index with
    | .lanes x => x
    | .w32 x => objectWords (x.setWidth 64)
    | .w64 x => objectWords x
  | _ => objectWords g.pc

/-- The register that the request names, if it names one. -/
def DebugRegs.reg (d : DebugRegs) : Option Reg :=
  match d.kind with
  | 0 => some (.v d.num)
  | 1 => some (.s d.num)
  | 2 => some (.k d.num)
  | _ => none

/-- PENDING of R263. -/
def State.debugPending (s : State) : Bool := s.dbg.reg.any (fun reg => (s.group s.debugGroup).isPending reg)

/-- Does the group of a legacy team have the named v register: every one in mode 8, and v0-v127 in mode 7 (04 R101;
DEDUCED, log entry 85)? -/
def State.debugBound (s : State) : Bool := (s.attrs s.debugGroup).decode = 8 || s.dbg.num < 128

/-- Is the named register a renamed register that is not allocated? The registers of a legacy team are bound and never renamed
(04 R101). -/
def State.debugDead (s : State) : Bool :=
  s.dbg.kind = 0 && s.dbg.num < 240 &&
    (if (s.attrs s.debugGroup).decode = 9 then (Table.find (s.group s.debugGroup).v s.dbg.num).isNone else !s.debugBound)

/-- Does WRITE find no register free within P for the named register? -/
def State.debugFull (s : State) : Bool :=
  let r := s.debugGroup
  s.dbg.kind = 0 &&
    (if (s.attrs r).decode = 9 then (s.group r).passesFoot (s.attrs r).foot [.v s.dbg.num]
     else s.dbg.num < 240 && !s.debugBound)

/-- READ. -/
def State.debugRead (s : State) : State :=
  match s.debugCheck true true with
  | 0 =>
    if s.debugPending then s.debugStatus 5
    else if s.debugDead then s.debugStatus 6
    else
      let s := s.settleAll s.debugGroup
      let x := s.debugObject
      { s.useFresh with dbg := { s.dbg with status := 0, data := x } }
  | n => s.debugStatus n

/-- The state with the named object written from DBGDATA. A latch or an operand-cache entry that the group's decode mode has no names
for is stored and read back all the same (DESIGN CHOICE, log entry 93). -/
def State.debugPut (s : State) : State :=
  let d := s.dbg
  let r := s.debugGroup
  let all := BitVec.allOnes 32
  let low : DWord := (d.data.getD 0 0).setWidth 64 ||| ((d.data.getD 1 0).setWidth 64 <<< 32)
  let mask := Mask.ofFn (fun l => (d.data.getD l 0).getLsbD 0)
  let s := match d.reg with
    | some reg => s.modGroup r (fun g => { g with poison := g.poison.filter (· ≠ reg) })
    | none => s
  match d.kind with
  | 0 => (s.modGroup r (fun g => g.allocate (.v d.num))).writeReg r (.v d.num) all d.data
  | 1 => s.modGroup r (fun g => { g with s := g.s.set d.num (d.data.getD 0 0) })
  | 2 => s.modGroup r (fun g => { g with k := g.k.set d.num (d.data.getD 0 0) })
  | 3 => s.modGroup r (fun g =>
      { g with history := ((g.history ++ List.replicate 3 none).take 3).set (d.num - 1) (some (1, d.data)) })
  | 4 => s.modGroup r (fun g => { g with cache := g.cache.set d.num (some d.data) })
  | 5 => s.modGroup r (fun g => { g with preds := g.preds.set d.num mask })
  | 6 => s.modGroup r (fun g => { g with em := d.data.getD 0 0 })
  | 7 =>
    if d.num = 1 then s.modGroup r (fun g => { g with fpst := d.data.map (fun x => x &&& 0x1F#32) })
    else s.sysWrite r d.num low
  | _ => s.modGroup r (fun g => { g with pc := alignTarget low, resumeWait := none })

/-- WRITE: an unallocated renamed register takes a physical register within P (R261). -/
def State.debugWrite (s : State) : State :=
  match s.debugCheck true true with
  | 0 =>
    let r := s.debugGroup
    if s.debugPending then s.debugStatus 5
    else if s.debugFull then s.debugStatus 7
    else ((s.settleAll r).debugPut).debugStatus 0
  | n => s.debugStatus n

end Sys2Proof.Machine
end

