-- ==== Sys2Proof/Machine/Waits.lean ====
section
/-! DEFINITION. Deschedule instructions and what they wait for: barriers and berths (02 R46, R47; 10 R246-R249). -/

namespace Sys2Proof.Machine

/-! ### How an instruction ends its run (02 R47) -/

/-- A deschedule instruction whose condition holds: it has issued, its run ends, and the group is ready (R47). -/
def State.yieldRun (s : State) : State := (s.done.modSelf Group.dropOperands).endRunReady s.issuing

/-- A deschedule instruction that blocks: it counts in the skid (02 R57), its run ends, and the group waits with its PC at
the instruction (R47). -/
def State.blockOn (s : State) (w : Wait) : State :=
  (s.modSelf (fun g =>
    { g.dropOperands with
      paid := 0, stall := 0, hold := .none, resumeWait := none
      skid := (match g.skidLeft with | some _ => g.skid + 1 | none => g.skid)
      skidLeft := g.skidLeft.map (· - 1) })).endRunWait s.issuing w

/-- The marked sources of an issue freed. -/
def Issue.freed (x : Issue) : State := x.s.modGroup x.s.issuing (fun g => x.marked.foldl Group.free g)

/-- What a recovery group may not do (15 R366). -/
def State.pure (s : State) : Attempt Unit := check (s.self.kind ≠ .recovery) .purity

/-! ### Acceptance by an engine (02 R51; 01 R15) -/

/-- The arbitration's number of an engine: 0 stands for the core as a whole. -/
def arbCrane : Nat := 1
def arbMatrix : Nat := 2
def arbDrain : Nat := 3
def arbSurrogate : Nat := 4

/-- How far a sub-core stands behind the one that comes first at an engine: the one after the sub-core granted last. -/
def Core.turnOf (k : Core) (engine sub : Nat) : Nat := (sub + 3 - Table.get k.arb 3 engine) % 4

/-- A sub-core has been granted a request. -/
def State.grantTo (s : State) (r : GroupRef) (engine : Nat) : State :=
  s.modCore r.core (fun k => { k with arb := Table.set k.arb engine (r.slot / 16) })

/-- Does a group wait for an engine to accept what it asks for? -/
def Group.asks (g : Group) (same : Awaited → Bool) : Bool :=
  match g.status, g.hold with
  | .running, .accept x => same x
  | .swapped, .accept x => same x
  | _, _ => false

/-- The cycle of a group's request: that in which it first asked, or this one. -/
def Group.askedAt (g : Group) (cycle : Nat) : Nat :=
  match g.hold with
  | .accept _ => g.asked
  | _ => cycle

/-- The other groups of a core that wait for an engine to accept what they ask for. -/
def State.asking (s : State) (r : GroupRef) (same : Awaited → Bool) : Table Group :=
  (s.core r.core).groups.filter (fun e => e.1 ≠ r.slot && e.2.asks same)

/-- The waiting requests of a group's own sub-core that are older than its own (02 R51); of two requests of one cycle that of the
lower slot (DESIGN CHOICE, log entry 84). -/
def State.olderRequests (s : State) (r : GroupRef) (same : Awaited → Bool) : Nat :=
  let mine := (s.group r).askedAt s.cycle
  ((s.asking r same).filter (fun e =>
    e.1 / 16 = r.slot / 16 && (e.2.asked < mine || (e.2.asked = mine && e.1 < r.slot)))).length

/-- The waiting requests that go before a group's request at an engine (02 R51): the older ones of its sub-core, and of each
other sub-core as many as round robin grants before it. -/
def State.ahead (s : State) (r : GroupRef) (engine : Nat) (same : Awaited → Bool) : Nat :=
  let k := s.core r.core
  let mine := r.slot / 16
  let asking := s.asking r same
  let older := s.olderRequests r same
  let others := ((List.range 4).filter (· ≠ mine)).map (fun sub =>
    min (asking.filter (fun e => e.1 / 16 = sub)).length
      (older + if k.turnOf engine sub < k.turnOf engine mine then 1 else 0))
  older + others.foldl (· + ·) 0

/-- Accesses of a sub-core that await a return (09 R219). -/
def State.awaiting (s : State) (r : GroupRef) : Nat :=
  ((s.core r.core).groups.filter (fun e => e.1 / 16 = r.slot / 16)).foldl
    (fun n e => n + (e.2.outstanding.filter (·.access)).length) 0

/-- Does an engine accept a group's request now: is there room for it behind the waiting requests that go first (02 R51;
12 R293; 13 R307; 14 R339; 15 R356)? The load-store engine's room is its sub-core's, where age alone decides (09 R219). -/
def State.accepts (s : State) (r : GroupRef) (x : Awaited) : Bool :=
  let k := s.core r.core
  match x with
  | .loads => s.olderRequests r (fun y => y = .loads) + s.awaiting r < 32
  | .crane mask =>
    (List.range 4).all (fun q => !mask.testBit q ||
      s.ahead r arbCrane (fun y => match y with | .crane m => m.testBit q | _ => false) + (k.crane.getD q []).length < 16)
  | .matrix => s.ahead r arbMatrix (fun y => y = .matrix) + k.matrix.queue.length < 8
  | .drain => s.ahead r arbDrain (fun y => y = .drain) + k.drain.length < 8
  | .surrogate => s.ahead r arbSurrogate (fun y => y = .surrogate) + k.surrogate.queue.length < 16
  | _ => true

/-- A request that an engine accepts now, or else a stalled turn. -/
def Issue.request (x : Issue) (what : Awaited) : Attempt Unit :=
  if x.s.accepts x.s.issuing what then .ok () else .error (.stall (.accept what))

/-! ### Barriers (10 R246, R247) -/

/-- A team's barrier. -/
def Team.barrier (t : Team) (id : Nat) : Barrier := Table.get t.barriers Barrier.init id

/-- The team with a barrier set. -/
def Team.setBarrier (t : Team) (id : Nat) (b : Barrier) : Team := { t with barriers := Table.set t.barriers id b }

/-- The groups of a team that have not exited. -/
def State.notExited (s : State) (t : TeamRef) (team : Team) : List Nat :=
  team.slots.filter (fun slot => (s.group ⟨t.core, slot⟩).status ≠ .exited)

/-- The expected count E of an instance, once its first arrival has fixed the count field (R246). -/
def State.expected (s : State) (t : TeamRef) (team : Team) (b : Barrier) : Option Nat :=
  b.count.map (fun n => if n = 0 then (s.notExited t team).length else n)

/-- Does a group wait at an instance that has completed? -/
def Group.waitsAt (g : Group) (id generation : Nat) : Bool :=
  match g.status with
  | .waiting (.barrier i gen) => i = id && gen ≤ generation
  | _ => false

/-- The instance completes when its arrivals reach E: the generation advances, the arrived set is emptied, and every group
that waits on it becomes ready (R246). -/
def State.tryBarrier (s : State) (t : TeamRef) (id : Nat) : State :=
  match s.team? t with
  | none => s
  | some team =>
    let b := team.barrier id
    match s.expected t team b with
    | none => s
    | some e =>
      if b.arrived.length < e then s
      else
        let s := s.modTeam t (fun x => x.setBarrier id ⟨b.generation + 1, none, []⟩)
        (team.slots.filter (fun slot => (s.group ⟨t.core, slot⟩).waitsAt id b.generation)).foldl
          (fun s slot => s.finishWait ⟨t.core, slot⟩) s

/-- The issuing group's team. -/
def State.selfTeam (s : State) : TeamRef := ⟨s.issuing.core, s.self.team⟩

/-- An arrival of the issuing group (R246, R247), as a release of its earlier stores (06 R156). -/
def State.arrive (s : State) (id count : Nat) : Attempt State :=
  match s.teamOf s.issuing with
  | none => trapWith .barrier
  | some team => do
    let b := team.barrier id
    let n := s.self.number
    check (count ≤ team.slots.length) .illegalOperand
    check (!b.arrived.contains n) .barrier
    check (b.count = none || b.count = some count) .barrier
    let s := (s.flushStores s.issuing).modTeam s.selfTeam (fun x =>
      x.setBarrier id { b with count := some count, arrived := b.arrived ++ [n] })
    let s := s.modSelf (fun g => { g with arrivals := Table.set g.arrivals id b.generation })
    return s.tryBarrier s.selfTeam id

/-- The holder of the baton releases it in a cycle to the head of its waiters, who holds it from the next cycle (13 R308). -/
def Team.passBaton (t : Team) (cycle : Nat) : Team :=
  { t with
    batonHolder := t.batonQueue.head?, batonQueue := t.batonQueue.tail
    batonFrom := if t.batonQueue = [] then 0 else cycle + 1 }

/-- An exit of a group as the barriers see it (R246): for an instance whose count field is 0, E falls by 1 and the group
leaves the arrived set. -/
def State.leaveBarriers (s : State) (t : TeamRef) (number : Nat) : State :=
  (List.range 16).foldl (fun s id =>
    match s.team? t with
    | none => s
    | some team =>
      let b := team.barrier id
      if b.count = some 0 then
        (s.modTeam t (fun x => x.setBarrier id { b with arrived := b.arrived.filter (· ≠ number) })).tryBarrier t id
      else s) s

/-! ### Berths (01 R16-R18; 10 R248, R249) -/

/-- The state of a group's team berth. -/
def State.berthOf (s : State) (r : GroupRef) (n : Nat) : Berth := (s.core r.core).berth ((s.attrs r).berthBase + n)

/-- The state with a berth of a core set. -/
def State.setBerth (s : State) (core b : Nat) (x : Berth) : State :=
  s.modCore core (fun k => { k with berths := Table.set k.berths b x })

/-- A berth becomes free and its held flags are discarded (05 R130). -/
def State.freeBerth (s : State) (r : GroupRef) (n : Nat) : State :=
  s.setBerth r.core ((s.attrs r).berthBase + n) Berth.free

/-- The numbers of the bits of a mask. -/
def maskBits (m : DWord) : List Nat := (List.range 64).filter m.getLsbD

/-- Are all the bits of a mask team berths (01 R16)? -/
def State.berthMaskOk (s : State) (r : GroupRef) (m : DWord) : Bool :=
  (maskBits m).all (fun n => n < (s.attrs r).berthCount)

/-- The masked berths that are ready, lowest first. -/
def State.readyBerths (s : State) (r : GroupRef) (m : DWord) : List Nat :=
  (maskBits m).filter (fun n => (s.berthOf r n).state = .ready)

/-- The cause that an engine's fault raises (R253). -/
def engineCause (code : Nat) : Cause :=
  if code = Cause.drainFault.code then .drainFault
  else if code = Cause.matrixFault.code then .matrixFault
  else .craneFault

/-- The trap of the lowest masked berth that holds a fault (R249; 12 R302; 14 R341). -/
def State.heldTrap (s : State) (r : GroupRef) (m : DWord) : Option Trap :=
  (maskBits m).findSome? (fun n =>
    (s.berthOf r n).fault.map (fun h =>
      { Trap.plain (engineCause h.cause) with detail := BitVec.ofNat 32 n, addr := h.addr, restart := h.restart }))

/-- A check that no masked berth holds a fault (R249). -/
def State.checkHeld (s : State) (r : GroupRef) (m : DWord) : Attempt Unit :=
  match s.heldTrap r m with
  | some t => .error (.trap t)
  | none => .ok ()

/-- The masked berths become free. -/
def State.consume (s : State) (r : GroupRef) (m : DWord) : State := (maskBits m).foldl (fun s n => s.freeBerth r n) s

/-- Does the condition of waitb.all or waitb.any hold (R248)? -/
def State.berthsHold (s : State) (r : GroupRef) (all : Bool) (m : DWord) : Bool :=
  if all then (s.readyBerths r m).length = (maskBits m).length else s.readyBerths r m ≠ []

/-! ### Waits taken up afresh, and the end of a wait -/

/-- Does what a group waits for hold, for the waits that are decided by state alone (10 R246, R248; 17 R398)? -/
def State.waitHolds (s : State) (r : GroupRef) (w : Wait) : Bool :=
  match w with
  | .berthsAll m _ => s.berthsHold r true m
  | .berthsAny m => s.berthsHold r false m
  | .barrier id gen =>
    match s.teamOf r with
    | some t => gen < (t.barrier id).generation
    | none => false
  | .dep a => s.counter a.toNat ≤ 0
  | _ => false

/-- The fault that a wait raises in place of its end (R249). -/
def State.waitTrap (s : State) (r : GroupRef) (w : Wait) : Option Trap :=
  match w with
  | .berthsAll m _ => s.heldTrap r m
  | .berthsAny m => s.heldTrap r m
  | _ => none

/-- What the end of a wait does: waitb.all.c frees its berths, and the sources that a berth wait marked are freed. -/
def State.waitDone (s : State) (r : GroupRef) (w : Wait) : State :=
  let s := s.modGroup r (fun g => { g.waitMarks.foldl Group.free g with waitMarks := [] })
  match w with
  | .berthsAll m true => s.consume r m
  | _ => s

/-- The issuing group enqueues records, or blocks on the stage queue (17 R388, R389): a release of its earlier accesses. An
aborted queue takes nothing, and the request completes at once. Blocked or not, the operand state is dropped (02 R47). -/
def State.enqueueOrBlock (s : State) (h stage : Nat) (records : List (List Byte)) : State :=
  let s := s.flushStores s.issuing
  let aborted : Bool := (s.launch? h).any (fun l => s.descAborted l stage)
  if aborted || (s.launch? h).isNone then s.done.dropSelf
  else if s.hasRoom h stage records.length then (s.performEnqueue h stage records [] records.length none).done.dropSelf
  else
    let x := s.addRequest h stage records [] (some s.issuing) none
    x.1.blockOn (.queue (some x.2) h stage records)

/-- A fault takes the place of a berth wait: its instruction has freed nothing and set no NU (00 R6; log entry 62). -/
def Group.unwait (g : Group) : Group := { g with waitMarks := [], nonUniform := g.waitNU }

/-- The issuing group takes up a wait afresh (02 R54; 10 R261). A blocked enqueue whose request is gone has been done. -/
def State.takeUp (s : State) (w : Wait) : State :=
  match s.waitTrap s.issuing w with
  | some t => (s.modSelf Group.unwait).trap s.issuing t
  | none =>
    match w with
    | .queue (some id) _ _ _ => if s.front.requests.any (fun r => r.id = id) then s.blockOn w else s.yieldRun
    | .queue none h stage records => s.enqueueOrBlock h stage records
    | .dep _ => if s.waitHolds s.issuing w then (s.modCore s.issuing.core (fun k => { k with l1 := [] })).yieldRun else s.blockOn w
    | w => if s.waitHolds s.issuing w then (s.waitDone s.issuing w).yieldRun else s.blockOn w

/-- The trap that ends a wait (R249): the group leaves the wait, and takes the trap at its instruction. -/
def State.trapWaiter (s : State) (r : GroupRef) (t : Trap) : State := ((s.modGroup r Group.unwait).wake r).trap r t

/-- A waiting group is looked at: its wait ends in a trap, or because its condition holds, or goes on (R246, R248, R249). -/
def State.pollWait (s : State) (r : GroupRef) (w : Wait) : State :=
  match s.waitTrap r w with
  | some t => s.trapWaiter r t
  | none => if s.waitHolds r w then (s.waitDone r w).finishWait r else s

end Sys2Proof.Machine
end

