-- ==== Sys2Proof/Machine/Engines.lean ====
section
/-! DEFINITION. What the engines share: berths that report, rings and their reservations, and accesses for a command
(01 R15-R21; 10 R249; 12 R300, R302; 11 R266). -/

namespace Sys2Proof.Machine

/-! ### Berths (01 R17; 05 R130; 10 R249) -/

/-- The core berth that a group's team berth names. -/
def State.coreBerth (s : State) (r : GroupRef) (n : Nat) : Nat := (s.attrs r).berthBase + n

/-- A command names a berth, which becomes busy with no fault and no flags (R17). -/
def State.claimBerth (s : State) (core b : Nat) : State := s.setBerth core b ⟨.busy, none, 0⟩

/-- A command's last effect is performed: its berth is ready and holds its flags (R17, R130). -/
def State.berthReady (s : State) (core b : Nat) (flags : BitVec 5) : State := s.setBerth core b ⟨.ready, none, flags⟩

/-- A command's fault is held at its berth, which stays busy (R17, R249). -/
def State.berthFault (s : State) (core b : Nat) (cause : Cause) (addr : DWord) (restart : List Byte) : State :=
  s.setBerth core b ⟨.busy, some ⟨cause.code, addr, restart⟩, ((s.core core).berth b).flags⟩

/-- Is a group's team berth named by a command, so that another raises BERTH_CONFLICT (R17)? -/
def State.berthBusy (s : State) (r : GroupRef) (n : Nat) : Bool := (s.berthOf r n).state = .busy

/-- Is a number below the team's berth count (R16)? -/
def State.berthOk (s : State) (r : GroupRef) (n : Nat) : Bool := n < (s.attrs r).berthCount

/-! ### Rings (01 R20, R21; 12 R300) -/

/-- Occupancy and room of a ring. -/
def Ring.occupancy (x : Ring) : Nat := (x.prod - x.cons).toNat
def Ring.room (x : Ring) : Nat := x.size - x.occupancy

/-- The bytes that reservations hold. -/
def Ring.held (x : Ring) : Nat := (x.reserved.map (·.len)).foldl (· + ·) 0

/-- The window offset of the byte at a pointer value. -/
def Ring.offset (x : Ring) (ptr : Word) : Nat := x.base + ptr.toNat % x.size

/-- The pointer value at which the next reservation begins. -/
def Ring.next (x : Ring) : Word := x.prod + BitVec.ofNat 32 x.held

/-- The advances that are due are applied, in the order of the reservations (R300). -/
def Ring.settleFrom (x : Ring) (rs : List Reservation) : Ring :=
  match rs with
  | [] => { x with reserved := [] }
  | r :: rest =>
    if r.done then { x with prod := x.prod + BitVec.ofNat 32 r.len }.settleFrom rest else { x with reserved := r :: rest }

/-- The advances that have arrived are applied. -/
def Ring.settle (x : Ring) : Ring := x.settleFrom x.reserved

/-- Has a reservation been released by its advance? -/
def Ring.released (x : Ring) (id : Nat) : Bool := !x.reserved.any (fun r => r.id = id)

/-- A core's ring, if it is declared. -/
def State.ring? (s : State) (core n : Nat) : Option Ring := Table.find (s.core core).rings n

/-- The state with a declared ring of a core changed. -/
def State.modRing (s : State) (core n : Nat) (f : Ring → Ring) : State :=
  s.modCore core (fun k => { k with rings := Table.modify k.rings n f })

/-- The core ring that a group's team ring names. -/
def State.coreRing (s : State) (r : GroupRef) (n : Nat) : Nat := (s.attrs r).ringBase + n

/-- Is a number below the team's ring count, and the ring declared (R20, R299)? -/
def State.ringOk (s : State) (r : GroupRef) (n : Nat) : Bool :=
  n < (s.attrs r).ringCount && (s.ring? r.core (s.coreRing r n)).isSome

/-- A reservation of `len` bytes of a ring, if there is room (R300): where it begins. -/
def State.reserveRing (s : State) (core n id len : Nat) : Option (State × Word) :=
  (s.ring? core n).bind (fun x =>
    if len + x.held ≤ x.room then
      some (s.modRing core n (fun x => { x with reserved := x.reserved ++ [⟨id, len, false⟩] }), x.next)
    else none)

/-- Reads a byte at a pointer value of a core's ring. -/
def Core.ringByte (k : Core) (x : Ring) (ptr : Word) : Byte := Memory.read k.win (x.offset ptr)

/-- Writes bytes at pointer values from `ptr` up. -/
def State.writeRing (s : State) (core n : Nat) (ptr : Word) (bs : List Byte) : State :=
  match s.ring? core n with
  | none => s
  | some x =>
    ((List.range bs.length).zip bs).foldl (fun s ib =>
      s.modCore core (fun k => k.writeWin (x.offset (ptr + BitVec.ofNat 32 ib.1)) [ib.2])) s

/-! ### Accesses of a command (11 R266; 12 R298, R302) -/

/-- On whose behalf an engine accesses memory: the core, the context, whether with user or system privilege, and whether
its addresses are device physical (12 R298). -/
structure EngineAs where
  core : Nat
  ctx : Nat
  user : Bool
  sys : Bool
  physical : Bool
  deriving DecidableEq, Repr

/-- Why an engine's access is not performed: it waits for a page of the host path or for an ATS completion (12 R303), with the first
byte that it wants there, or it meets a cause at an address. -/
inductive EngineStop where
  | again (page : Option DWord) (addr : DWord)
  | fault (cause : Option Cause) (addr : DWord)
  deriving DecidableEq, Repr

/-- A computation of an engine, which keeps the state that its walks leave when it stops. -/
abbrev Engine (α : Type) := ExceptT EngineStop (StateM State) α

/-- The engine stops. -/
def engineStop {α : Type} (e : EngineStop) : Engine α := fun s => (.error e, s)

/-- A check of an engine: a fault at an address unless the condition holds. -/
def engineCheck (b : Bool) (addr : DWord) : Engine Unit := if b then pure () else engineStop (.fault none addr)

/-- The part of an engine's access that lies in one page (11 R266; R220 orders 1 to 5; 17 R387). -/
def enginePart (w : EngineAs) (k : AccessKind) (va : DWord) (n : Nat) : Engine (List Spot) := fun s =>
  let (s', t) := s.translate w.core w.ctx k w.user va
  match t with
  | .error m =>
    match m.retry va with
    | .wait page => (.error (.again page va), s')
    | .fault c => (.error (.fault (some c) va), s')
  | .ok t =>
    let bad (i : Nat) : Option EngineStop :=
      let a := va + BitVec.ofNat 64 i
      if w.user && k.writes && s.inArea w.ctx a then some (.fault (some .pagePermission) a)
      else (s.spotCause w.ctx w.sys k (t.target.spot i)).map (fun c => .fault (some c) a)
    match (List.range n).findSome? bad with
    | some e => (.error e, s')
    | none => (.ok ((List.range n).map t.target.spot), s')

/-- The parts of an access one after another. -/
def engineParts (w : EngineAs) (k : AccessKind) (cs : List (DWord × Nat)) : Engine (List Spot) :=
  match cs with
  | [] => pure []
  | c :: rest => do
    let x ← enginePart w k c.1 c.2
    let y ← engineParts w k rest
    return x ++ y

/-- Where the bytes of an engine's access lie. -/
def engineSpots (w : EngineAs) (k : AccessKind) (va : DWord) (n : Nat) : Engine (List Spot) :=
  if w.physical then fun s =>
    let ps := physicalSpots va.toNat n
    let bad (x : Nat × Spot) : Option EngineStop :=
      (s.spotCause w.ctx w.sys k x.2).map (fun c => .fault (some c) (va + BitVec.ofNat 64 x.1))
    match ((List.range n).zip ps).findSome? bad with
    | some e => (.error e, s)
    | none => (.ok ps, s)
  else engineParts w k (chunksOf va n)

/-- The byte that an engine reads. -/
def State.engineByte (s : State) (p : Spot) : Byte :=
  match p with
  | .device (.control o) => s.controlByte o
  | p => s.spotByte p

/-- The bytes that an engine reads, each with whether its line holds an uncorrectable error (20 R454). -/
def State.engineBytes (s : State) (ps : List Spot) : List (Byte × Bool) := ps.map (fun p => (s.engineByte p, s.spotPoison [p]))

/-- An engine's write of bytes, performed at their homes (06 R151, R153): the core's own L1 copies of the lines are
dropped, and an uncorrectable error among the bytes poisons its line (20 R454). -/
def State.engineWrite (s : State) (w : EngineAs) (xs : List (Spot × Byte × Bool)) : State :=
  let plain : List (Spot × Byte) := xs.map (fun x => (x.1, x.2.1))
  let dev := deviceCells plain
  let s := if dev = [] then s else s.writeCells dev
  let bad := (xs.filter (fun x => x.2.2)).flatMap (fun x => spotLines [x.1])
  let s := s.poisonLines bad
  let s := if dev = [] then s else s.dropLines w.core (spotLines (plain.map (·.1)))
  let s := plain.foldl (fun s x => match x.1 with
    | .host f va => s.writeHost f va [x.2]
    | _ => s) s
  s.writeNow plain

/-- D is set in the leaves of the pages that an engine writes (11 R275). -/
def State.engineDirty (s : State) (w : EngineAs) (va : DWord) (n : Nat) : State :=
  if w.physical then s else (chunksOf va n).foldl (fun s c => s.markDirtyBy w.core w.ctx c.1) s

/-- Reads an n64 at an address (12 R296, R301). -/
def engineCounter (w : EngineAs) (k : AccessKind) (va : DWord) : Engine (List Spot × DWord) := do
  let ps ← engineSpots w k va 8
  let s ← get
  return (ps, BitVec.ofNat 64 (numOfBytes ((s.engineBytes ps).map (·.1))))

/-- Writes an n64 at spots. -/
def engineStore (w : EngineAs) (va : DWord) (ps : List Spot) (x : DWord) : Engine Unit := fun s =>
  (.ok (), (s.engineDirty w va 8).engineWrite w (ps.zip ((bytesOfNum 8 x.toNat).map (fun b => (b, false)))))

end Sys2Proof.Machine
end

