-- ==== Sys2Proof/Machine/CraneCopy.lean ====
section
/-! DEFINITION. Tensor shape records, boxes and images, and the copies of the Crane (12 R286-R289, R294, R295, R300,
R302). -/

namespace Sys2Proof.Machine

/-! ### Tensor shape records (R286) -/

/-- A tensor shape record: its dimensions in order. -/
structure TensorShape where
  base : DWord
  ebase : DWord
  fill : DWord
  ty : Nat
  swz : Nat
  ext : List Nat
  box : List Nat
  stride : List Int
  deriving DecidableEq, Repr

/-- Is a type a block type? -/
def blockType (ty : Nat) : Bool := ty = 13 || ty = 14

/-- The bits of an element: a block type's element without its exponents. -/
def elementBits (ty : Nat) : Nat := if ty = 13 then 8 else if ty = 14 then 4 else typeBits ty

/-- The elements of a box. -/
def TensorShape.elems (t : TensorShape) : Nat := t.box.foldl (· * ·) 1

/-- The element bytes of an image, and all its bytes (R286). -/
def TensorShape.dataBytes (t : TensorShape) : Nat := t.elems * elementBits t.ty / 8
def TensorShape.bytes (t : TensorShape) : Nat := t.dataBytes + if blockType t.ty then t.elems / 16 else 0

/-- The bytes of an image row (R289). -/
def TensorShape.rowBytes (t : TensorShape) : Nat := t.box.headD 0 * elementBits t.ty / 8

/-- The record that 256 bytes hold. -/
def shapeOfRecord (b : List Byte) : TensorShape :=
  let dims := List.range (numAt b 0x19 1)
  { base := BitVec.ofNat 64 (numAt b 0 8), ebase := BitVec.ofNat 64 (numAt b 8 8), fill := BitVec.ofNat 64 (numAt b 0x10 8)
    ty := numAt b 0x18 1, swz := numAt b 0x1A 1
    ext := dims.map (fun d => numAt b (0x20 + 12 * d) 4), box := dims.map (fun d => numAt b (0x24 + 12 * d) 2)
    stride := dims.map (fun d => (BitVec.ofNat 48 (numAt b (0x26 + 12 * d) 6)).toInt) }

/-- Is a record within R286, with a row length that its SWZ allows (R289)? -/
def recordValid (b : List Byte) : Bool :=
  let t := shapeOfRecord b
  let n := numAt b 0x19 1
  1 ≤ t.ty && t.ty ≤ 15 && 1 ≤ n && n ≤ 16 && t.swz ≤ 3 && zerosAt b 0x1B 0x20 && zerosAt b (0x20 + 12 * n) 256
    && t.ext.all (fun e => e ≠ 0) && t.box.all (fun x => x ≤ 256)
    && (if blockType t.ty then
          t.ebase.toNat % 2 = 0 && t.stride.headD 0 = 1 && t.ext.headD 0 % 32 = 0 && t.box.headD 0 % 32 = 0
            && (t.stride.drop 1).all (fun x => x % 32 = 0)
        else t.ebase = 0)
    && t.bytes ≤ 1048576 && (t.swz = 0 || t.rowBytes % 32 = 0)

/-! ### Boxes and images (R287-R289) -/

/-- The place of an image byte in its image: the element bytes are skewed by SWZ (R289). -/
def TensorShape.place (t : TensorShape) (i : Nat) : Nat :=
  if t.swz = 0 || t.dataBytes ≤ i then i
  else
    let row := t.rowBytes
    let n := i / row
    n * row + 32 * ((i % row / 32 + n / 2 ^ (t.swz - 1)) % (row / 32)) + i % 32

/-- The digits of a number, the first dimension fastest. -/
def digits (box : List Nat) (n : Nat) : List Nat :=
  match box with
  | [] => []
  | b :: rest => n % b :: digits rest (n / b)

/-- A run of image bytes that is one element, or the elements or the exponents of one block: its image byte, its length,
its address, whether it is in bounds, and the bytes that take its place otherwise (R287, R288). -/
structure Piece where
  img : Nat
  len : Nat
  va : DWord
  inside : Bool
  fill : List Byte
  deriving DecidableEq, Repr

/-- The tensor coordinates of a box element; a gather takes x_1 from its index list (R288, R294). -/
def TensorShape.coordinates (t : TensorShape) (start : List Word) (rows : Option (List Nat)) (n : Nat) : List Int :=
  let js := digits t.box n
  let xs := (start.zip js).map (fun cj => cj.1.toInt + (cj.2 : Int))
  match rows with
  | none => xs
  | some ix =>
    let r := ix.getD (js.getD 1 0) 0
    xs.set 1 (if r < 2 ^ 31 then (r : Int) else -1)

/-- The sum of the coordinates times the strides. -/
def TensorShape.step (t : TensorShape) (xs : List Int) : Int := (xs.zip t.stride).foldl (fun acc p => acc + p.1 * p.2) 0

/-- The pieces of the box element `n`, or of the block that it begins. -/
def TensorShape.piecesAt (t : TensorShape) (start : List Word) (rows : Option (List Nat)) (n : Nat) : List Piece :=
  let xs := t.coordinates start rows n
  let inside := (xs.zip t.ext).all (fun p => 0 ≤ p.1 && p.1 < (p.2 : Int))
  let e := t.step xs
  let bits := elementBits t.ty
  if blockType t.ty then
    let low := t.fill.toNat % 256
    let byte := if bits = 8 then low else low % 16 * 17
    [ { img := n * bits / 8, len := 4 * bits, va := t.base + BitVec.ofInt 64 (if bits = 8 then e else e / 2)
        inside := inside, fill := List.replicate (4 * bits) (BitVec.ofNat 8 byte) }
    , { img := t.dataBytes + n / 16, len := 2, va := t.ebase + BitVec.ofInt 64 (2 * (e / 32)), inside := inside
        fill := bytesOfNum 2 (t.fill.toNat / 256) } ]
  else
    [ { img := n * (bits / 8), len := bits / 8, va := t.base + BitVec.ofInt 64 e, inside := inside
        fill := bytesOfNum (bits / 8) t.fill.toNat } ]

/-- The pieces of a box at its start coordinates. -/
def TensorShape.pieces (t : TensorShape) (start : List Word) (rows : Option (List Nat)) : List Piece :=
  let unit := if blockType t.ty then 32 else 1
  (List.range (t.elems / unit)).flatMap (fun i => t.piecesAt start rows (unit * i))

/-! ### A copy (R294, R295) -/

/-- What a copy command, or a COPY entry of a chain, names: `c` is the destination record of cp and the value of set. -/
structure CopyJob where
  op : CraneOp
  record : DWord
  c : DWord
  p : Nat
  ring : Option Nat
  coords : List Word
  /-- Are the record addresses device physical: those of a chain entry in checkpoint mode (R298)? -/
  physical : Bool
  /-- The FADDR of a P that is not aligned: the record's address, or the entry's (R302; DEDUCED, log entry 25). -/
  blame : DWord
  deriving DecidableEq, Repr

/-- A copy with its records read and checked: source and destination shapes and starts. -/
structure CopyPlan where
  src : TensorShape
  dst : TensorShape
  start : List Word
  dstStart : List Word
  deriving DecidableEq, Repr

/-- The command at the head of a Crane queue. -/
def State.craneHead (s : State) (core cq : Nat) : Option CraneCommand := ((s.core core).crane.getD cq []).head?

/-- The state with a Crane queue changed. -/
def State.modCrane (s : State) (core cq : Nat) (f : List CraneCommand → List CraneCommand) : State :=
  s.modCore core (fun k => { k with crane := k.crane.modify cq f })

/-- The state with the command at the head of a queue changed. -/
def State.modHead (s : State) (core cq : Nat) (f : CraneCommand → CraneCommand) : State :=
  s.modCrane core cq (fun q =>
    match q with
    | [] => []
    | c :: rest => f c :: rest)

/-- On whose behalf a Crane command accesses memory (R298; 01 R26): in checkpoint mode its BASE, EBASE and counter are device
physical, and so are the addresses in chain entries. -/
def CraneCommand.as (c : CraneCommand) (core : Nat) : EngineAs :=
  { core := core, ctx := c.ctx, user := c.user, sys := c.physical, physical := c.physical }

/-- As `as`, for the record address in an operand, which stays virtual (R298). -/
def CraneCommand.asVirtual (c : CraneCommand) (core : Nat) : EngineAs := { c.as core with physical := false }

/-- A record as the command at the head of a queue reads it (R294, R302), once: what it has read it keeps. -/
def craneRecord (core cq : Nat) (w : EngineAs) (a : DWord) : Engine TensorShape := do
  engineCheck (a.toNat % 256 = 0) a
  let s ← get
  match ((s.craneHead core cq).map (·.read)).getD [] |>.find? (fun x => x.1 = a) with
  | some x => return shapeOfRecord x.2
  | none =>
    let ps ← engineSpots w .read a 256
    let s ← get
    let b := (s.engineBytes ps).map (·.1)
    engineCheck (recordValid b) a
    set (s.useFresh.modHead core cq (fun c => { c with read := (a, b) :: c.read }))
    return shapeOfRecord b

/-- Do two records give the same box, a dimension at or above NDIM counting as 1 (R294)? -/
def sameBox (t u : TensorShape) : Bool :=
  (List.range (max t.box.length u.box.length)).all (fun d => t.box.getD d 1 = u.box.getD d 1)

/-- Is the first coordinate one at which a block type's box may start (R288)? -/
def blockStart (t : TensorShape) (start : List Word) : Bool := !blockType t.ty || (start.headD 0).toNat % 32 = 0

/-- Reads and checks the records of a copy, and takes its coordinates (R292, R294, R302). -/
def cranePlan (core cq : Nat) (w : EngineAs) (j : CopyJob) : Engine CopyPlan := do
  let t ← craneRecord core cq w j.record
  let d ← if j.op = .cp then craneRecord core cq w j.c else pure t
  let skip := if j.op = .gather then 1 else 0
  let n := t.box.length
  engineCheck (skip + n ≤ j.coords.length) j.record
  engineCheck (j.op ≠ .gather || 2 ≤ n) j.record
  engineCheck (j.op ≠ .cp || (n + d.box.length ≤ j.coords.length && t.ty = d.ty && sameBox t d)) j.record
  let start := (j.coords.drop skip).take n
  let dstStart := if j.op = .cp then (j.coords.drop n).take d.box.length else start
  engineCheck (blockStart t start && blockStart d dstStart) j.record
  return { src := t, dst := d, start := start, dstStart := dstStart }

/-- The pointer value at which a copy's ring bytes begin: its reservation, made when there is room (R300). -/
def craneReserve (core cq : Nat) (c : CraneCommand) (n len : Nat) (addr : DWord) : Engine Word :=
  match c.reserved with
  | some x => pure x.1
  | none => do
    let s ← get
    match s.ring? core n with
    | none => engineStop (.fault none addr)
    | some x =>
      engineCheck (len % 128 = 0 && len ≤ x.size) addr
      match s.reserveRing core n c.id len with
      | none => engineStop (.again none 0)
      | some (t, ptr) =>
        set (t.modHead core cq (fun c => { c with reserved := some (ptr, len) }))
        return ptr

/-- The first byte of a range of the scratchpad that lies outside an allocation of some bytes (R302). -/
def firstOutside (at_ bytes : Nat) : DWord := BitVec.ofNat 64 (max at_ bytes)

/-- The window offset of each image byte, as a function of its place (R289): in the allocation, or in the ring. -/
def craneEnd (core cq : Nat) (c : CraneCommand) (j : CopyJob) (t : TensorShape) : Engine (Nat → Nat) :=
  match j.ring with
  | some n => do
    let ptr ← craneReserve core cq c n t.bytes j.record
    let s ← get
    let x := (s.ring? core n).getD ⟨0, 1, 0, 0, []⟩
    return fun y => x.offset (ptr + BitVec.ofNat 32 y)
  | none => do
    engineCheck (j.op = .cp || j.op = .set || j.p % 32 = 0) j.blame
    engineCheck (j.op = .cp || j.op = .set || j.p + t.bytes ≤ c.scratchBytes) (firstOutside j.p c.scratchBytes)
    return fun y => c.scratchBase + j.p + y

/-- The index list of a gather (R294), which is read as the records are, once. -/
def craneRows (core cq : Nat) (c : CraneCommand) (j : CopyJob) (t : TensorShape) : Engine (Option (List Nat)) := do
  let s ← get
  let got := (s.craneHead core cq).bind (·.rows)
  if j.op ≠ .gather || got.isSome then return got
  else
    let at_ := (j.coords.headD 0).toNat
    let n := t.box.getD 1 0
    engineCheck (at_ + 4 * n ≤ c.scratchBytes) (firstOutside at_ c.scratchBytes)
    let rows := (List.range n).map (fun r => (s.core core).readWin (c.scratchBase + at_ + 4 * r) 4)
    set (s.modHead core cq (fun c => { c with rows := some rows }))
    return some rows

/-- Where the bytes of each piece lie in memory; an element out of bounds is never touched (R288). -/
def pieceSpots (w : EngineAs) (k : AccessKind) (ps : List Piece) : Engine (List (List Spot)) :=
  ps.mapM (fun p => if p.inside then engineSpots w k p.va p.len else pure [])

/-- The bytes of pieces whose source is memory: what is read there, or FILL (R288). -/
def State.readPieces (s : State) (ps : List Piece) (spots : List (List Spot)) : List (List (Byte × Bool)) :=
  (ps.zip spots).map (fun x => if x.1.inside then s.engineBytes x.2 else x.1.fill.map (fun b => (b, false)))

/-- Writes pieces into memory, those out of bounds skipped (R294). -/
def State.writePieces (s : State) (w : EngineAs) (ps : List Piece) (spots : List (List Spot))
    (data : List (List (Byte × Bool))) : State :=
  let s := (ps.filter (·.inside)).foldl (fun s p => s.engineDirty w p.va p.len) s
  (spots.zip data).foldl (fun s x => if x.1 = [] then s else s.engineWrite w (x.1.zip x.2)) s

/-- Writes pieces into the image whose byte at place `y` lies at window offset `off y`. -/
def State.writeImage (s : State) (core : Nat) (t : TensorShape) (off : Nat → Nat) (ps : List Piece)
    (data : List (List (Byte × Bool))) : State :=
  (ps.zip data).foldl (fun s x =>
    ((List.range x.2.length).zip x.2).foldl (fun s ib =>
      s.modCore core (fun k => k.writeWin (off (t.place x.1.img + ib.1)) [ib.2.1])) s) s

/-- Reads pieces from an image. -/
def State.readImage (s : State) (core : Nat) (t : TensorShape) (off : Nat → Nat) (ps : List Piece) :
    List (List (Byte × Bool)) :=
  ps.map (fun p => (List.range p.len).map (fun i => (Memory.read (s.core core).win (off (t.place p.img + i)), false)))

/-- A copy is performed at one instant, once every access of it has its translation (R294, R295). It answers whether the
box holds an element. -/
def craneTransfer (core cq : Nat) (c : CraneCommand) (j : CopyJob) : Engine Bool := do
  let w := c.as core
  let plan ← cranePlan core cq (if j.physical then w else c.asVirtual core) j
  let t := plan.src
  if t.elems = 0 then return false
  let rows ← craneRows core cq c j t
  let off ← craneEnd core cq c j t
  let src := t.pieces plan.start rows
  let dst := if j.op = .cp then plan.dst.pieces plan.dstStart none else src
  let reads := j.op = .ld || j.op = .gather || j.op = .cp
  let writes := j.op = .st || j.op = .cp || (j.op = .set && j.ring.isNone)
  let from_ ← if reads then pieceSpots w .read src else pure []
  let to_ ← if writes then pieceSpots w .write dst else pure []
  let s ← get
  let data :=
    match j.op with
    | .st => s.readImage core t off src
    | .set => ({ t with fill := j.c }.pieces plan.start none).map (fun (p : Piece) => p.fill.map (fun b => (b, false)))
    | _ => s.readPieces src from_
  set (if writes then s.useFresh.writePieces w dst to_ data else s.useFresh.writeImage core t off src data)
  return true

end Sys2Proof.Machine
end

