-- ==== Sys2Proof/Machine/Crane.lean ====
section
/-! DEFINITION. The Crane: its queues, its commands, its chains, and the ring instructions (12). -/

namespace Sys2Proof.Machine

/-! ### The queues (R293, R296, R297, R302, R303) -/

/-- The Crane events of a queue. -/
def craneEvent (mk : Fin 384 → Fin 4 → Instr) (core cq : Nat) : Instr := mk (Fin.ofNat 384 core) (Fin.ofNat 4 cq)

/-- The command at the head of a queue leaves it. -/
def State.popCrane (s : State) (core cq : Nat) : State := s.modCrane core cq (fun q => q.drop 1)

/-- The command at the head of a queue stops with a fault, which its berth holds (R302). -/
def State.craneFaulted (s : State) (core cq : Nat) (addr : DWord) : State :=
  match s.craneHead core cq with
  | none => s
  | some c =>
    let s := match c.berth with
      | some b => s.berthFault core b .craneFault addr []
      | none => s
    s.popCrane core cq

/-- What stops an access of the command at the head of a queue: the command waits, with a host-path request where the
page is not present (R303), or it faults. -/
def State.craneStopped (s : State) (core cq : Nat) (e : EngineStop) (again : Instr) : State :=
  match e with
  | .again none _ => s.due [again]
  | .again (some page) addr =>
    let ctx := ((s.craneHead core cq).map (·.ctx)).getD 0
    ((s.requestPage ctx page none none).modHead core cq (fun c => { c with awaits := some page, awaitsAt := addr })).due [again]
  | .fault _ addr => s.craneFaulted core cq addr

/-- crn.fence at the head of a queue passes once it heads every queue that it names (R297). -/
def State.craneFence (s : State) (core : Nat) (c : CraneCommand) (again : Instr) : State :=
  let named := (List.range 4).filter (fun q => c.mask.testBit q)
  if named.all (fun q => ((s.craneHead core q).map (·.id)) = some c.id) then
    named.foldl (fun s q => s.popCrane core q) s
  else s.due [again]

/-- The copy that an accepted command names. -/
def CraneCommand.job (c : CraneCommand) : CopyJob :=
  { op := c.op, record := c.a, c := c.c, p := c.c.toNat % 2 ^ 32, ring := c.ring, coords := c.coords
    physical := false, blame := c.a }

/-! ### Chains (R301) -/

/-- The 32 bytes of the chain entry at an offset. -/
def State.chainEntry (s : State) (core : Nat) (c : CraneCommand) (at_ : Nat) : List Byte :=
  Memory.readBytes (s.core core).win (c.scratchBase + at_) 32

/-- The event that performs an entry of a kind. -/
def chainEvent (kind : Nat) : Option (Fin 384 → Fin 4 → Instr) :=
  match kind with
  | 0 => some .chainEnd
  | 1 => some .chainCopy
  | 2 => some .chainLoop
  | 3 => some .chainIfcnt
  | 4 => some .chainSignal
  | 5 => some .chainFence
  | _ => none

/-- The walker goes to an entry, which it reads there and whose event is due; an entry that no chain may have is a fault (R302). -/
def State.chainGo (s : State) (core cq : Nat) (c : CraneCommand) (w : Walker) : State :=
  let start := c.a.toNat % 2 ^ 32
  let at_ := BitVec.ofNat 64 w.at_
  if c.scratchBytes < w.at_ + 32 || start + 32 * 256 ≤ w.at_ || 2 ^ 32 < w.passed then s.craneFaulted core cq at_
  else
    let entry := s.chainEntry core c w.at_
    match chainEvent (entry.headD 0).toNat with
    | none => s.craneFaulted core cq at_
    | some ev =>
      (s.modHead core cq (fun c =>
        { c with walker := some { w with entry := entry }, awaits := none, read := [], rows := none })).due
        [craneEvent ev core cq]

/-- A chain begins (R301). -/
def State.chainBegin (s : State) (core cq : Nat) (c : CraneCommand) : State :=
  let start := c.a.toNat % 2 ^ 32
  if start % 32 ≠ 0 then s.craneFaulted core cq (BitVec.ofNat 64 start)
  else
    let w : Walker := { at_ := start, entry := [], xs := c.coords.take 16, bias := 0, counts := [], passed := 0, fenced := none }
    (s.modHead core cq (fun c => { c with begun := true })).chainGo core cq c w

/-- The chain at the head of a queue whose walker has reached an entry of a kind, with the entry as it read it. -/
def State.onEntry (s : State) (core cq kind : Nat) (go : CraneCommand → Walker → List Byte → State) : State :=
  match s.craneHead core cq with
  | none => s
  | some c =>
    match c.walker with
    | none => s
    | some w =>
      if c.fault.isSome then s.craneFaulted core cq (c.fault.getD 0) else
      if (w.entry.headD 0).toNat = kind then go c w w.entry else s

/-- The walker after the entry that it has performed. -/
def Walker.after (w : Walker) (skip : Nat) : Walker := { w with at_ := w.at_ + 32 * (skip + 1), passed := w.passed + skip + 1 }

/-- Have all the ring advances of a command been applied? -/
def State.advancesDone (s : State) (core id : Nat) : Bool := (s.core core).rings.all (fun e => e.2.released id)

/-- The operation that a COPY entry names. Only ld, set and gather may name a ring (R290). -/
def chainOp (e : List Byte) : Option CraneOp :=
  let ring := (numAt e 2 1).testBit 7
  match numAt e 1 1 with
  | 0 => some .ld
  | 1 => if ring then none else some .st
  | 2 => if ring then none else some .cp
  | 3 => some .set
  | 4 => some .gather
  | _ => none

/-- COPY. The set value's high 32 bits are 0 (log entry 25). -/
def State.chainCopy (s : State) (core cq : Nat) : State :=
  s.onEntry core cq 1 (fun c w e =>
    match chainOp e with
    | none => s.craneFaulted core cq (BitVec.ofNat 64 w.at_)
    | some op =>
      let ringBase := match s.team? ⟨core, c.team⟩ with
        | some t => if numAt e 2 1 % 16 < t.ringCount then some (t.ringBase + numAt e 2 1 % 16) else none
        | none => none
      let ring := if (numAt e 2 1).testBit 7 then some (ringBase.getD 16) else none
      let low := numAt e 4 4
      let j : CopyJob :=
        { op := op, record := BitVec.ofNat 64 (numAt e 8 8)
          c := if op = .set then BitVec.ofNat 64 low else BitVec.ofNat 64 (numAt e 0x10 8)
          p := (low + w.bias.toNat) % 2 ^ 32, ring := ring, coords := w.xs, physical := c.physical
          blame := BitVec.ofNat 64 w.at_ }
      match (craneTransfer core cq c j).run s with
      | (.error x, s') => s'.craneStopped core cq x (craneEvent .chainCopy core cq)
      | (.ok _, s') =>
        let s' := match ring with
          | some n => s'.modRing core n (fun x => x.complete c.id)
          | none => s'
        (s'.modHead core cq (fun c => { c with reserved := none })).chainGo core cq c (w.after 0))

/-- LOOP. -/
def State.chainLoop (s : State) (core cq : Nat) : State :=
  s.onEntry core cq 2 (fun c w e =>
    let count := numAt e 4 4
    let n := Table.get w.counts 0 w.at_ + 1
    let inc (d : Nat) : Word := (BitVec.ofNat 16 (numAt e (0x10 + 2 * d) 2)).signExtend 32
    let bias := BitVec.ofNat 32 (numAt e 0xC 4)
    let move (times : Word) : Walker :=
      { w with
        xs := ((List.range w.xs.length).zip w.xs).map (fun ix => if ix.1 < 8 then ix.2 + times * inc ix.1 else ix.2)
        bias := w.bias + times * bias }
    if n < count then
      let back := (BitVec.ofNat 32 w.at_ - BitVec.ofNat 32 (numAt e 8 4)).toNat
      s.chainGo core cq c { move 1 with at_ := back, counts := Table.set w.counts w.at_ n, passed := w.passed + 1 }
    else
      s.chainGo core cq c (({ move (1 - BitVec.ofNat 32 count) with counts := Table.set w.counts w.at_ 0 } : Walker).after 0))

/-- IFCNT. -/
def State.chainIfcnt (s : State) (core cq : Nat) : State :=
  s.onEntry core cq 3 (fun c w e =>
    match (engineCounter (c.as core) .read (BitVec.ofNat 64 (numAt e 8 8))).run s with
    | (.error x, s') => s'.craneStopped core cq x (craneEvent .chainIfcnt core cq)
    | (.ok y, s') => s'.chainGo core cq c (w.after (if numAt e 0x10 8 ≤ y.2.toNat then numAt e 4 4 else 0)))

/-- SIGNAL, after every earlier entry of the chain is performed. -/
def State.chainSignal (s : State) (core cq : Nat) : State :=
  s.onEntry core cq 4 (fun c w e =>
    let again := craneEvent .chainSignal core cq
    if 1 < numAt e 1 1 then s.craneFaulted core cq (BitVec.ofNat 64 w.at_)
    else if !s.advancesDone core c.id then s.due [again]
    else
      let add := numAt e 1 1 = 1
      let va := BitVec.ofNat 64 (numAt e 8 8)
      let val := BitVec.ofNat 64 (numAt e 0x10 8)
      let act : Engine Unit := do
        let y ← engineCounter (c.as core) (if add then .atomic else .write) va
        engineStore (c.as core) va y.1 (if add then y.2 + val else val)
      match act.run s with
      | (.error x, s') => s'.craneStopped core cq x again
      | (.ok _, s') => s'.chainGo core cq c (w.after 0))

/-- FENCE: a fence entry enters the other queues that its mask names, and the walker waits until it heads them all. -/
def State.chainFence (s : State) (core cq : Nat) : State :=
  s.onEntry core cq 5 (fun c w e =>
    let again := craneEvent .chainFence core cq
    let named := (List.range 4).filter (fun q => (numAt e 1 1).testBit q && q ≠ cq)
    match w.fenced with
    | none =>
      if named.any (fun q => 16 ≤ ((s.core core).crane.getD q []).length) then s.due [again]
      else
        let id := s.fresh
        let entry : CraneCommand :=
          { c with
            id := id, op := .fence, berth := none, ring := none, counter := none, begun := true, reserved := none
            awaits := none, awaitsAt := 0, read := [], rows := none, walker := none, mask := 0 }
        let s := named.foldl (fun s q => s.modCrane core q (fun l => l ++ [entry])) s.useFresh
        (s.modHead core cq (fun c => { c with walker := some { w with fenced := some id } })).due [again]
    | some id =>
      if s.advancesDone core c.id && named.all (fun q => ((s.craneHead core q).map (·.id)) = some id) then
        (named.foldl (fun s q => s.popCrane core q) s).chainGo core cq c (({ w with fenced := none } : Walker).after 0)
      else s.due [again])

/-- The end of a command or of a chain: its ring advance, its remote counter, then its berth (R295, R296, R300). -/
def craneEnding (core : Nat) (c : CraneCommand) : Engine Unit := do
  match c.counter with
  | some va => let _ ← engineCounter (c.as core) .atomic va
  | none => pure ()
  match c.ring, c.reserved with
  | some n, some _ => modify (fun s => s.modRing core n (fun x => x.complete c.id))
  | _, _ => pure ()
  let s ← get
  if !s.advancesDone core c.id then engineStop (.again none 0)
  match c.counter with
  | some va =>
    let y ← engineCounter (c.as core) .atomic va
    engineStore (c.as core) va y.1 (y.2 + 1)
  | none => pure ()

/-- The command at the head of a queue ends. -/
def State.craneEnd (s : State) (core cq : Nat) (c : CraneCommand) (again : Instr) : State :=
  match c.fault with
  | some a => s.craneFaulted core cq a
  | none =>
    match (craneEnding core c).run s with
    | (.error x, s') => s'.craneStopped core cq x again
    | (.ok _, s') =>
      let s' := match c.berth with
        | some b => s'.berthReady core b 0
        | none => s'
      s'.popCrane core cq

/-- END. -/
def State.chainEnd (s : State) (core cq : Nat) : State :=
  s.onEntry core cq 0 (fun c _ _ => s.craneEnd core cq c (craneEvent .chainEnd core cq))

/-! ### Commands begin and complete (R294, R295) -/

/-- The command at the head of a queue begins: its copy is performed, a chain's walker starts, a fence is tested. While the
head is under way the step stays due for the next entry. -/
def State.craneBegin (s : State) (core cq : Nat) : State :=
  let again := craneEvent .craneCommandBegin core cq
  match s.craneHead core cq with
  | none => s
  | some c =>
    if c.begun then s.due [again]
    else if c.op = .fence then s.craneFence core c again
    else if c.op = .chain then s.chainBegin core cq c
    else
      match c.fault with
      | some a => s.craneFaulted core cq a
      | none =>
        match (craneTransfer core cq c c.job).run s with
        | (.error x, s') => s'.craneStopped core cq x again
        | (.ok held, s') =>
          (s'.modHead core cq (fun c =>
            { c with begun := true, awaits := none, counter := if held then c.counter else none })).due
            [craneEvent .craneCommandComplete core cq]

/-- The command at the head of a queue, whose elements are performed, completes. -/
def State.craneComplete (s : State) (core cq : Nat) : State :=
  match s.craneHead core cq with
  | none => s
  | some c =>
    if c.begun && c.op ≠ .chain && c.op ≠ .fence then s.craneEnd core cq c (craneEvent .craneCommandComplete core cq) else s

/-! ### Acceptance (R292, R293) -/

/-- The fields of a Crane command (R290). -/
def LongFields.craneQueue (f : LongFields) : Nat := f.modBits 12 11
def LongFields.craneBerth (f : LongFields) : Nat := f.extBits 5 0
def LongFields.craneRing (f : LongFields) : Option Nat := if f.modBits 13 13 = 1 then some (f.extBits 9 6) else none
def LongFields.craneCounter (f : LongFields) : Option DWord := if f.modBits 14 14 = 1 then some (f.lit.getD 0) else none

/-- Is B %zero or an s register (R292)? -/
def coordsOk (f : LongFields) : Bool :=
  match Operand.ofCode f.b with
  | .s _ => true
  | .special n => n = 332
  | _ => false

/-- The checks of orders 3 and 4 of R293. -/
def craneChecks (op : CraneOp) (f : LongFields) (x : Issue) : Attempt Unit := do
  let r := x.s.issuing
  check (x.s.berthOk r (LongFields.craneBerth f)) .illegalOperand
  check ((LongFields.craneRing f).all (x.s.ringOk r)) .illegalOperand
  check (coordsOk f) .illegalOperand
  check ((LongFields.craneCounter f).all aligned8) .illegalOperand
  check (!(op = .st || op = .cp || op = .set || op = .chain) || x.s.self.kind ≠ .recovery) .purity

/-- The coordinates that a command captures (R292). -/
def State.captured (s : State) (op : Op) (f : LongFields) : List Word :=
  match Operand.ofCode f.b with
  | .s _ => (s.self.rangeReads op f).map (fun reg => (s.readReg s.issuing reg).at' 0)
  | _ => List.replicate 32 0

/-- The command that an issue captures. -/
def Issue.craneCommand (x : Issue) (op : CraneOp) (iop : Op) (f : LongFields) : CraneCommand :=
  let s := x.s
  let r := s.issuing
  let a := s.attrs r
  let g := s.self
  { id := s.fresh, op := op, team := g.team, slot := r.slot, ctx := a.ctx, user := g.privilege = .user
    physical := g.checkpoint, berth := some (s.coreBerth r (LongFields.craneBerth f))
    ring := (LongFields.craneRing f).map (s.coreRing r), a := laneVal x.a 0, c := laneVal x.c 0
    coords := s.captured iop f, counter := LongFields.craneCounter f, scratchBase := a.scratchBase
    scratchBytes := a.scratchBytes, mask := 0, begun := false, reserved := none, awaits := none, awaitsAt := 0, fault := none
    read := [], rows := none, walker := none }

/-- A command enters its queue. -/
def State.acceptCrane (s : State) (core cq : Nat) (c : CraneCommand) : State :=
  (s.useFresh.modCrane core cq (fun q => q ++ [c])).due [craneEvent .craneCommandBegin core cq]

/-- A Crane command (R293). -/
def State.craneOp (s : State) (iop : Op) (op : CraneOp) (f : LongFields) : Host.Outcome State Fault Refusal :=
  s.finish (do
    let x ← s.prepareWith iop f .fields (craneChecks op f)
    if !x.acts then return x.finishPlain
    let r := x.s.issuing
    let n := LongFields.craneBerth f
    let cq := LongFields.craneQueue f
    check (!x.s.berthBusy r n) .berthConflict
    x.request (.crane (2 ^ cq))
    let t := ((x.s.grantTo r arbCrane).claimBerth r.core (x.s.coreBerth r n)).acceptCrane r.core cq (x.craneCommand op iop f)
    return ({ x with s := t } : Issue).finishPlain)

/-- crn.fence (R297). -/
def State.crnFenceOp (s : State) (f : LongFields) : Host.Outcome State Fault Refusal :=
  s.finish (do
    let x ← s.prepare .crnFence f
    let r := x.s.issuing
    let mask := f.extBits 3 0
    let named := (List.range 4).filter (fun q => mask.testBit q)
    x.request (.crane mask)
    let c := { x.craneCommand .fence .crnFence f with berth := none, mask := mask }
    let t := named.foldl (fun s q => s.acceptCrane r.core q c) (x.s.grantTo r arbCrane)
    return ({ x with s := t } : Issue).finishPlain)

/-- crn.mode (R298). -/
def State.crnModeOp (s : State) (f : LongFields) : Host.Outcome State Fault Refusal :=
  s.finish (do
    let x ← s.prepare .crnMode f
    check (x.s.self.privilege.atLeast .system) .privilege
    return ({ x with s := x.s.modSelf (fun g => { g with checkpoint := f.extBits 0 0 = 1 }) } : Issue).finishPlain)

/-! ### Ring instructions (R299) -/

/-- Does an accepted, unfinished command or mma name a ring of a core (R299)? -/
def State.ringNamed (s : State) (core n : Nat) : Bool :=
  let k := s.core core
  let holders := ((s.ring? core n).map (fun x => x.reserved.map (·.id))).getD []
  k.crane.any (fun q => q.any (fun c => c.ring = some n || holders.contains c.id))
    || k.matrix.queue.any (fun c => c.op = .mma && (c.aRing = n || c.oRing = some n))
    || k.drain.any (fun c => c.ring = some n)

/-- The ring number in EXT. -/
def LongFields.ringNum (f : LongFields) : Nat := f.extBits 3 0

/-- The base and the size that ring.decl's A gives. -/
def Issue.declBase (x : Issue) : Nat := (laneVal x.a 0).toNat % 2 ^ 32
def Issue.declSize (x : Issue) : Nat := (laneVal x.a 0).toNat / 2 ^ 32

/-- The checks of ring.decl. -/
def declChecks (f : LongFields) (x : Issue) : Attempt Unit :=
  let a := x.s.attrs x.s.issuing
  check (LongFields.ringNum f < a.ringCount && x.declBase % 128 = 0 && x.declSize % 128 = 0 && 128 ≤ x.declSize
    && x.declSize ≤ 1048576 && x.declBase + x.declSize ≤ a.scratchBytes) .illegalOperand

/-- ring.decl. -/
def State.ringDeclOp (s : State) (f : LongFields) : Host.Outcome State Fault Refusal :=
  s.finish (do
    let x ← s.prepareWith .ringDecl f .fields (declChecks f)
    if !x.acts then return x.finishPlain
    let r := x.s.issuing
    let n := x.s.coreRing r (LongFields.ringNum f)
    if x.s.ringNamed r.core n then .error (.stall (.accept (.ring n)))
    let ring : Ring := { base := (x.s.attrs r).scratchBase + x.declBase, size := x.declSize, prod := 0, cons := 0, reserved := [] }
    let t := x.s.modCore r.core (fun k => { k with rings := Table.set k.rings n ring })
    return ({ x with s := t } : Issue).finishPlain)

/-- The ring that ring.adv or ring.stat names, which must be declared. -/
def ringCheck (f : LongFields) (x : Issue) : Attempt Unit :=
  check (x.s.ringOk x.s.issuing (LongFields.ringNum f)) .illegalOperand

/-- The ring that an issue names. -/
def Issue.ring (x : Issue) (f : LongFields) : Ring :=
  (x.s.ring? x.s.issuing.core (x.s.coreRing x.s.issuing (LongFields.ringNum f))).getD ⟨0, 0, 0, 0, []⟩

/-- ring.adv.prod and ring.adv.cons. -/
def State.ringAdvOp (s : State) (f : LongFields) : Host.Outcome State Fault Refusal :=
  s.finish (do
    let x ← s.prepareWith .ringAdv f .fields (ringCheck f)
    if !x.acts then return x.finishPlain
    let r := x.s.issuing
    let n := x.s.coreRing r (LongFields.ringNum f)
    let y := x.ring f
    let a := (laneVal x.a 0).toNat % 2 ^ 32
    let cons := f.modBits 11 11 = 1
    if !cons && y.reserved ≠ [] then .error (.stall (.accept (.ringIdle n)))
    check (if cons then a ≤ y.occupancy else y.occupancy + a ≤ y.size) .ringOverrun
    let t := x.s.modRing r.core n (fun y =>
      if cons then { y with cons := y.cons + BitVec.ofNat 32 a } else { y with prod := y.prod + BitVec.ofNat 32 a })
    return ({ x with s := t } : Issue).finishPlain)

/-- ring.stat. -/
def State.ringStatOp (s : State) (f : LongFields) : Host.Outcome State Fault Refusal :=
  s.finish (do
    let x ← s.prepareWith .ringStat f .fields (ringCheck f)
    let y := x.ring f
    return x.finishPending [Lanes.splat y.prod, Lanes.splat y.cons] false [])

/-! ### Instructions and events -/

/-- crn.ld (R294). -/
def execCrnLd (f : LongFields) (s : State) : Host.Outcome State Fault Refusal := s.craneOp .crnLd .ld f
/-- crn.st (R294). -/
def execCrnSt (f : LongFields) (s : State) : Host.Outcome State Fault Refusal := s.craneOp .crnSt .st f
/-- crn.cp (R294). -/
def execCrnCp (f : LongFields) (s : State) : Host.Outcome State Fault Refusal := s.craneOp .crnCp .cp f
/-- crn.set (R294). -/
def execCrnSet (f : LongFields) (s : State) : Host.Outcome State Fault Refusal := s.craneOp .crnSet .set f
/-- crn.gather (R294). -/
def execCrnGather (f : LongFields) (s : State) : Host.Outcome State Fault Refusal := s.craneOp .crnGather .gather f
/-- crn.chain (R301). -/
def execCrnChain (f : LongFields) (s : State) : Host.Outcome State Fault Refusal := s.craneOp .crnChain .chain f
/-- crn.fence (R297). -/
def execCrnFence (f : LongFields) (s : State) : Host.Outcome State Fault Refusal := s.crnFenceOp f
/-- crn.mode (R298). -/
def execCrnMode (f : LongFields) (s : State) : Host.Outcome State Fault Refusal := s.crnModeOp f
/-- ring.decl (R299). -/
def execRingDecl (f : LongFields) (s : State) : Host.Outcome State Fault Refusal := s.ringDeclOp f
/-- ring.adv.prod, ring.adv.cons (R299). -/
def execRingAdv (f : LongFields) (s : State) : Host.Outcome State Fault Refusal := s.ringAdvOp f
/-- ring.stat (R299). -/
def execRingStat (f : LongFields) (s : State) : Host.Outcome State Fault Refusal := s.ringStatOp f

/-- A command begins (R294). -/
def execCraneCommandBegin (core : Fin 384) (cq : Fin 4) (s : State) : Host.Outcome State Fault Refusal :=
  .next (s.craneBegin core cq)
/-- A command completes (R295). -/
def execCraneCommandComplete (core : Fin 384) (cq : Fin 4) (s : State) : Host.Outcome State Fault Refusal :=
  .next (s.craneComplete core cq)
/-- A chain's COPY (R301). -/
def execChainCopy (core : Fin 384) (cq : Fin 4) (s : State) : Host.Outcome State Fault Refusal := .next (s.chainCopy core cq)
/-- A chain's LOOP (R301). -/
def execChainLoop (core : Fin 384) (cq : Fin 4) (s : State) : Host.Outcome State Fault Refusal := .next (s.chainLoop core cq)
/-- A chain's IFCNT (R301). -/
def execChainIfcnt (core : Fin 384) (cq : Fin 4) (s : State) : Host.Outcome State Fault Refusal :=
  .next (s.chainIfcnt core cq)
/-- A chain's SIGNAL (R301). -/
def execChainSignal (core : Fin 384) (cq : Fin 4) (s : State) : Host.Outcome State Fault Refusal :=
  .next (s.chainSignal core cq)
/-- A chain's FENCE (R301). -/
def execChainFence (core : Fin 384) (cq : Fin 4) (s : State) : Host.Outcome State Fault Refusal :=
  .next (s.chainFence core cq)
/-- A chain's END (R301). -/
def execChainEnd (core : Fin 384) (cq : Fin 4) (s : State) : Host.Outcome State Fault Refusal := .next (s.chainEnd core cq)

end Sys2Proof.Machine
end

