-- ==== Sys2Proof/Machine/CrossLane.lean ====
section
/-! DEFINITION. The operand engine's instructions: moves, indexed access, reductions, scans, exchanges, predicates,
footprint and early free (07 R180-R186). -/

namespace Sys2Proof.Machine

/-! ### Moves and indexed access (R181, R182) -/

/-- mov, short (R181). -/
def execMovShort (f : ShortFields) (s : State) : Host.Outcome State Fault Refusal :=
  s.pureOp .mov (f.widen .mov) (fun a _ _ => a)
/-- mov (R181). -/
def execMovLong (f : LongFields) (s : State) : Host.Outcome State Fault Refusal := s.pureOp .mov f (fun a _ _ => a)

/-- movw, short (R181): every lane as it stands. -/
def execMovwShort (f : ShortFields) (s : State) : Host.Outcome State Fault Refusal :=
  s.pureOp .movw (f.widen .movw) (fun a _ _ => a)
/-- movw (R181): every lane as it stands. -/
def execMovwLong (f : LongFields) (s : State) : Host.Outcome State Fault Refusal := s.pureOp .movw f (fun a _ _ => a)

/-- movx, short (R182): A is the register that the index selects. -/
def execMovxShort (f : ShortFields) (s : State) : Host.Outcome State Fault Refusal :=
  s.pureOp .movx (f.widen .movx) (fun a _ _ => a)
/-- movx (R182): A is the register that the index selects. -/
def execMovxLong (f : LongFields) (s : State) : Host.Outcome State Fault Refusal := s.pureOp .movx f (fun a _ _ => a)

/-- movxw, short (R182): the destination is the register that the index selects. -/
def execMovxwShort (f : ShortFields) (s : State) : Host.Outcome State Fault Refusal :=
  s.pureOp .movxw (f.widen .movxw) (fun a _ _ => a)
/-- movxw (R182): the destination is the register that the index selects. -/
def execMovxwLong (f : LongFields) (s : State) : Host.Outcome State Fault Refusal := s.pureOp .movxw f (fun a _ _ => a)

/-! ### Reductions and scans (R183; 05 R126, R127) -/

/-- Is a type of a reduction a floating one? -/
def floatReduce (t : Nat) : Bool := t = 9 || t = 10

/-- The operation that the low three bits of SUB select (R183). -/
def combine (sub t rnd : Nat) (a b : DWord) : DWord × Flags :=
  let w := typeBits t
  let sg := typeSigned t
  let k := floatFormat t
  match sub with
  | 0 => if floatReduce t then asLane (k.add rnd a.toNat b.toNat) else (intResult w sg false (intOf w sg a + intOf w sg b), 0)
  | 1 =>
    if floatReduce t then asLane (k.minMax false a.toNat b.toNat)
    else (intResult w sg false (min (intOf w sg a) (intOf w sg b)), 0)
  | 2 =>
    if floatReduce t then asLane (k.minMax true a.toNat b.toNat)
    else (intResult w sg false (max (intOf w sg a) (intOf w sg b)), 0)
  | 3 => (a &&& b, 0)
  | 4 => (a ||| b, 0)
  | _ => (a ^^^ b, 0)

/-- The identity of the operation (R183). -/
def identity (sub t : Nat) : DWord :=
  let w := typeBits t
  let sg := typeSigned t
  let k := floatFormat t
  match sub with
  | 0 => if floatReduce t then num64 k.signBit else 0
  | 1 => if floatReduce t then num64 (k.inf false) else bitsOfInt w (typeMax w sg)
  | 2 => if floatReduce t then num64 (k.inf true) else bitsOfInt w (typeMin w sg)
  | 3 => num64 (2 ^ w - 1)
  | _ => 0

/-- One level of the tree of 05 R126, with the flags of its nodes. -/
def treeLevel (op : DWord → DWord → DWord × Flags) (xs : List DWord) : List DWord × Flags :=
  match xs with
  | a :: b :: rest =>
    let r := op a b
    let t := treeLevel op rest
    (r.1 :: t.1, r.2 ||| t.2)
  | xs => (xs, 0)

/-- Levels of the tree: the list that is left, and the flags of every node. -/
def treeReduce (op : DWord → DWord → DWord × Flags) (levels : Nat) (xs : List DWord) : List DWord × Flags :=
  match levels with
  | 0 => (xs, 0)
  | n + 1 =>
    let t := treeLevel op xs
    let u := treeReduce op n t.1
    (u.1, t.2 ||| u.2)

/-- One step of the segmented scan, for distance `d` (R183): each lane has its value and its segment bit. -/
def scanStep (op : DWord → DWord → DWord × Flags) (d : Nat) (y : List (DWord × Bool)) : List (DWord × Bool) × Flags :=
  let at_ (l : Nat) : DWord × Bool := y.getD l (0, false)
  let node (l : Nat) : (DWord × Bool) × Flags :=
    if d ≤ l then
      let r := if (at_ l).2 then ((at_ l).1, 0) else op (at_ (l - d)).1 (at_ l).1
      ((r.1, (at_ l).2 || (at_ (l - d)).2), r.2)
    else (at_ l, 0)
  let out := (List.range 32).map node
  (out.map (·.1), out.foldl (fun acc x => acc ||| x.2) 0)

/-- The scan's steps for the distances given. -/
def scanSteps (op : DWord → DWord → DWord × Flags) (ds : List Nat) (y : List (DWord × Bool)) : List (DWord × Bool) × Flags :=
  match ds with
  | [] => (y, 0)
  | d :: rest =>
    let a := scanStep op d y
    let b := scanSteps op rest a.1
    (b.1, a.2 ||| b.2)

/-- The source of a reduction: A in the lanes of Active(), the identity elsewhere. -/
def Issue.reduceSource (x : Issue) (sub t : Nat) : List DWord :=
  (List.range 32).map (fun l => if x.lanes.lane l then laneVal x.a l else identity sub t)

/-- The flags of a reduction or scan go to every lane of Active(), which U = 1 makes all 32 (R183; DEDUCED, log entry 21). -/
def Issue.reduceFlags (x : Issue) (flags : Flags) : Issue := x.withFlags x.lanes (List.replicate 32 flags)

/-- xred (R183). -/
def State.xred (s : State) (f : LongFields) : Host.Outcome State Fault Refusal :=
  s.finish (do
    let x ← s.prepare .xred f
    let r := treeReduce (combine f.sub f.ty f.rnd) 5 (x.reduceSource f.sub f.ty)
    return (x.reduceFlags r.2).finish .xred f (wordsOfLanes (resultWords .xred f) (fun _ => r.1.headD 0)))

/-- xscan (R183): SUB bit 3 makes it exclusive. -/
def State.xscan (s : State) (f : LongFields) : Host.Outcome State Fault Refusal :=
  s.finish (do
    let x ← s.prepare .xscan f
    let sub := f.sub % 8
    let head : Mask := (x.b.getD 0 Lanes.zero).at' 0
    let id := identity sub f.ty
    let y := x.reduceSource sub f.ty
    let y := if 8 ≤ f.sub then
        (List.range 32).map (fun l => if l = 0 || head.lane l then id else y.getD (l - 1) 0)
      else y
    let r := scanSteps (combine sub f.ty f.rnd) [1, 2, 4, 8, 16] (y.zip ((List.range 32).map head.lane))
    return (x.reduceFlags r.2).finish .xscan f
      (wordsOfLanes (resultWords .xscan f) (fun l => (r.1.getD l (0, false)).1)))

/-- xred, short (R183). -/
def execXredShort (f : ShortFields) (s : State) : Host.Outcome State Fault Refusal := s.xred (f.widen .xred)
/-- xred (R183). -/
def execXredLong (f : LongFields) (s : State) : Host.Outcome State Fault Refusal := s.xred f

/-- xscan, short (R183). -/
def execXscanShort (f : ShortFields) (s : State) : Host.Outcome State Fault Refusal := s.xscan (f.widen .xscan)
/-- xscan (R183). -/
def execXscanLong (f : LongFields) (s : State) : Host.Outcome State Fault Refusal := s.xscan f

/-! ### Exchanges (R184) -/

/-- An instruction whose result in a lane is a function of the whole sources. -/
def State.exchange (s : State) (op : Op) (f : LongFields) (g : Issue → Nat → DWord) : Host.Outcome State Fault Refusal :=
  s.finish (do
    let x ← s.prepare op f
    return x.laneResult op f (fun l => (g x l, 0)))

/-- Bits [4:0] of B in a lane: a lane number. -/
def Issue.laneB (x : Issue) (l : Nat) : Nat := ((x.b.getD 0 Lanes.zero).at' l).toNat % 32

/-- xshf by SUB: pick, scat, slide, swap (R184). -/
def Issue.xshf (x : Issue) (sub l : Nat) : DWord :=
  match sub with
  | 0 => laneVal x.a (x.laneB l)
  | 1 => laneVal x.a (((x.lanes.lanes.filter (fun k => x.laneB k = l)).getLast?).getD l)
  | 2 =>
    let j : Int := (l : Int) + (BitVec.ofNat 6 ((x.b.getD 0 Lanes.zero).at' l).toNat).toInt
    if 0 ≤ j && j ≤ 31 then laneVal x.a j.toNat else 0
  | _ => laneVal x.a (l ^^^ x.laneB l)

/-- xshf, short (R184). -/
def execXshfShort (f : ShortFields) (s : State) : Host.Outcome State Fault Refusal :=
  s.exchange .xshf (f.widen .xshf) (fun x l => x.xshf (f.widen .xshf).sub l)
/-- xshf (R184). -/
def execXshfLong (f : LongFields) (s : State) : Host.Outcome State Fault Refusal :=
  s.exchange .xshf f (fun x l => x.xshf f.sub l)

/-- xrot: lane (l + B) mod 32 (R184). -/
def Issue.xrot (x : Issue) (l : Nat) : DWord := laneVal x.a ((l + x.laneB l) % 32)

/-- xrot, short (R184). -/
def execXrotShort (f : ShortFields) (s : State) : Host.Outcome State Fault Refusal :=
  s.exchange .xrot (f.widen .xrot) Issue.xrot
/-- xrot (R184). -/
def execXrotLong (f : LongFields) (s : State) : Host.Outcome State Fault Refusal := s.exchange .xrot f Issue.xrot

/-- xread: the lane that B names (R184). -/
def Issue.xread (x : Issue) (_ : Nat) : DWord := laneVal x.a (x.laneB 0)

/-- xread, short (R184). -/
def execXreadShort (f : ShortFields) (s : State) : Host.Outcome State Fault Refusal :=
  s.exchange .xread (f.widen .xread) Issue.xread
/-- xread (R184). -/
def execXreadLong (f : LongFields) (s : State) : Host.Outcome State Fault Refusal := s.exchange .xread f Issue.xread

/-- xfirst by SUB: the value or the number of the lowest lane of Active() (R184). -/
def Issue.xfirst (x : Issue) (sub : Nat) : DWord :=
  let l := x.lanes.lowest.getD 0
  if sub = 1 then num64 l else laneVal x.a l

/-- xfirst, short (R184). -/
def execXfirstShort (f : ShortFields) (s : State) : Host.Outcome State Fault Refusal :=
  s.exchange .xfirst (f.widen .xfirst) (fun x _ => x.xfirst (f.widen .xfirst).sub)
/-- xfirst (R184). -/
def execXfirstLong (f : LongFields) (s : State) : Host.Outcome State Fault Refusal :=
  s.exchange .xfirst f (fun x _ => x.xfirst f.sub)

/-- The mask of the lanes of Active() that a test picks. -/
def Issue.lanesWhere (x : Issue) (p : Nat → Bool) : Mask := Mask.ofFn (fun l => x.lanes.lane l && p l)

/-- xmatch: the lanes of Active() with an equal value (R184). -/
def Issue.xmatch (x : Issue) (l : Nat) : DWord :=
  (x.lanesWhere (fun k => laneVal x.a k = laneVal x.a l)).setWidth 64

/-- xmatch, short (R184). -/
def execXmatchShort (f : ShortFields) (s : State) : Host.Outcome State Fault Refusal :=
  s.exchange .xmatch (f.widen .xmatch) Issue.xmatch
/-- xmatch (R184). -/
def execXmatchLong (f : LongFields) (s : State) : Host.Outcome State Fault Refusal := s.exchange .xmatch f Issue.xmatch

/-- xbal by SUB: the mask of the lanes of Active() whose source is not 0, or their number (R184). -/
def Issue.xbal (x : Issue) (sub : Nat) : DWord :=
  let m := x.lanesWhere (fun k => laneVal x.a k ≠ 0)
  if sub = 1 then num64 m.lanes.length else m.setWidth 64

/-- xbal, short (R184). -/
def execXbalShort (f : ShortFields) (s : State) : Host.Outcome State Fault Refusal :=
  s.exchange .xbal (f.widen .xbal) (fun x _ => x.xbal (f.widen .xbal).sub)
/-- xbal (R184). -/
def execXbalLong (f : LongFields) (s : State) : Host.Outcome State Fault Refusal :=
  s.exchange .xbal f (fun x _ => x.xbal f.sub)

/-- xwrite, short (R184): its lane is in the destination's mask. -/
def execXwriteShort (f : ShortFields) (s : State) : Host.Outcome State Fault Refusal :=
  s.exchange .xwrite (f.widen .xwrite) (fun x l => laneVal x.a l)
/-- xwrite (R184): its lane is in the destination's mask. -/
def execXwriteLong (f : LongFields) (s : State) : Host.Outcome State Fault Refusal :=
  s.exchange .xwrite f (fun x l => laneVal x.a l)

/-! ### Predicates, footprint and early free (R185, R186) -/

/-- movp by SUB: all seven predicates, or one (R185). -/
def State.movp (s : State) (f : LongFields) : Host.Outcome State Fault Refusal :=
  s.finish (do
    let x ← s.prepare .movp f
    let val (l : Nat) : Word := (x.a.getD 0 Lanes.zero).at' l
    let x := if f.sub = 1 then x.putPred f.pd (fun l => val l ≠ 0)
      else (List.range 7).foldl (fun x i => x.putPred i (fun l => (val l).getLsbD i)) x
    return x.finishPlain)

/-- movp, short (R185). -/
def execMovpShort (f : ShortFields) (s : State) : Host.Outcome State Fault Refusal := s.movp (f.widen .movp)
/-- movp (R185). -/
def execMovpLong (f : LongFields) (s : State) : Host.Outcome State Fault Refusal := s.movp f

/-- foot: sr.foot as of its issue (R186). -/
def State.footOp (s : State) (f : LongFields) : Host.Outcome State Fault Refusal :=
  s.finish (do
    let x ← s.prepare .foot f
    return x.finish .foot f [Lanes.splat (x.s.footValue x.s.issuing)])

/-- foot, short (R186). -/
def execFootShort (f : ShortFields) (s : State) : Host.Outcome State Fault Refusal := s.footOp (f.widen .foot)
/-- foot (R186). -/
def execFootLong (f : LongFields) (s : State) : Host.Outcome State Fault Refusal := s.footOp f

/-- kill: the range is freed (R186). -/
def State.killOp (s : State) (f : LongFields) : Host.Outcome State Fault Refusal :=
  s.finish (do
    let x ← s.prepare .kill f
    return { x with s := x.s.modSelf (fun g => (killRange f).foldl Group.free g) }.finishPlain)

/-- kill, short (R186). -/
def execKillShort (f : ShortFields) (s : State) : Host.Outcome State Fault Refusal := s.killOp (f.widen .kill)
/-- kill (R186). -/
def execKillLong (f : LongFields) (s : State) : Host.Outcome State Fault Refusal := s.killOp f

end Sys2Proof.Machine
end

