-- ==== Sys2Proof/Machine/Bfx.lean ====
section
/-! DEFINITION. The block formats BFX8 and BFX4 (05 R117, R119; 08 R189). -/

namespace Sys2Proof.Machine

/-- A block format: the bits of m, log2 of F, MMAX and GAP (R117, R119). -/
structure BlockFormat where
  mbits : Nat
  scale : Nat
  mmax : Nat
  gap : Nat
  deriving DecidableEq, Repr

/-- bfx8 (type 13) and bfx4 (type 14). -/
def blockFormat (t : Nat) : BlockFormat := if t = 13 then ⟨6, 5, 63, 3⟩ else ⟨2, 1, 3, 2⟩

/-- An element of a block: its selector, its sign and m. -/
structure BlockElem where
  sel : Bool
  neg : Bool
  m : Nat
  deriving DecidableEq, Repr

/-- The element as bits (R117). -/
def BlockFormat.bits (k : BlockFormat) (x : BlockElem) : Nat :=
  x.sel.toNat * 2 ^ (k.mbits + 1) + x.neg.toNat * 2 ^ k.mbits + x.m

/-- The element that bits hold. -/
def BlockFormat.elem (k : BlockFormat) (b : Nat) : BlockElem :=
  { sel := b.testBit (k.mbits + 1), neg := b.testBit k.mbits, m := b % 2 ^ k.mbits }

/-- The value of an element under the exponents of its block (R117). -/
def BlockFormat.value (k : BlockFormat) (x : BlockElem) (e0 e1 : Nat) : Real :=
  let e := if x.sel then e1 else e0
  if e = 0xFF then if x.m = 0 then .inf x.neg else .nan false
  else .fin x.neg x.m ((e : Int) - 127 - k.scale)

/-- A block as R119 encodes it: the exponents, and each element with its flags. -/
structure Block where
  e0 : Nat
  e1 : Nat
  elems : List (BlockElem × Flags)
  deriving DecidableEq, Repr

/-- Is the value a NaN or an infinity? -/
def Real.isSpecial (x : Real) : Bool :=
  match x with
  | .fin _ _ _ => false
  | _ => true

/-- Is one finite magnitude smaller than another? -/
def Real.smaller (x y : Real) : Bool :=
  match x, y with
  | .fin _ m e, .fin _ n f => (Real.fin false m e).cmp (.fin false n f) < 0
  | _, _ => false

/-- The largest finite magnitude of a list, or 0 (R119). -/
def largestOf (xs : List Real) : Real :=
  xs.foldl (fun acc x => if acc.smaller x then x else acc) (.fin false 0 0)

/-- Round(|x| × F / 2^(E − 127), mode) and whether it is exact (R119). -/
def BlockFormat.scaled (k : BlockFormat) (rnd : Nat) (x : Real) (e : Nat) : Nat × Bool :=
  match x with
  | .fin _ m f =>
    let g := f + k.scale - ((e : Int) - 127)
    (roundAt rnd false m g 0, (splitAt m g 0).2 = 0)
  | _ => (0, true)

/-- The exponent e1 of R119, from the largest finite magnitude. -/
def BlockFormat.topExp (k : BlockFormat) (rnd : Nat) (big : Real) : Nat :=
  match big with
  | .fin _ m e =>
    if m = 0 then 0
    else
      let e1 := (satInt ((Nat.log2 m : Int) + e + 127) 0 254).toNat
      if e1 < 254 && k.mmax < (k.scaled rnd big e1).1 then e1 + 1 else e1
  | _ => 0

/-- One element and its flags (R119). -/
def BlockFormat.encodeElem (k : BlockFormat) (rnd : Nat) (special : Bool) (e0 e1 : Nat) (x : Real) : BlockElem × Flags :=
  match x with
  | .inf neg => (⟨true, neg, 0⟩, 0)
  | .nan s => (⟨true, false, 1⟩, if s then flagNV else 0)
  | .fin neg m _ =>
    let k0 := k.scaled rnd x e0
    let low := special || k0.1 ≤ k.mmax
    let r := if low then k0 else k.scaled rnd x e1
    let sat := k.mmax < r.1
    let v := min r.1 k.mmax
    let flags : Flags :=
      (if sat then flagOF ||| flagNX else 0) ||| (if !r.2 then flagNX else 0)
        ||| (if v = 0 && m ≠ 0 then flagUF ||| flagNX else 0)
    (⟨!low, neg, v⟩, flags)

/-- A block of values encoded (R119); `rnd` is 0 for rne and 1 for rz. -/
def BlockFormat.encode (k : BlockFormat) (rnd : Nat) (xs : List Real) : Block :=
  let special := xs.any Real.isSpecial
  let e := k.topExp rnd (largestOf xs)
  let e1 := if special then 0xFF else e
  let e0 := if special then e else e - k.gap
  { e0 := e0, e1 := e1, elems := xs.map (k.encodeElem rnd special e0 e1) }

/-- An element with its block's exponents in a register (08 R189). -/
def BlockFormat.lane (k : BlockFormat) (b : Block) (x : BlockElem) : Nat := k.bits x + b.e0 * 2 ^ 16 + b.e1 * 2 ^ 24

end Sys2Proof.Machine
end

