-- ==== Sys2Proof/Machine/DrainProgram.lean ====
section
/-! DEFINITION. Drain programs: micro-instructions, their check, and what a row of a tile becomes (14 R329-R335; 05
R124). -/

namespace Sys2Proof.Machine

/-! ### Micro-instructions (R330, R331) -/

/-- The fields of a micro-instruction (R330). -/
structure Micro where
  opc : Nat
  d : Nat
  s1 : Nat
  s2 : Nat
  s3 : Nat
  mode : Nat
  deriving DecidableEq, Repr

/-- The micro-instruction that a word holds. -/
def microOf (w : Word) : Micro :=
  let x := w.toNat
  { opc := bits x 31 27, d := bits x 26 24, s1 := bits x 23 19, s2 := bits x 18 14, s3 := bits x 13 9, mode := bits x 8 0 }

/-- Which of D, S1, S2 and S3 an operation uses; S2 of dst names its constant. None for a reserved OPC. -/
def Micro.uses (m : Micro) : Option (Bool × Bool × Bool × Bool) :=
  match m.opc with
  | 0 => some (false, false, false, false)
  | 1 | 7 | 14 | 15 => some (true, true, false, false)
  | 2 | 3 | 5 | 6 | 10 | 11 | 12 => some (true, true, true, false)
  | 4 | 8 | 9 | 13 => some (true, true, true, true)
  | 16 => some (false, true, true, false)
  | 17 => some (false, true, false, false)
  | _ => none

/-- The types that ldres and dst accept (R334). -/
def drainTypes : List Nat := [7, 8, 5, 6, 11, 12, 1, 2, 9, 15]

/-- Is MODE accepted (R331, R333, R334)? -/
def Micro.modeOk (m : Micro) : Bool :=
  match m.opc with
  | 7 | 13 => m.mode < 2
  | 14 =>
    let dst := m.mode % 16
    m.mode < 32 && [7, 8, 5, 1, 11, 12, 9, 13, 14].contains dst && m.mode ≠ 17 && m.mode ≠ 9
  | 15 | 16 => drainTypes.contains m.mode
  | 17 => (13 :: 14 :: drainTypes).contains m.mode
  | _ => m.mode = 0

/-- A source code that is not reserved, and a register code that is not. -/
def drainSource (n : Nat) : Bool := n ≤ 4 || (8 ≤ n && n ≤ 28)
def drainReg (n : Nat) : Bool := n ≤ 4

/-- Is a micro-instruction within R330 to R334? -/
def Micro.valid (m : Micro) : Bool :=
  match m.uses with
  | none => false
  | some (d, a, b, c) =>
    (if d then drainReg m.d else m.d = 0) && (if a then drainSource m.s1 else m.s1 = 0)
      && (if b then drainSource m.s2 else m.s2 = 0) && (if c then drainSource m.s3 else m.s3 = 0)
      && m.modeOk && (m.opc ≠ 16 || m.s2 = 24 || m.s2 = 26)

/-- The check of a latched program as a whole (R335). -/
def programOk (program : List Word) (ne : Nat) (ring : Bool) : Bool :=
  let ms := program.map microOf
  let once (opc : Nat) : Bool := (ms.filter (fun m => m.opc = opc)).length ≤ 1
  ms.all Micro.valid && once 15 && once 16 && once 17
    && (ne % 32 = 0 || !ms.any (fun m => m.opc = 14 && blockType (m.mode % 16)))
    && (ring || !ms.any (fun m => m.opc = 17))

/-- The type that a program's dstr appends, if it holds one. -/
def dstrType (program : List Word) : Option Nat :=
  ((program.map microOf).find? (fun m => m.opc = 17)).map (fun m => m.mode % 16)

/-- The element bytes of a dstr image, and L_D (R334). -/
def dstrData (ty me ne : Nat) : Nat := (me * ne * elementBits ty + 7) / 8
def dstrBytes (ty me ne : Nat) : Nat :=
  let n := me * ne
  (2 * n * elementBits ty + (if blockType ty then n else 0) + 2047) / 2048 * 128

/-- What a program appends for an ME × NE tile (R317, R339). -/
def appends (program : List Word) (me ne : Nat) : Nat :=
  match dstrType program with
  | some ty => dstrBytes ty me ne
  | none => 0

/-! ### Operations on one element (R331-R333) -/

/-- A result of a 32-bit floating operation. -/
def drainFloat (r : Nat × Flags) : Word × Flags := (BitVec.ofNat 32 r.1, r.2)

/-- An s32 result, saturated. -/
def drainInt (x : Int) : Word × Flags := (BitVec.ofInt 32 (satInt x (-2147483648) 2147483647), 0)

/-- lut (R332): the table holds Y_k and S_k alternately. -/
def drainLut (table : List Word) (a b c : Word) : Word × Flags :=
  let u := f32Format.fma 1 a.toNat b.toNat c.toNat
  let at_ (k : Nat) (f : Real) : Word × Flags :=
    let y := f32Format.value (table.getD (2 * k) 0).toNat
    let s := f32Format.value (table.getD (2 * k + 1) 0).toNat
    let r := f32Format.sum 1 [some y, f.mul s] false
    (BitVec.ofNat 32 r.1, u.2 ||| r.2)
  match f32Format.value u.1 with
  | .nan _ => (0x7FC00000, u.2)
  | .inf neg => at_ (if neg then 0 else 255) (.fin false 0 0)
  | .fin neg m e =>
    if neg || m = 0 then at_ 0 (.fin false 0 0)
    else
      let k := (splitAt m e 0).1
      if 255 ≤ k then at_ 255 (.fin false 0 0)
      else if 0 ≤ e then at_ k (.fin false 0 0)
      else at_ k (.fin false (m % 2 ^ (-e).toNat) e)

/-- cvt to a type that is no block type (R333): an integer result is extended to 32 bits. An s32 source raises the flags of
R121 where the destination is a floating type (DEDUCED, log entry 82). -/
def drainConvert (mode : Nat) (a : Word) : Word × Flags :=
  let dst := mode % 16
  let fromInt := 16 ≤ mode
  let x : Real := if fromInt then realOfInt a.toInt else f32Format.value a.toNat
  if floatType dst then drainFloat ((floatFormat dst).ofReal 1 x)
  else
    let w := typeBits dst
    let r := intOfReal w (typeSigned dst) 1 x
    (BitVec.ofInt 32 r.1, if fromInt then 0 else r.2)

/-- An operation on the values of its sources; the memory operations and the block conversions are apart. -/
def drainOp (table : List Word) (m : Micro) (a b c : Word) : Word × Flags :=
  match m.opc with
  | 1 => (a, 0)
  | 2 => drainFloat (f32Format.add 1 a.toNat b.toNat)
  | 3 => drainFloat (f32Format.mul 1 a.toNat b.toNat)
  | 4 => drainFloat (f32Format.fma 1 a.toNat b.toNat c.toNat)
  | 5 => drainFloat (f32Format.minMax false a.toNat b.toNat)
  | 6 => drainFloat (f32Format.minMax true a.toNat b.toNat)
  | 7 => if m.mode = 1 then drainInt (max a.toInt 0) else drainFloat (f32Format.minMax true a.toNat 0)
  | 8 => (if a.msb then c else b, 0)
  | 9 => drainLut table a b c
  | 10 => drainInt (a.toInt + b.toInt)
  | 11 => drainInt (Int.tdiv (a.toInt * b.toInt) (2 ^ 31))
  | 12 => drainInt (Int.tdiv a.toInt (2 ^ min b.toNat 31))
  | 13 =>
    if m.mode = 1 then drainInt (min (max a.toInt b.toInt) c.toInt)
    else
      let x := f32Format.minMax true a.toNat b.toNat
      let y := f32Format.minMax false x.1 c.toNat
      (BitVec.ofNat 32 y.1, x.2 ||| y.2)
  | 14 => drainConvert m.mode a
  | _ => (0, 0)

/-- cvt of a row to a block type: each half-row is one block (R333), in the layout of 08 R189. -/
def drainBlocks (mode : Nat) (xs : List Word) : List (Word × Flags) :=
  let k := blockFormat (mode % 16)
  let value (a : Word) : Real := if 16 ≤ mode then realOfInt a.toInt else f32Format.value a.toNat
  let half (ys : List Word) : List (Word × Flags) :=
    if ys = [] then []
    else
      let b := k.encode 1 (ys.map value)
      b.elems.map (fun e => (BitVec.ofNat 32 (k.lane b e.1), e.2))
  half (xs.take 32) ++ half (xs.drop 32)

/-- What ldres delivers from the bytes of its type (R334). -/
def ldresValue (ty : Nat) (x : Nat) : Word × Flags :=
  if ty = 11 || ty = 12 then drainFloat (f32Format.ofReal 1 ((floatFormat ty).value x))
  else (BitVec.ofInt 32 (intOf (typeBits ty) (typeSigned ty) (BitVec.ofNat 64 x)), 0)

/-! ### A row (R329) -/

/-- A row on its way through the stages: a and d0 to d3 for each column, its flags, the write of its dst and the elements
of its dstr. -/
structure DrainRow where
  regs : List (List Word)
  flags : Flags
  dst : Option (DWord × List Byte)
  dstr : Option (List Word)
  deriving DecidableEq, Repr

/-- The values of a source code in a row (R330). -/
def DrainRow.source (x : DrainRow) (l : Latched) (row ne code : Nat) : List Word :=
  if code ≤ 4 then x.regs.getD code []
  else if code < 24 then (List.range ne).map (fun j => l.cols.getD (64 * (code - 8) + j) 0)
  else if code < 28 then List.replicate ne (l.rows.getD (64 * (code - 24) + row) 0)
  else List.replicate ne 0

/-- A row with the results of a micro-instruction. -/
def DrainRow.put (x : DrainRow) (m : Micro) (rs : List (Word × Flags)) : DrainRow :=
  { x with regs := x.regs.set m.d (rs.map (·.1)), flags := rs.foldl (fun acc r => acc ||| r.2) x.flags }

/-- One stage of a row; a fault is the offset at which an ldres leaves the allocation (R341). -/
def DrainRow.stage (x : DrainRow) (l : Latched) (row ne scratchBytes : Nat) (scratch : Nat → Byte) (m : Micro) :
    Except Nat DrainRow :=
  let a := x.source l row ne m.s1
  let b := x.source l row ne m.s2
  let c := x.source l row ne m.s3
  match m.opc with
  | 0 => .ok x
  | 15 =>
    let size := typeBits m.mode / 8
    let offs := ((List.range ne).zip a).map (fun ja => ja.2.toNat + ja.1 * size)
    match offs.find? (fun o => scratchBytes < o + size) with
    | some o => .error o
    | none =>
      .ok (x.put m (offs.map (fun o => ldresValue m.mode (numOfBytes ((List.range size).map (fun i => scratch (o + i)))))))
  | 16 =>
    let n := m.s2 - 24
    let addr := l.rows.getD (64 * (n + 1) + row) 0 ++ l.rows.getD (64 * n + row) 0
    .ok { x with dst := some (addr, a.flatMap (fun w => bytesOfNum (typeBits m.mode / 8) w.toNat)) }
  | 17 => .ok { x with dstr := some a }
  | 14 =>
    if blockType (m.mode % 16) then .ok (x.put m (drainBlocks m.mode a))
    else .ok (x.put m (a.map (fun w => drainOp l.table m w 0 0)))
  | _ => .ok (x.put m ((a.zip (b.zip c)).map (fun w => drainOp l.table m w.1 w.2.1 w.2.2)))

/-- A row of a bank through the twelve stages. -/
def drainRow (l : Latched) (row ne scratchBytes : Nat) (scratch : Nat → Byte) (elems : List Word) : Except Nat DrainRow :=
  let zeros := List.replicate ne (0 : Word)
  l.program.foldlM (fun x w => x.stage l row ne scratchBytes scratch (microOf w))
    { regs := [elems, zeros, zeros, zeros, zeros], flags := 0, dst := none, dstr := none }

end Sys2Proof.Machine
end

