-- ==== Sys2Proof/Machine/Matrix.lean ====
section
/-! DEFINITION. The matrix engine: the baton, its queue and commands, the product, mwait and the governor (13; 05 R122,
R123). -/

namespace Sys2Proof.Machine

/-! ### The product (R313-R316; 05 R122, R123) -/

/-- P of a type (R313). -/
def macRate (ty : Nat) : Nat := if ty = 13 || ty = 7 || ty = 8 then 2 else if ty = 14 then 4 else 1

/-- Is a type an 8-bit integer? -/
def intType8 (ty : Nat) : Bool := ty = 7 || ty = 8

/-- The bits of the element `e` of a packed run of elements. -/
def packedElem (bits : Nat) (byte : Nat → Byte) (e : Nat) : Nat :=
  if bits = 4 then (byte (e / 2)).toNat / 16 ^ (e % 2) % 16
  else numOfBytes ((List.range (bits / 8)).map (fun i => byte (bits / 8 * e + i)))

/-- A matrix operand's element: its bits and the exponents of its block. -/
abbrev MatrixElem := Nat × Nat × Nat

/-- The value of an element of a floating or block type (05 R114, R117). -/
def matrixReal (ty : Nat) (x : MatrixElem) : Real :=
  if blockType ty then (blockFormat ty).value ((blockFormat ty).elem x.1) x.2.1 x.2.2 else (floatFormat ty).value x.1

/-- The value of an element of an integer type (05 R113). -/
def matrixInt (ty : Nat) (x : MatrixElem) : Int := intOf 8 (ty = 7) (BitVec.ofNat 64 x.1)

/-- L_A (R314): also the length of any image of `n` elements of a type. -/
def imageBytes (ty n : Nat) : Nat := n * elementBits ty / 8 + if blockType ty then n / 16 else 0

/-- EP (R315). -/
def exponentPlane (ty k : Nat) : Nat := (k * elementBits ty + 1023) / 1024 * 128

/-- Element (i, k) of A, from an image (R314). -/
def elemA (c : MatrixCommand) (image : Nat → Byte) (i k : Nat) : MatrixElem :=
  let e := c.k * i + k
  let x := c.me * c.k * elementBits c.aType / 8 + 2 * (e / 32)
  (packedElem (elementBits c.aType) image e, (image x).toNat, (image (x + 1)).toNat)

/-- Element (k, j) of B, from slice j (R315). -/
def elemB (c : MatrixCommand) (slice : Nat → Byte) (k : Nat) : MatrixElem :=
  let x := c.ob + exponentPlane c.bType c.k + 2 * k
  (packedElem (elementBits c.bType) (fun y => slice (c.ob + y)) k, (slice x).toNat, (slice (x + 1)).toNat)

/-- The values of k that step `t` sums. -/
def stepRange (c : MatrixCommand) (t : Nat) : List Nat :=
  let p := macRate c.aType
  (List.range (min p (c.k - p * t))).map (fun i => p * t + i)

/-- The steps of a product. -/
def MatrixCommand.stepCount (c : MatrixCommand) : Nat := (c.k + macRate c.aType - 1) / macRate c.aType

/-- StepF over a whole element (05 R122). -/
def productFloat (c : MatrixCommand) (a b : Nat → MatrixElem) (acc : Word) : Word × Flags :=
  let r := (List.range c.stepCount).foldl (fun (st : Nat × Flags) t =>
    let terms := (stepRange c t).map (fun k => (matrixReal c.aType (a k)).mul (matrixReal c.bType (b k)))
    let x := f32Format.sum 0 (some (f32Format.value st.1) :: terms) false
    (x.1, st.2 ||| x.2)) (acc.toNat, 0)
  (BitVec.ofNat 32 r.1, r.2)

/-- StepI over a whole element (05 R123). -/
def productInt (c : MatrixCommand) (a b : Nat → MatrixElem) (acc : Word) : Word × Flags :=
  ((List.range c.stepCount).foldl (fun (acc : Word) t =>
    let x := (stepRange c t).foldl (fun s k => s + matrixInt c.aType (a k) * matrixInt c.bType (b k)) acc.toInt
    BitVec.ofInt 32 (if c.sat then satInt x (-2147483648) 2147483647 else x)) acc, 0)

/-- The window offset of element (i, j) of a bank (01 R23). -/
def bankOffset (bank i j : Nat) : Nat := 0x02000000 + bank * 0x4000 + 4 * (64 * i + j)

/-- The window offset of byte `b` of slice `j` (R305). -/
def sliceOffset (j b : Nat) : Nat := 0x01000000 + j * 0x10000 + b

/-- The elements of an mma's product by window offset, with the flags of all its steps (R316). -/
def Core.product (k : Core) (x : Ring) (c : MatrixCommand) : List (Nat × Word) × Flags :=
  let image (y : Nat) : Byte := k.ringByte x (x.cons + BitVec.ofNat 32 y)
  let slice (j y : Nat) : Byte := Memory.read k.win (sliceOffset j y)
  let cells := (List.range c.me).flatMap (fun i => (List.range c.ne).map (fun j => (i, j)))
  let all := cells.map (fun ij =>
    let off := bankOffset c.bank ij.1 ij.2
    let acc := if c.zero then 0 else BitVec.ofNat 32 (k.readWin off 4)
    let go := if intType8 c.aType then productInt else productFloat
    let r := go c (elemA c image ij.1) (elemB c (slice ij.2)) acc
    ((off, r.1), r.2))
  (all.map (·.1), all.foldl (fun acc r => acc ||| r.2) 0)

/-! ### The queue (R307, R317-R320) -/

/-- The core's matrix queue changed. -/
def State.modMatrix (s : State) (core : Nat) (f : List MatrixCommand → List MatrixCommand) : State :=
  s.modCore core (fun k => { k with matrix := { k.matrix with queue := f k.matrix.queue } })

/-- Does an earlier drain of the command's bank still read it, or is one held (R317)? -/
def Core.bankBusy (k : Core) (c : MatrixCommand) : Bool :=
  k.drain.any (fun e =>
    e.op = .drain && e.bank = c.bank && !e.after.contains c.id
      && !(e.latched.isSome && e.held.isNone && e.me ≤ e.row))

/-- The program that a drain slot holds. -/
def Core.slotProgram (k : Core) (slot : Nat) : List Word :=
  (List.range 12).map (fun t => BitVec.ofNat 32 (k.readWin (0x04000000 + 64 * slot + 4 * t) 4))

/-- The bytes that an mma reserves in its output ring (R317): none when the program holds no dstr, or more than the ring
holds (R339). -/
def Core.outputBytes (k : Core) (c : MatrixCommand) : Nat :=
  match c.oRing.bind (Table.find k.rings) with
  | none => 0
  | some x =>
    let n := appends (k.slotProgram c.dslot) c.me c.ne
    if x.size < n then 0 else n

/-- May the mma at the head of the queue fire (R317)? -/
def State.mayFire (s : State) (core : Nat) (c : MatrixCommand) : Bool :=
  let k := s.core core
  let la := imageBytes c.aType (c.me * c.k)
  let ring (n : Nat) : Ring := (s.ring? core n).getD ⟨0, 0, 0, 0, []⟩
  la ≤ (ring c.aRing).occupancy && !k.bankBusy c && (!c.dr || k.drain.length < 8)
    && (match c.oRing with
        | some n => k.outputBytes c + (ring n).held ≤ (ring n).room
        | none => true)

/-- The drain-queue entry of an automatic drain, reserved at the firing of its mma (R317, R318). -/
def autoDrain (c : MatrixCommand) (image : Option (Word × Nat)) : DrainCommand :=
  { id := c.id, op := .drain, team := c.team, slot := c.slot, ctx := c.ctx, user := c.user, berth := c.berth
    teamBerth := c.teamBerth, bank := c.bank, sel := c.dslot, me := c.me, ne := c.ne, ring := c.oRing
    teamRing := c.teamRing, p := 0, scratchBase := c.scratchBase, scratchBytes := c.scratchBytes, auto := true
    after := [], ready := false, latched := none, row := 0, stored := 0, image := image, flags := 0, held := none, resumed := false
    cause := 0, bad := false, mmaBad := false }

/-- The matrix event of a core, with the same event due again while the queue holds a command of its kind that has not
begun. -/
def State.matrixAgain (s : State) (core : Nat) (p : MatrixCommand → Bool) (again : Instr) : State :=
  if (s.core core).matrix.queue.any (fun c => p c && !c.fired) then s.due [again] else s

/-- The mma at the head of the queue fires (R317): its operands are read, cons advances, and its drain entry and output
bytes are reserved. -/
def State.mmaFire (s : State) (core : Nat) : State :=
  let again := Instr.mmaFire (Fin.ofNat 384 core)
  match (s.core core).matrix.queue with
  | [] => s
  | c :: _ =>
    if c.op ≠ .mma || c.fired || !s.mayFire core c then s.matrixAgain core (fun c => c.op = .mma) again
    else
      let x := (s.ring? core c.aRing).getD ⟨0, 0, 0, 0, []⟩
      let p := (s.core core).product x c
      let la := imageBytes c.aType (c.me * c.k)
      let n := (s.core core).outputBytes c
      let s := s.modRing core c.aRing (fun x => { x with cons := x.cons + BitVec.ofNat 32 la })
      let got := if n = 0 then none else c.oRing.bind (fun r => s.reserveRing core r c.id n)
      let s := (got.map (·.1)).getD s
      let s := if c.dr then
          (s.modCore core (fun k => { k with drain := k.drain ++ [autoDrain c (got.map (fun y => (y.2, n)))] })).due
            [Instr.drainStart (Fin.ofNat 384 core)]
        else s
      let steps := c.stepCount * (if c.aType = 9 then 4 else 1)
      s.modMatrix core (fun q =>
        match q with
        | [] => []
        | c :: rest => { c with fired := true, steps := steps, out := p.1, flags := c.flags ||| p.2 } :: rest)

/-- A matrix command is done: its berth is ready with its flags, or holds MATRIX_FAULT when it read an uncorrectable error
(R322). -/
def State.matrixReport (s : State) (core : Nat) (c : MatrixCommand) : State :=
  if c.bad then s.berthFault core c.berth .matrixFault 0 [] else s.berthReady core c.berth c.flags

/-- Words and bytes in place of those that a command with an uncorrectable error would have written (R322). -/
def spoiledWords (fresh : Nat) (xs : List (Nat × Word)) : List (Nat × Word) :=
  ((List.range xs.length).zip xs).map (fun x => (x.2.1, Config.word fresh x.1))
def spoiledBytes (fresh : Nat) (xs : List (Nat × Byte)) : List (Nat × Byte) :=
  ((List.range xs.length).zip xs).map (fun x => (x.2.1, (Config.word fresh x.1).setWidth 8))

/-- The array phase of the mma at the head ends (R318): the bank holds its product, and its berth becomes ready or its
drain is entered. An uncorrectable error leaves the berth with MATRIX_FAULT (R322). -/
def State.arrayPhaseEnd (s : State) (core : Nat) : State :=
  match (s.core core).matrix.queue with
  | [] => s
  | c :: rest =>
    if !c.fired || c.steps ≠ 0 then s
    else
      let s := s.modMatrix core (fun _ => rest)
      let out := if c.bad then spoiledWords s.fresh c.out else c.out
      let s := out.foldl (fun s e => s.modCore core (fun k => k.writeWin e.1 (bytesOfNum 4 e.2.toNat))) s.useFresh
      if c.dr then
        s.modCore core (fun k =>
          { k with
            drain := k.drain.map (fun d =>
              if d.id = c.id then { d with ready := true, flags := c.flags, mmaBad := c.bad } else d) })
      else s.matrixReport core c

/-- The bytes that bld writes, by window offset (R320). -/
def Core.bldBytes (k : Core) (c : MatrixCommand) : List (Nat × Byte) :=
  let bits := elementBits c.bType
  let image (y : Nat) : Byte := Memory.read k.win (c.scratchBase + c.p + y)
  let x := 64 * c.k * bits / 8
  let ep := exponentPlane c.bType c.k
  (List.range 64).flatMap (fun j =>
    let elem (kk : Nat) : Nat := packedElem bits image (64 * kk + j)
    let data :=
      if bits = 4 then
        (List.range (c.k / 2)).map (fun i =>
          (sliceOffset j (c.ob + i), BitVec.ofNat 8 (elem (2 * i) + 16 * elem (2 * i + 1))))
      else
        (List.range c.k).flatMap (fun kk =>
          ((List.range (bits / 8)).zip (bytesOfNum (bits / 8) (elem kk))).map (fun ib =>
            (sliceOffset j (c.ob + bits / 8 * kk + ib.1), ib.2)))
    let exps := if blockType c.bType then
        (List.range c.k).flatMap (fun kk =>
          [ (sliceOffset j (c.ob + ep + 2 * kk), image (x + 2 * (2 * kk + j / 32)))
          , (sliceOffset j (c.ob + ep + 2 * kk + 1), image (x + 2 * (2 * kk + j / 32) + 1)) ])
      else []
    data ++ exps)

/-- What mzero, mlda and bld write, by window offset (R319, R320). -/
def Core.matrixBytes (k : Core) (c : MatrixCommand) : List (Nat × Byte) :=
  match c.op with
  | .mzero => (List.range 16384).map (fun y => (bankOffset c.bank 0 0 + y, 0))
  | .mlda =>
    (List.range 16384).map (fun y => (bankOffset c.bank 0 0 + y, Memory.read k.win (c.scratchBase + c.p + y)))
  | .bld => k.bldBytes c
  | .mma => []

/-- The mzero, mlda or bld at the head of the queue is performed (R317, R319, R320). -/
def State.matrixCommandComplete (s : State) (core : Nat) : State :=
  let again := Instr.matrixCommandComplete (Fin.ofNat 384 core)
  match (s.core core).matrix.queue with
  | [] => s
  | c :: rest =>
    if c.op = .mma || (c.op ≠ .bld && (s.core core).bankBusy c) then s.matrixAgain core (fun c => c.op ≠ .mma) again
    else
      let bytes := (s.core core).matrixBytes c
      let bytes := if c.bad then spoiledBytes s.fresh bytes else bytes
      let s := s.useFresh.modCore core (fun k =>
        { k with
          matrix := { k.matrix with queue := rest }
          win := bytes.foldl (fun m b => Memory.write m b.1 b.2) k.win })
      s.matrixReport core c

/-! ### The governor (R325-R327) -/

/-- BUDGET and RAMP as they act (R326). -/
def governed (x : Nat) : Nat := if x < 64 then 64 else if 1024 < x then 1024 else x

/-- L(n) of the current window (R326). -/
def MatrixEngine.limit (m : MatrixEngine) : Nat := min (governed m.windowBudget) (m.before + governed m.windowRamp)

/-- One cycle of a core's array (R325, R326): a step is performed, or held. The 3 cycles after an f32 step are array-active
whatever the limit is, and are never held. -/
def MatrixEngine.cycle (m : MatrixEngine) : MatrixEngine :=
  match m.queue with
  | [] => m
  | c :: rest =>
    if !c.fired || c.steps = 0 then m
    else if m.active < m.limit || (c.aType = 9 && c.steps % 4 ≠ 0) then
      { m with active := m.active + 1, queue := { c with steps := c.steps - 1 } :: rest }
    else { m with heldNow := true }

/-- A window of the governor ends (R326), before an instruction of the next window's first cycle issues. -/
def State.governorWindow (s : State) (core : Nat) : State :=
  s.modCore core (fun k =>
    let m := k.matrix
    { k with
      matrix :=
        { m with
          held := if m.heldNow then (m.held + 1) % 1024 else m.held
          before := m.active, active := 0, heldNow := false, windowBudget := m.budget, windowRamp := m.ramp } })

/-! ### Acceptance (R309, R311-R313, R321) -/

/-- The fields of a matrix command (R311, R312). -/
def LongFields.matrixBerth (f : LongFields) : Nat := f.extBits 5 0
def LongFields.bank (f : LongFields) : Nat := f.modBits 20 20
def LongFields.outRing (f : LongFields) : Option Nat := if f.modBits 27 27 = 1 then some (f.modBits 31 28) else none

/-- A 32-bit operand as a number. -/
def num32 (ws : List Lanes) : Nat := (laneVal ws 0).toNat % 2 ^ 32

/-- Are K and OB within R313 and R315 for a B operand of a type? -/
def kObOk (ty k ob : Nat) : Bool :=
  let ep := exponentPlane ty k
  1 ≤ k && k ≤ 4096 && (!blockType ty || k % 32 = 0) && ob % 128 = 0
    && (if blockType ty then ob + ep + 2 * k ≤ 65536 else ob + k * elementBits ty / 8 ≤ 65536)

/-- Are the enables within R312? -/
def enablesOk (c : Nat) : Bool :=
  1 ≤ c % 128 && c % 128 ≤ 64 && c / 128 % 2 = 0 && 1 ≤ c / 256 % 128 && c / 256 % 128 ≤ 64 && c / 32768 = 0

/-- ME and NE of the enables. -/
def enablesOf (c : Nat) : Nat × Nat := (c % 128, c / 256 % 128)

/-- Is the operand of a matrix command within R312 to R320, its images within the allocation and its rings declared (R321
order 2)? -/
def Issue.matrixOk (x : Issue) (op : MatrixOp) (f : LongFields) : Bool :=
  let s := x.s
  let r := s.issuing
  let a := s.attrs r
  s.berthOk r (LongFields.matrixBerth f) &&
    match op with
    | .mma =>
      let k := num32 x.a
      let me := (enablesOf (num32 x.c)).1
      let la := imageBytes f.ty (me * k)
      s.ringOk r (f.extBits 9 6) && (LongFields.outRing f).all (s.ringOk r) && enablesOk (num32 x.c)
        && kObOk f.ty k (num32 x.b) && kObOk (f.modBits 18 15) k (num32 x.b) && la % 128 = 0
        && la ≤ ((s.ring? r.core (s.coreRing r (f.extBits 9 6))).map (·.size)).getD 0
    | .mzero => true
    | .mlda => num32 x.a % 128 = 0 && num32 x.a + 16384 ≤ a.scratchBytes
    | .bld =>
      num32 x.a % 128 = 0 && num32 x.a + imageBytes f.ty (64 * num32 x.b) ≤ a.scratchBytes
        && kObOk f.ty (num32 x.b) (num32 x.c)

/-- Does a group hold its team's baton (R308)? -/
def State.holdsBaton (s : State) (r : GroupRef) : Bool :=
  match s.teamOf r with
  | some t => t.batonHolder = some (s.group r).number && t.batonFrom ≤ s.cycle
  | none => false

/-- The checks of R321 orders 2 and 3. -/
def matrixChecks (op : MatrixOp) (f : LongFields) (x : Issue) : Attempt Unit := do
  check (x.matrixOk op f) .illegalOperand
  if !x.s.holdsBaton x.s.issuing then
    .error (.trap { Trap.plain .matrixFault with detail := BitVec.ofNat 32 (LongFields.matrixBerth f) })

/-- The command that an issue captures. -/
def Issue.matrixCommand (x : Issue) (op : MatrixOp) (f : LongFields) : MatrixCommand :=
  let s := x.s
  let r := s.issuing
  let a := s.attrs r
  let en := enablesOf (num32 x.c)
  { id := s.fresh, op := op, team := s.self.team, slot := r.slot, berth := s.coreBerth r (LongFields.matrixBerth f)
    teamBerth := LongFields.matrixBerth f, bank := LongFields.bank f, aType := f.ty
    bType := if op = .bld then f.ty else f.modBits 18 15, k := if op = .bld then num32 x.b else num32 x.a
    ob := if op = .bld then num32 x.c else num32 x.b, me := en.1, ne := en.2, zero := f.extBits 10 10 = 1
    sat := f.modBits 19 19 = 1, aRing := s.coreRing r (f.extBits 9 6), dr := f.modBits 21 21 = 1
    dslot := f.modBits 26 22, oRing := if op = .mma then (LongFields.outRing f).map (s.coreRing r) else none
    teamRing := f.modBits 31 28, p := num32 x.a, scratchBase := a.scratchBase, scratchBytes := a.scratchBytes
    ctx := a.ctx, user := s.self.privilege = .user, fired := false, steps := 0, out := [], flags := 0, bad := false }

/-- mma, mzero, mlda and bld (R321). -/
def State.matrixOp (s : State) (iop : Op) (op : MatrixOp) (f : LongFields) : Host.Outcome State Fault Refusal :=
  s.finish (do
    let x ← s.prepareWith iop f .sources (matrixChecks op f)
    if !x.acts then return x.finishPlain
    let r := x.s.issuing
    let n := LongFields.matrixBerth f
    check (!x.s.berthBusy r n) .berthConflict
    x.request .matrix
    let core := Fin.ofNat 384 r.core
    let event := if op = .mma then Instr.mmaFire core else Instr.matrixCommandComplete core
    let c := x.matrixCommand op f
    let t := (((x.s.grantTo r arbMatrix).claimBerth r.core (x.s.coreBerth r n)).useFresh.modMatrix r.core (fun q => q ++ [c])).due [event]
    return ({ x with s := t } : Issue).finishPlain)

/-! ### The baton (R308-R310) -/

/-- mxb.take: a group that does not get the baton joins its waiters. -/
def State.mxbTakeOp (s : State) (f : LongFields) : Host.Outcome State Fault Refusal :=
  match s.prepare .mxb f with
  | .error e => .next (s.stopped e)
  | .ok x =>
    match x.s.teamOf x.s.issuing with
    | none => .next (x.s.trap x.s.issuing (Trap.plain (if x.s.self.kind = .recovery then .purity else .matrixFault)))
    | some t =>
      let n := x.s.self.number
      if x.s.holdsBaton x.s.issuing then .next x.finishPlain
      else if t.batonHolder = some n then .next (s.stopped (.stall (.accept .baton)))
      else if t.batonHolder.isNone && t.batonQueue = [] then
        .next ({ x with s := x.s.modTeam x.s.selfTeam (fun t => { t with batonHolder := some n, batonFrom := 0 }) } : Issue).finishPlain
      else
        let joined := if t.batonQueue.contains n then s
          else s.modTeam s.selfTeam (fun t => { t with batonQueue := t.batonQueue ++ [n] })
        .next (joined.stopped (.stall (.accept .baton)))

/-- mxb.pass. -/
def State.mxbPassOp (s : State) (f : LongFields) : Host.Outcome State Fault Refusal :=
  s.finish (do
    let x ← s.prepare .mxb f
    x.s.pure
    check (x.s.holdsBaton x.s.issuing) .matrixFault
    return ({ x with s := x.s.modTeam x.s.selfTeam (fun t => t.passBaton x.s.cycle) } : Issue).finishPlain)

/-- mxb.query. -/
def State.mxbQueryOp (s : State) (f : LongFields) : Host.Outcome State Fault Refusal :=
  s.finish (do
    let x ← s.prepare .mxb f
    let v := match x.s.teamOf x.s.issuing with
      | none => 2 ^ 31
      | some t => t.batonQueue.length * 2 ^ 16 + t.batonHolder.getD (2 ^ 31)
    return x.finishPending [Lanes.splat (BitVec.ofNat 32 v)] false [])

/-! ### mwait (R324) -/

/-- mwait. -/
def State.mwaitOp (s : State) (f : LongFields) : Host.Outcome State Fault Refusal :=
  s.finish (do
    let x ← s.prepareWith .mwait f .never (fun x => check (x.s.berthOk x.s.issuing (num32 x.a)) .illegalOperand)
    let r := x.s.issuing
    let n := num32 x.a
    x.s.checkHeld r (BitVec.ofNat 64 (2 ^ n))
    let b := x.s.berthOf r n
    if b.state ≠ .ready then .error (.stall (.accept (.berth (x.s.coreBerth r n))))
    let t := x.s.modSelf (fun g => g.orFlags x.flagLanes (fun _ => b.flags))
    let t := t.setBerth r.core (t.coreBerth r n) (if f.modBits 11 11 = 1 then Berth.free else { b with flags := 0 })
    return ({ x with s := t } : Issue).finishPlain)

/-! ### Instructions and events -/

/-- mxb.take (R308). -/
def execMxbTake (f : LongFields) (s : State) : Host.Outcome State Fault Refusal := s.mxbTakeOp f
/-- mxb.pass (R308). -/
def execMxbPass (f : LongFields) (s : State) : Host.Outcome State Fault Refusal := s.mxbPassOp f
/-- mxb.query (R308). -/
def execMxbQuery (f : LongFields) (s : State) : Host.Outcome State Fault Refusal := s.mxbQueryOp f
/-- mma (R316-R318, R321). -/
def execMma (f : LongFields) (s : State) : Host.Outcome State Fault Refusal := s.matrixOp .mma .mma f
/-- mzero (R319, R321). -/
def execMzero (f : LongFields) (s : State) : Host.Outcome State Fault Refusal := s.matrixOp .mzero .mzero f
/-- mlda (R319, R321). -/
def execMlda (f : LongFields) (s : State) : Host.Outcome State Fault Refusal := s.matrixOp .mlda .mlda f
/-- bld (R320, R321). -/
def execBld (f : LongFields) (s : State) : Host.Outcome State Fault Refusal := s.matrixOp .bld .bld f
/-- mwait (R324). -/
def execMwait (f : LongFields) (s : State) : Host.Outcome State Fault Refusal := s.mwaitOp f

/-- The firing of an mma (R317). -/
def execMmaFire (core : Fin 384) (s : State) : Host.Outcome State Fault Refusal := .next (s.mmaFire core)
/-- The end of an array phase (R318). -/
def execArrayPhaseEnd (core : Fin 384) (s : State) : Host.Outcome State Fault Refusal := .next (s.arrayPhaseEnd core)
/-- An mzero, mlda or bld is performed (R319, R320). -/
def execMatrixCommandComplete (core : Fin 384) (s : State) : Host.Outcome State Fault Refusal :=
  .next (s.matrixCommandComplete core)
/-- A governor window ends (R326). -/
def execGovernorWindow (core : Fin 384) (s : State) : Host.Outcome State Fault Refusal := .next (s.governorWindow core)

end Sys2Proof.Machine
end

