-- ==== Sys2Proof/Machine/Drain.lean ====
section
/-! DEFINITION. The drain unit: its queue, its rows, its faults and its commands (14 R328, R329, R337-R345). -/

namespace Sys2Proof.Machine

/-! ### The queue (R339) -/

/-- The core's drain queue changed. -/
def State.modDrain (s : State) (core : Nat) (f : List DrainCommand → List DrainCommand) : State :=
  s.modCore core (fun k => { k with drain := f k.drain })

/-- Has a drain read its last bank row, so that the next entry may start (R339)? One that has met an uncorrectable error is
held first (R341). -/
def DrainCommand.passed (c : DrainCommand) : Bool :=
  c.op = .drain && c.latched.isSome && c.held.isNone && c.me ≤ c.row && !c.bad

/-- The entry whose turn it is: the first that has not passed. -/
def Core.drainHead (k : Core) : Option DrainCommand := k.drain.find? (fun c => !c.passed)

/-- A queue with the entry whose turn it is changed. -/
def modFirst (f : DrainCommand → DrainCommand) (q : List DrainCommand) : List DrainCommand :=
  match q with
  | [] => []
  | c :: rest => if c.passed then c :: modFirst f rest else f c :: rest

/-- The entry whose turn it is changed. -/
def State.modDrainHead (s : State) (core : Nat) (f : DrainCommand → DrainCommand) : State :=
  s.modDrain core (modFirst f)

/-- On whose behalf a drain stores (R334). The Tug's stores have system privilege (01 R26). -/
def DrainCommand.as (c : DrainCommand) (core : Nat) : EngineAs :=
  { core := core, ctx := c.ctx, user := c.user, sys := c.slot = 15, physical := false }

/-- The restart record of a held drain (R342). -/
def DrainCommand.record (c : DrainCommand) (row kind cause : Nat) : List Byte :=
  let b (n : Nat) : Byte := BitVec.ofNat 8 n
  let ring := match c.ring with
    | some _ => 2 * c.teamRing + 32
    | none => 0
  bytesOfNum 4 ((c.image.map (fun x => x.1.toNat)).getD 0)
    ++ [b c.sel, b (c.bank + ring + if c.auto then 64 else 0), b row, b kind, b c.me, b c.ne, b c.teamBerth, b cause]
    ++ List.replicate 4 0

/-- The drain at the head of the queue faults at a row and is held (R341). -/
def State.drainFault (s : State) (core : Nat) (c : DrainCommand) (row kind cause : Nat) (addr : DWord) : State :=
  (s.modDrainHead core (fun c => { c with held := some kind, row := row, cause := cause })).berthFault core c.berth
    .drainFault addr (c.record row kind cause)

/-- What a drain latches when it starts (R329). -/
def Core.latch (k : Core) (slot : Nat) : Latched :=
  let words (base n : Nat) : List Word := (List.range n).map (fun i => BitVec.ofNat 32 (k.readWin (base + 4 * i) 4))
  { program := k.slotProgram slot, cols := words 0x04001000 1024, rows := words 0x04002000 256
    table := words 0x04003000 512 }

/-- The ring bytes of a starting drain (R339, R343): none needed, those reserved, or a fault of KIND 5. -/
inductive DrainRoom where
  | ready (image : Option (Word × Nat))
  | wait
  | fault
  deriving DecidableEq, Repr

/-- The reservation of a starting drain, with the state that holds it. -/
def State.drainRoom (s : State) (core : Nat) (c : DrainCommand) (need : Nat) : State × DrainRoom :=
  match c.image with
  | some x => (s, if x.2 = need then .ready c.image else .fault)
  | none =>
    if need = 0 then (s, .ready none)
    else if c.auto then (s, .fault)
    else
      match c.ring with
      | none => (s, .fault)
      | some n =>
        if ((s.ring? core n).map (·.size)).getD 0 < need then (s, .fault)
        else
          match s.reserveRing core n c.id need with
          | some (t, ptr) => (t, .ready (some (ptr, need)))
          | none => (s, .wait)

/-- The same event due again, while the queue holds an entry for it. -/
def State.drainAgain (s : State) (core : Nat) (p : DrainCommand → Bool) (again : Instr) : State :=
  if (s.core core).drain.any p then s.due [again] else s

/-- The drain at the head of the queue starts (R329, R335, R339). -/
def State.drainStart (s : State) (core : Nat) : State :=
  let again := Instr.drainStart (Fin.ofNat 384 core)
  match (s.core core).drainHead with
  | none => s
  | some c =>
    let mine (c : DrainCommand) : Bool := c.op = .drain && c.latched.isNone && c.held.isNone
    let before := (s.core core).matrix.queue.any (fun m => c.after.contains m.id)
    if !mine c || !c.ready || before then s.drainAgain core mine again
    else
      let l := (s.core core).latch c.sel
      if !programOk l.program c.ne c.ring.isSome then s.drainFault core c 0 4 0 0
      else
        match s.drainRoom core c (appends l.program c.me c.ne) with
        | (t, .wait) => t.due [again]
        | (t, .fault) => t.drainFault core c 0 5 0 0
        | (t, .ready image) =>
          (t.modDrainHead core (fun c => { c with latched := some l, image := image })).due
            [Instr.drainRowStore (Fin.ofNat 384 core)]

/-! ### Rows (R329, R334, R341) -/

/-- Where a row's dst write goes, or its fault: KIND, CAUSE and address. The host half's refusals are ACCESS (log entry
28). -/
def drainSpots (w : EngineAs) (va : DWord) (n : Nat) (s : State) : State × Except (Option (Nat × Nat × DWord)) (List Spot) :=
  match (engineSpots w .write va n).run s with
  | (.ok ps, t) => (t, .ok ps)
  | (.error (.again none _), t) => (t, .error none)
  | (.error (.again (some page) first), t) =>
    (t, .error (some (if page.msb then (1, Cause.pageNotPresent.code, first) else (2, Cause.hostPage.code, first))))
  | (.error (.fault c addr), t) => (t, .error (some (2, (c.map Cause.code).getD 0, addr)))

/-- The ring bytes of a row's dstr (R334): for each element its image byte and value, an element of half a byte keeping
the other half, and for a block type the exponents of its block, as far as L_D goes (DEDUCED, log entry 28). -/
def State.appendRow (s : State) (core : Nat) (c : DrainCommand) (ty : Nat) (row : Nat) (xs : List Word) : State :=
  match c.ring, c.image with
  | some n, some (ptr, len) =>
    let at_ (y : Nat) : Word := ptr + BitVec.ofNat 32 y
    let size := elementBits ty
    let data := dstrData ty c.me c.ne
    ((List.range xs.length).zip xs).foldl (fun s jx =>
      let e := c.ne * row + jx.1
      let s :=
        if size = 4 then
          let old := ((s.ring? core n).map (fun x => (s.core core).ringByte x (at_ (e / 2)))).getD 0
          let nib := jx.2.toNat % 16
          let new := if e % 2 = 0 then old.toNat / 16 * 16 + nib else old.toNat % 16 + 16 * nib
          s.writeRing core n (at_ (e / 2)) [BitVec.ofNat 8 new]
        else s.writeRing core n (at_ (size / 8 * e)) (bytesOfNum (size / 8) jx.2.toNat)
      if blockType ty then
        let y := data + 2 * (e / 32)
        s.writeRing core n (at_ y) ((bytesOfNum 2 (jx.2.toNat / 2 ^ 16)).take (len - y))
      else s) s
  | _, _ => s

/-- The bytes between the image's end and L_D are written as 0 (R334). -/
def State.padImage (s : State) (core : Nat) (c : DrainCommand) : State :=
  match c.ring, c.image, c.latched.bind (fun l => dstrType l.program) with
  | some n, some (ptr, len), some ty =>
    let used := dstrData ty c.me c.ne + if blockType ty then 2 * ((c.me * c.ne + 31) / 32) else 0
    s.writeRing core n (ptr + BitVec.ofNat 32 used) (List.replicate (len - used) 0)
  | _, _, _ => s

/-- A row of the drain whose turn it is is performed (R329): its store is one write (06 R154). After the last row, a drain that
met an uncorrectable error is held (R341 KIND 6). -/
def State.drainRowStore (s : State) (core : Nat) : State :=
  let again := Instr.drainRowStore (Fin.ofNat 384 core)
  match (s.core core).drainHead with
  | none => s
  | some c =>
    match c.latched, c.held with
    | some l, none =>
      if c.me ≤ c.row then s
      else
        let k := s.core core
        let elems := (List.range c.ne).map (fun j => BitVec.ofNat 32 (k.readWin (bankOffset c.bank c.row j) 4))
        let scratch (y : Nat) : Byte := Memory.read k.win (c.scratchBase + y)
        match drainRow l c.row c.ne c.scratchBytes scratch elems with
        | .error off => s.drainFault core c c.row 3 0 (BitVec.ofNat 64 off)
        | .ok x =>
          let va := (x.dst.map (·.1)).getD 0
          let bs := (x.dst.map (·.2)).getD []
          match drainSpots (c.as core) va bs.length s with
          | (t, .error none) => t.due [again]
          | (t, .error (some (kind, cause, addr))) => t.drainFault core c c.row kind cause addr
          | (t, .ok ps) =>
            let t := if bs = [] then t
              else (t.engineDirty (c.as core) va bs.length).engineWrite (c.as core) (ps.zip (bs.map (fun b => (b, false))))
            let t := match x.dstr, dstrType l.program with
              | some xs, some ty => t.appendRow core c ty c.row xs
              | _, _ => t
            let done := { c with row := c.row + 1, stored := c.row + 1, flags := c.flags ||| x.flags }
            if done.row < c.me then (t.modDrainHead core (fun _ => done)).due [again]
            else
              let t := t.padImage core c
              if c.bad then (t.modDrainHead core (fun _ => done)).drainFault core done c.me 6 0 0
              else (t.modDrainHead core (fun _ => done)).due [Instr.drainComplete (Fin.ofNat 384 core)]
    | _, _ => s

/-- A drain whose rows are all performed completes once its ring advance is applied (R339; R322 for an mma that met an
uncorrectable error): the first of the queue that can. -/
def State.drainComplete (s : State) (core : Nat) : State :=
  let passed := (s.core core).drain.filter (fun c => c.passed)
  let s := passed.foldl (fun s c =>
    match c.ring with
    | some n => s.modRing core n (fun x => x.complete c.id)
    | none => s) s
  match passed.find? (fun c => s.advancesDone core c.id) with
  | none => if passed = [] then s else s.due [Instr.drainComplete (Fin.ofNat 384 core)]
  | some c =>
    let s := s.modDrain core (fun q => q.filter (fun d => d.id ≠ c.id))
    if c.mmaBad then s.berthFault core c.berth .matrixFault 0 [] else s.berthReady core c.berth c.flags

/-! ### mdrain.load and mdrain.const (R339) -/

/-- The window offset and the length of what an mdrain.load or mdrain.const writes (R328, R337). -/
def drainTarget (op : DrainOp) (sel : Nat) : Nat × Nat :=
  if op = .load then (0x04000000 + 64 * sel, 48)
  else if sel < 16 then (0x04001000 + 256 * sel, 256)
  else if sel < 20 then (0x04002000 + 256 * (sel - 16), 256)
  else (0x04003000, 2048)

/-- The mdrain.load or mdrain.const at the head of the queue is performed. -/
def State.drainConstantLoad (s : State) (core : Nat) : State :=
  match (s.core core).drainHead with
  | none => s
  | some c =>
    if c.op = .drain then s.drainAgain core (fun c => c.op ≠ .drain) (Instr.drainConstantLoad (Fin.ofNat 384 core))
    else
      let t := drainTarget c.op c.sel
      let s := s.modCore core (fun k =>
        { k with drain := k.drain.filter (fun d => d.id ≠ c.id), win := Memory.copyFrom k.win t.1 k.win (c.scratchBase + c.p) t.2 })
      s.berthReady core c.berth 0

/-! ### Acceptance (R337, R338) -/

/-- Are the operands of a drain command within R338 order 2? -/
def Issue.drainOk (x : Issue) (op : DrainOp) (f : LongFields) : Bool :=
  let s := x.s
  let r := s.issuing
  let p := num32 x.a
  s.berthOk r (LongFields.matrixBerth f) &&
    match op with
    | .drain => (LongFields.outRing f).all (s.ringOk r) && enablesOk (num32 x.c)
    | op => p % (if op = .load then 64 else 128) = 0 && p + (drainTarget op (f.modBits 26 22)).2 ≤ (s.attrs r).scratchBytes

/-- The command that an issue captures. -/
def Issue.drainCommand (x : Issue) (op : DrainOp) (f : LongFields) : DrainCommand :=
  let s := x.s
  let r := s.issuing
  let a := s.attrs r
  let en := enablesOf (num32 x.c)
  let bank := LongFields.bank f
  let writers := (s.core r.core).matrix.queue.filter (fun m => m.op ≠ .bld && m.bank = bank)
  { id := s.fresh, op := op, team := s.self.team, slot := r.slot, ctx := a.ctx, user := s.self.privilege = .user
    berth := s.coreBerth r (LongFields.matrixBerth f), teamBerth := LongFields.matrixBerth f, bank := bank
    sel := f.modBits 26 22, me := en.1, ne := en.2, ring := (LongFields.outRing f).map (s.coreRing r)
    teamRing := f.modBits 31 28, p := num32 x.a, scratchBase := a.scratchBase, scratchBytes := a.scratchBytes
    auto := false, after := if op = .drain then writers.map (·.id) else [], ready := true, latched := none, row := 0, stored := 0
    image := none, flags := 0, held := none, resumed := false, cause := 0, bad := false, mmaBad := false }

/-- mdrain, mdrain.load and mdrain.const (R338). -/
def State.drainOp (s : State) (op : DrainOp) (f : LongFields) : Host.Outcome State Fault Refusal :=
  s.finish (do
    let x ← s.prepareWith .mdrain f .sources (fun x => do
      check (x.drainOk op f) .illegalOperand
      x.s.pure)
    if !x.acts then return x.finishPlain
    let r := x.s.issuing
    let n := LongFields.matrixBerth f
    check (!x.s.berthBusy r n) .berthConflict
    x.request .drain
    let core := Fin.ofNat 384 r.core
    let event := if op = .drain then Instr.drainStart core else Instr.drainConstantLoad core
    let c := x.drainCommand op f
    let t := (((x.s.grantTo r arbDrain).claimBerth r.core (x.s.coreBerth r n)).useFresh.modDrain r.core (fun q => q ++ [c])).due [event]
    return ({ x with s := t } : Issue).finishPlain)

/-- Does a team berth hold the team's held drain (R338)? -/
def State.heldDrain (s : State) (r : GroupRef) (n : Nat) : Bool :=
  match (s.core r.core).drainHead with
  | some c => c.held.isSome && c.team = (s.group r).team && c.teamBerth = n
  | none => false

/-- The held drain goes on (R343): from its row, or after a KIND 4 or 5 from row 0, where it passes over the rows performed before the
fault, which are never rewritten (06 R154; DEDUCED, log entry 49); a KIND 6 completes. -/
def State.resumeDrain (s : State) (core : Nat) : State :=
  match (s.core core).drainHead with
  | none => s
  | some c =>
    let kind := c.held.getD 0
    let s := s.setBerth core c.berth ⟨.busy, none, 0⟩
    if kind = 6 then
      (s.modDrainHead core (fun c => { c with held := none, bad := false, resumed := true })).due
        [Instr.drainComplete (Fin.ofNat 384 core)]
    else
      (s.modDrainHead core (fun c =>
        { c with
          held := none, latched := none, resumed := true, row := if kind = 4 || kind = 5 then c.stored else c.row })).due
        [Instr.drainStart (Fin.ofNat 384 core)]

/-- mdresume (R338, R343). -/
def State.mdresumeOp (s : State) (f : LongFields) : Host.Outcome State Fault Refusal :=
  s.finish (do
    let x ← s.prepareWith .mdresume f .sources (fun x => do
      let r := x.s.issuing
      check (x.s.berthOk r (num32 x.a) && x.s.heldDrain r (num32 x.a)) .illegalOperand
      x.s.pure)
    if !x.acts then return x.finishPlain
    return ({ x with s := x.s.resumeDrain x.s.issuing.core } : Issue).finishPlain)

/-! ### Instructions and events -/

/-- mdrain (R337). -/
def execMdrain (f : LongFields) (s : State) : Host.Outcome State Fault Refusal := s.drainOp .drain f
/-- mdrain.load (R337). -/
def execMdrainLoad (f : LongFields) (s : State) : Host.Outcome State Fault Refusal := s.drainOp .load f
/-- mdrain.const (R337). -/
def execMdrainConst (f : LongFields) (s : State) : Host.Outcome State Fault Refusal := s.drainOp .const f
/-- mdresume (R343). -/
def execMdresume (f : LongFields) (s : State) : Host.Outcome State Fault Refusal := s.mdresumeOp f

/-- A drain starts (R339). -/
def execDrainStart (core : Fin 384) (s : State) : Host.Outcome State Fault Refusal := .next (s.drainStart core)
/-- An mdrain.load or mdrain.const is performed (R339). -/
def execDrainConstantLoad (core : Fin 384) (s : State) : Host.Outcome State Fault Refusal :=
  .next (s.drainConstantLoad core)
/-- A row is performed (R329). -/
def execDrainRowStore (core : Fin 384) (s : State) : Host.Outcome State Fault Refusal := .next (s.drainRowStore core)
/-- A drain completes (R339). -/
def execDrainComplete (core : Fin 384) (s : State) : Host.Outcome State Fault Refusal := .next (s.drainComplete core)

end Sys2Proof.Machine
end

