-- ==== Sys2Proof/Machine/Lift.lean ====
section
/-! DEFINITION. The Lift and the upper-die power gate (16). -/

namespace Sys2Proof.Machine

/-! ### The FIFOs (R373-R375, R378) -/

/-- Entries enter the FIFO from a core, in order; each is present at the partner when its arrival comes (R375). -/
def State.pushEntries (s : State) (core : Nat) (es : List Lanes) : State :=
  let p := partnerOf core
  (s.modCore p (fun k => { k with incoming := k.incoming ++ es.map (fun v => ⟨v, false, false⟩) })).due
    (es.map (fun _ => Instr.liftEntryArrival (Fin.ofNat 384 p)))

/-- The oldest entry that is not present yet becomes present. -/
def arriveFirst (es : List LiftEntry) : List LiftEntry :=
  match es with
  | [] => []
  | e :: rest => if e.present then e :: arriveFirst rest else { e with present := true } :: rest

/-- An entry of the FIFO toward a core arrives (R375). -/
def State.liftArrival (s : State) (core : Nat) : State :=
  s.modCore core (fun k => { k with incoming := arriveFirst k.incoming })

/-- The oldest bulk push of a core enters its next entry once a slot is free; with its last entry its berth is ready
(R378). -/
def State.liftBulk (s : State) (core : Nat) : State :=
  let again := Instr.liftBulkEntry (Fin.ofNat 384 core)
  match (s.core core).bulk with
  | [] => s
  | b :: rest =>
    match b.entries with
    | [] => s.modCore core (fun k => { k with bulk := rest })
    | e :: more =>
      if s.liftFree core = 0 then s.due [again]
      else
        let s := s.pushEntries core [e]
        if more = [] then (s.modCore core (fun k => { k with bulk := rest })).berthReady core b.berth 0
        else (s.modCore core (fun k => { k with bulk := { b with entries := more } :: rest })).due [again]

/-! ### Checks (R377) -/

/-- n of lift.push and lift.pop (R376). -/
def LongFields.liftCount (f : LongFields) : Nat := f.modBits 14 12 + 1

/-- Do `n` registers from a v register lie within the kernel's (R377 order 2)? -/
def State.spanOk (s : State) (r : GroupRef) (code : BitVec 9) (n : Nat) : Bool :=
  match Operand.ofCode code with
  | .v k => k + n ≤ 240 + (s.attrs r).moored
  | _ => true

/-- Is the partner core assigned to the issuer's context (R374)? -/
def State.partnerOk (s : State) (r : GroupRef) : Bool := (s.core (partnerOf r.core)).ctx = some (s.attrs r).ctx

/-- Orders 2 to 4 of R377 for a push from or a pop to a register; a bulk push names a berth. -/
def liftChecks (f : LongFields) (code : BitVec 9) (bulk : Bool) (x : Issue) : Attempt Unit := do
  let r := x.s.issuing
  check (x.s.spanOk r code (LongFields.liftCount f)) .illegalOperand
  check (!bulk || x.s.berthOk r (f.extBits 5 0)) .illegalOperand
  x.s.pure
  check (x.s.partnerOk r) .liftFault

/-! ### lift.push, lift.pop, lift.free and lift.wait (R378-R380) -/

/-- The entries that a push forms (R378): 0 in the inactive lanes, and one value in every lane under U = 1. -/
def Issue.liftEntries (x : Issue) (f : LongFields) : List Lanes :=
  let r := x.s.issuing
  let g := x.s.self
  let range := (g.regsOf (Operand.ofCode f.a) (LongFields.liftCount f)).map (fun reg =>
    let w := x.s.readReg r reg
    if f.u then splatFrom w (g.uniformLane f) else w)
  (if LongFields.liftCount f = 1 then x.a else range).map (fun w => Lanes.merge x.lanes w Lanes.zero)

/-- lift.push. -/
def State.liftPushOp (s : State) (f : LongFields) : Host.Outcome State Fault Refusal :=
  s.finish (do
    let x ← s.prepareWith .liftPush f .sources (liftChecks f f.a false)
    if !x.acts then return x.finishPlain
    let core := x.s.issuing.core
    let n := LongFields.liftCount f
    if x.s.liftFree core < n || (x.s.core core).bulk ≠ [] then .error (.stall (.accept (.lift n)))
    return ({ x with s := x.s.pushEntries core (x.liftEntries f) } : Issue).finishPlain)

/-- lift.push.bulk. -/
def State.liftPushBulkOp (s : State) (f : LongFields) : Host.Outcome State Fault Refusal :=
  s.finish (do
    let x ← s.prepareWith .liftPush f .sources (liftChecks f f.a true)
    if !x.acts then return x.finishPlain
    let r := x.s.issuing
    let n := f.extBits 5 0
    check (!x.s.berthBusy r n) .berthConflict
    if 4 ≤ (x.s.core r.core).bulk.length then .error (.stall (.accept .bulk))
    let b : BulkPush := { team := x.s.self.team, berth := x.s.coreBerth r n, entries := x.liftEntries f }
    let t := ((x.s.claimBerth r.core b.berth).modCore r.core (fun k => { k with bulk := k.bulk ++ [b] })).due
      [Instr.liftBulkEntry (Fin.ofNat 384 r.core)]
    return ({ x with s := t } : Issue).finishPlain)

/-- The registers of an accepted pop are pending, each with its entry's words and one slot of the FIFO (R379). -/
def Group.putPops (g : Group) (d : Dest) (es : List LiftEntry) (lane : Option Nat) : Group :=
  let first := g.nextResult
  let g := g.makeRoom false d
  let out := ((List.range es.length).zip (d.regs.zip es)).map (fun (x : Nat × Reg × LiftEntry) =>
    let vals := match lane with
      | some l => splatFrom x.2.2.vals l
      | none => x.2.2.vals
    ({ id := first + x.1, regs := [(x.2.1, vals)], mask := d.mask, poisoned := x.2.2.poisoned, access := false, slots := 1
       remote := [] } : Outstanding))
  ({ g with outstanding := g.outstanding ++ out } : Group).issued g.nextPc none

/-- lift.pop: it takes the oldest entries once enough are present, and otherwise ends the run and is evaluated afresh. In every
case the operand state is dropped (02 R47). -/
def State.liftPopOp (s : State) (f : LongFields) : Host.Outcome State Fault Refusal :=
  s.finish (do
    let x ← s.prepareWith .liftPop f .sources (liftChecks f f.d false)
    if !x.acts then return x.finishPlain.dropSelf
    let r := x.s.issuing
    let n := LongFields.liftCount f
    if (x.s.core r.core).avail < n then return x.s.blockOn (.liftPop n)
    let es := (x.s.core r.core).incoming.take n
    let first := x.s.self.nextResult
    let t := x.s.modCore r.core (fun k => { k with incoming := k.incoming.drop n, taking := k.taking + n })
    let t := t.modGroup r (fun g => (g.putPops x.dest es (if f.u then some g.gateLane else none)).dropOperands)
    return t.due ((List.range n).map (fun i => Instr.loadReturn r (first + i))))

/-- lift.free. -/
def State.liftFreeOp (s : State) (f : LongFields) : Host.Outcome State Fault Refusal :=
  s.finish (do
    let x ← s.prepare .liftFree f
    return x.finishPending [Lanes.splat (BitVec.ofNat 32 (x.s.liftFree x.s.issuing.core))] false [])

/-- lift.wait. -/
def State.liftWaitOp (s : State) (f : LongFields) : Host.Outcome State Fault Refusal :=
  s.finish (do
    let x ← s.prepareWith .liftWait f .never (fun x => check (num32 x.a ≤ 16) .illegalOperand)
    let n := num32 x.a
    if x.s.liftFree x.s.issuing.core < n then .error (.stall (.accept (.liftWait n)))
    return x.finishPlain)

/-! ### The gate (R383-R385) -/

/-- The lower core of a pair. -/
def lowerOf (core : Nat) : Nat := if isUpper core then partnerOf core else core

/-- May a pending gate close: no resident group of the upper core but its Tug, its engine queues and the downward FIFO
empty (R384)? -/
def State.gateHolds (s : State) (low : Nat) : Bool :=
  let k := s.core (partnerOf low)
  k.groups.all (fun e => e.2.kind = .tug) && k.crane.all (fun q => q = []) && k.matrix.queue = [] && k.drain = []
    && k.surrogate.queue = [] && (s.core low).incoming = []

/-- PENDING to GATED (R384): the upper core's stores are performed, and its power is removed. -/
def State.gateClose (s : State) (core : Nat) : State :=
  let low := lowerOf core
  if (s.core low).gate ≠ .pending then s
  else if s.gateHolds low then
    let up := partnerOf low
    let s := ((s.core up).stores.map (·.slot)).eraseDups.foldl (fun s slot => s.flushStores ⟨up, slot⟩) s
    s.modCore low (fun k => { k with gate := .gated })
  else s

/-- Is a step the closing of a gate? -/
def closesGate (low : Nat) (i : Instr) : Bool :=
  match i with
  | .gateEntry c => c = low
  | _ => false

/-- The gate condition is tested at the end of a cycle, after the writes of sr.gate that the cycle has made (R385). -/
def State.gateTick (s : State) (core : Nat) : State :=
  if (s.core core).gate = .pending && s.gateHolds core && !s.agenda.any (closesGate core) then
    s.due [Instr.gateEntry (Fin.ofNat 384 core)]
  else s

/-- The upper core as its power returns with no scrub due (R384): scrubbed, but for its assignment, the FIFO toward it and
its B-store. -/
def Core.woken (k : Core) : Core :=
  { k.scrubbed with
    incoming := k.incoming
    win := k.win.filter (fun c => inTugMoored c.1 || (0x01000000 ≤ c.1 && c.1 < 0x01400000)) }

/-- The Tug of a core restarts at its firmware entry, a free value (log entry 5). Its k and moored registers are as they were
and the rest is empty (DESIGN CHOICE, log entry 78). -/
def State.restartTug (s : State) (core : Nat) : State :=
  let entry := alignTarget (Config.word s.fresh 0 ++ Config.word s.fresh 1)
  let refs := ((s.core core).groups.filter (fun e => e.2.kind = .tug)).map (fun e => (⟨core, e.1⟩ : GroupRef))
  refs.foldl (fun s r =>
    ((s.leaveBarrel r).modGroup r (fun g => { Group.blank with kind := .tug, k := g.k, pc := entry })).joinReady r
      (s.cycle + 1)) s.useFresh

/-- WAKING to ON (R384); a scrub that fell due is made in full, and a REQ of 1 written during WAKING takes effect. -/
def State.gateWake (s : State) (core : Nat) : State :=
  let low := lowerOf core
  let up := partnerOf low
  if (s.core low).gate ≠ .waking then s
  else
    let k := s.core up
    let s := s.modCore low (fun k => { k with gate := .on })
    let s := match k.scrubDue with
      | some (ctx, next) => s.scrubCore up ctx next
      | none => (s.modCore up Core.woken).assignCore up k.ctx
    let s := (s.restartTug up).releaseGoesOn
    if (s.core low).gateReq then s.modCore low (fun k => { k with gate := .pending }) else s

/-! ### Instructions and events -/

/-- lift.push (R378). -/
def execLiftPush (f : LongFields) (s : State) : Host.Outcome State Fault Refusal := s.liftPushOp f
/-- lift.push.bulk (R378). -/
def execLiftPushBulk (f : LongFields) (s : State) : Host.Outcome State Fault Refusal := s.liftPushBulkOp f
/-- lift.pop (R379). -/
def execLiftPop (f : LongFields) (s : State) : Host.Outcome State Fault Refusal := s.liftPopOp f
/-- lift.free (R380). -/
def execLiftFree (f : LongFields) (s : State) : Host.Outcome State Fault Refusal := s.liftFreeOp f
/-- lift.wait (R380). -/
def execLiftWait (f : LongFields) (s : State) : Host.Outcome State Fault Refusal := s.liftWaitOp f

/-- A pushed entry becomes present (R375). -/
def execLiftEntryArrival (core : Fin 384) (s : State) : Host.Outcome State Fault Refusal := .next (s.liftArrival core)
/-- A bulk push enters an entry (R378). -/
def execLiftBulkEntry (core : Fin 384) (s : State) : Host.Outcome State Fault Refusal := .next (s.liftBulk core)
/-- The gate closes (R384). -/
def execGateEntry (core : Fin 384) (s : State) : Host.Outcome State Fault Refusal := .next (s.gateClose core)
/-- The upper core has woken (R384). -/
def execGateWakeComplete (core : Fin 384) (s : State) : Host.Outcome State Fault Refusal := .next (s.gateWake core)

end Sys2Proof.Machine
end

