-- ==== Sys2Proof/Machine/Slipway.lean ====
section
/-! DEFINITION. The surrogate directory, the Slipway, srg.close and deposits (15 R353, R354, R358-R360, R363-R365). -/

namespace Sys2Proof.Machine

/-! ### The directory and its copies (R353, R365, R372) -/

/-- A surrogate's directory entry in a context. -/
def Context.entry (c : Context) (id : Nat) : DirectoryEntry := Table.get c.directory DirectoryEntry.created id

/-- The state with a directory entry of a context changed. -/
def State.modEntry (s : State) (ctx id : Nat) (f : DirectoryEntry → DirectoryEntry) : State :=
  s.modContext ctx (fun c => { c with directory := Table.set c.directory id (f (c.entry id)) })

/-- A 48-bit count raised (R353). -/
def add48 (x n : Nat) : Nat := (x + n) % 2 ^ 48

/-- A core's copy of a surrogate's ENABLED and GEN. -/
def SurrogateEngine.copy (k : SurrogateEngine) (id : Nat) : SurrogateCopy :=
  Table.get k.copies (SurrogateCopy.of true 0) id

/-- The copy that a decision in a cycle uses: as it was before a change of that cycle (R372). -/
def SurrogateCopy.atDecision (c : SurrogateCopy) (cycle : Nat) : Bool × Word :=
  if c.since = cycle && cycle ≠ 0 then (c.oldEnabled, c.oldGen) else (c.enabled, c.gen)

/-- A disable or an enable reaches a core's copy (R365, R368). -/
def State.surrogateArrival (s : State) (core id : Nat) (enabled : Bool) (gen : Word) : State :=
  s.modCore core (fun k =>
    let old := (k.surrogate.copy id).atDecision s.cycle
    { k with
      surrogate :=
        { k.surrogate with copies := Table.set k.surrogate.copies id ⟨enabled, gen, s.cycle, old.1, old.2⟩ } })

/-- The directory's ENABLED and GEN of a surrogate are on their way to every core of the context. -/
def State.tellCores (s : State) (ctx id : Nat) : State :=
  let e := (s.context ctx).entry id
  s.due ((s.cores.filter (fun k => k.2.ctx = some ctx)).map (fun k =>
    Instr.surrogateDisableArrival (Fin.ofNat 384 k.1) (Fin.ofNat 256 id) e.enabled e.gen))

/-- THRESH and WIN as they act (R354). -/
def Context.threshold (c : Context) : Nat := min c.vthresh 64
/-- WIN as it acts. -/
def Context.windowSize (c : Context) : Nat := max 1 (min c.vwin 64)

/-- How many of the newest samples of an entry are violations (R364, R369). -/
def DirectoryEntry.recent (e : DirectoryEntry) (win : Nat) : Nat :=
  ((List.range win).filter (fun i => e.window.getLsbD i)).length

/-! ### Errors and samples (R364) -/

/-- A − B exactly. -/
def Real.sub (x y : Real) : Real :=
  match x, y with
  | .nan b, _ => .nan b
  | _, .nan b => .nan b
  | .inf a, .inf b => if a = b then .nan false else .inf a
  | .inf a, _ => .inf a
  | _, .inf b => .inf (!b)
  | x, y =>
    let e := min x.exp y.exp
    let d := x.scaled e - y.scaled e
    .fin (d < 0) d.natAbs e

/-- The magnitude. -/
def Real.abs (x : Real) : Real :=
  match x with
  | .nan b => .nan b
  | .inf _ => .inf false
  | .fin _ m e => .fin false m e

/-- The error of one output: the surrogate's `s` against the exact `x`, absolute or relative (R364). -/
def outputError (relative : Bool) (s x : Word) : Word :=
  let k := f32Format
  let d := ((k.value s.toNat).sub (k.value x.toNat)).abs
  let w : Nat :=
    if !relative then (k.ofReal 0 d).1
    else
      match d, (k.value x.toNat).abs with
      | .nan _, _ => k.nan
      | .inf _, .inf _ => k.nan
      | .inf _, _ => k.inf false
      | .fin _ m _, .fin _ 0 _ => if m = 0 then 0 else k.inf false
      | .fin _ m e, .fin _ n f =>
        let sh := k.fbits + 4 + Nat.log2 n
        if m = 0 then 0 else (k.round 0 false (quotient m n sh) (e - f - sh - 1)).1
      | .fin _ _ _, _ => 0
  BitVec.ofNat 32 w

/-- The true error of a sample: the largest, or NaN (R364). -/
def trueError (relative : Bool) (ss xs : List Word) : Word :=
  let errs := (ss.zip xs).map (fun sx => outputError relative sx.1 sx.2)
  if errs.any (fun e => (f32Format.value e.toNat).isNaN) then 0x7FC00000
  else errs.foldl (fun acc e => if acc.toNat < e.toNat then e else acc) 0

/-- A sample as the directory entry records it, but for the disable (R364). -/
def DirectoryEntry.record (d : DirectoryEntry) (e bound : Word) : DirectoryEntry :=
  let nan := (f32Format.value e.toNat).isNaN
  let v : Bool := nan || (f32Format.compare 4 e.toNat bound.toNat).1
  { d with
    sampled := add48 d.sampled 1
    violations := if v then add48 d.violations 1 else d.violations
    errSum := if nan then d.errSum else BitVec.ofNat 32 (f32Format.add 0 d.errSum.toNat e.toNat).1
    errMax := if !nan && d.errMax.toNat < e.toNat then e else d.errMax
    window := (d.window <<< 1) ||| (if v then 1 else 0) }

/-- A sample is recorded at the directory; a violation that reaches THRESH disables the surrogate (R364, R365). -/
def State.recordSample (s : State) (x : SlipRecord) (exact : List Word) : State :=
  let s := s.modEntry x.ctx x.surrogate (fun d => d.record (trueError x.relative x.outputs exact) x.bound)
  let c := s.context x.ctx
  let d := c.entry x.surrogate
  if d.enabled && 1 ≤ c.threshold && c.threshold ≤ d.recent c.windowSize then
    let s := s.modEntry x.ctx x.surrogate (fun d => { d with enabled := false, gen := d.gen + 1 })
    (s.log 11 x.ctx (bytesOfNum 4 x.surrogate ++ bytesOfNum 4 (d.gen + 1).toNat)).tellCores x.ctx x.surrogate
  else s

/-! ### The end of a call (R358, R359) -/

/-- What srg.close does next. -/
inductive CloseStep where
  | wait
  | over
  | body (pc : DWord)
  deriving DecidableEq, Repr

/-- A group's call changed. -/
def State.modCall (s : State) (r : GroupRef) (f : SurrogateCall → SurrogateCall) : State :=
  s.modGroup r (fun g => { g with call := g.call.map f })

/-- The records of a group's call in the Slipway. -/
def State.callRecords (s : State) (r : GroupRef) : List SlipRecord :=
  (s.core r.core).surrogate.slipway.filter (fun x => x.slot = r.slot && !x.orphan)

/-- The state with the Slipway of a core changed. -/
def State.modSlipway (s : State) (core : Nat) (f : List SlipRecord → List SlipRecord) : State :=
  s.modCore core (fun k => { k with surrogate := { k.surrogate with slipway := f k.surrogate.slipway } })

/-- The free records of a Slipway (R360). -/
def State.slipRoom (s : State) (core : Nat) : Nat := 256 - (s.core core).surrogate.slipway.length

/-- Lanes of a register written now, after what is in flight to it (07 R165): no other register's write lands for it (07 R163). -/
def State.writeOver (s : State) (r : GroupRef) (reg : Reg) (mask : Mask) (vals : Lanes) : State :=
  (s.writeReg r reg mask vals).modGroup r (fun g => g.overtake reg mask)

/-- Exact outputs of a lane written to the output registers of a call; under U = 1 to every lane (R359; R357). -/
def State.writeOutputs (s : State) (r : GroupRef) (c : SurrogateCall) (lane : Nat) (outs : List Word) : State :=
  let mask := if c.uniform then allLanes else Mask.ofFn (fun l => l = lane)
  ((List.range outs.length).zip outs).foldl (fun s mo => s.writeOver r (.v (c.firstOut + mo.1)) mask (Lanes.splat mo.2)) s

/-- The call ends. -/
def State.endCall (s : State) (r : GroupRef) : State := s.modGroup r (fun g => { g with call := none })

/-- The group runs the body in its own lanes (R358). -/
def State.startBody (s : State) (r : GroupRef) (c : SurrogateCall) (lanes : Mask) : State × CloseStep :=
  ((s.modCall r (fun c => { c with state := .bodyRun, inPlaceLanes := lanes })).modGroup r (fun g => { g with em := lanes })
  , .body c.body)

/-- The record of a lane of a call (R360). -/
def State.slipRecord (s : State) (r : GroupRef) (c : SurrogateCall) (lane : Nat) (inputs outputs : List Word)
    (sample late relative : Bool) (bound : Word) : SlipRecord :=
  let a := s.attrs r
  { slot := r.slot, lane := lane, ctx := a.ctx, surrogate := c.surrogate, region := c.region, body := c.body
    firstIn := c.firstIn, firstOut := c.firstOut, numIn := c.numIn, numOut := c.numOut, strict := a.strict
    launch := a.launch, inputs := inputs, outputs := outputs, sample := sample, late := late, relative := relative
    bound := bound, entered := s.cycle, taken := none, deposited := false, orphan := false }

/-- The late lanes of a call become records with their inputs as they stand (R359). -/
def State.fallBack (s : State) (r : GroupRef) (c : SurrogateCall) (gen : Word) : State :=
  let s := s.settle r
  let new := c.trusted.lanes.map (fun l =>
    let ins := (List.range c.numIn).map (fun m => (s.readReg r (.v (c.firstIn + m))).at' l)
    s.slipRecord r c l ins (List.replicate c.numOut 0) false true false c.bound)
  (s.modSlipway r.core (fun q => q ++ new)).modCall r (fun c => { c with gen := gen })

/-- The outputs that a decision delivers return, if they have not yet (R357). -/
def State.landOutputs (s : State) (r : GroupRef) (c : SurrogateCall) : State :=
  match (s.group r).outstanding.find? (fun o => o.id = c.result) with
  | none => s
  | some o =>
    (o.regs.foldl (fun s x => s.writeOver r x.1 o.mask x.2) s).modGroup r (fun g =>
      { g with outstanding := g.outstanding.filter (fun x => x.id ≠ o.id) })

/-- Every record of an answered call is deposited: its outputs are merged and its generation compared (R359). -/
def State.mergeCall (s : State) (r : GroupRef) (c : SurrogateCall) : State × CloseStep :=
  let done := s.callRecords r
  let s := done.foldl (fun s x => s.writeOutputs r c x.lane x.outputs) (s.landOutputs r c)
  let s := s.modSlipway r.core (fun q => q.filter (fun x => x.slot ≠ r.slot || x.orphan))
  let c := { c with trusted := done.foldl (fun m x => m &&& ~~~(Mask.ofFn (fun l => l = x.lane))) c.trusted }
  let now := ((s.core r.core).surrogate.copy c.surrogate).gen
  if c.gen = now || c.trusted = 0 then (s.endCall r, .over)
  else
    let n := c.trusted.lanes.length
    let s := (s.modCall r (fun _ => c)).modEntry (s.attrs r).ctx c.surrogate (fun d => { d with late := add48 d.late n })
    if n ≤ s.slipRoom r.core then (s.fallBack r c now, .wait)
    else s.startBody r c c.trusted

/-- Every output register of a uniform call takes the gate lane's value, compressed or whole (R358). -/
def State.compressOutputs (s : State) (r : GroupRef) (c : SurrogateCall) : State :=
  let lane := c.lanes.lowest.getD 0
  (List.range c.numOut).foldl (fun s m =>
    let n := c.firstOut + m
    let v := Lanes.splat ((s.finalReg r (.v n)).at' lane)
    if n < 240 then
      s.modGroup r (fun g => { g.overtake (.v n) allLanes with v := Table.modify g.v n (fun _ => ⟨v, true⟩) })
    else s.writeOver r (.v n) allLanes v) s

/-- What the state of a group's call makes srg.close do (R358). -/
def State.closeCall (s : State) (r : GroupRef) : State × CloseStep :=
  match (s.group r).call with
  | none => (s, .over)
  | some c =>
    match c.state with
    | .deciding => (s, .wait)
    | .done => (s.endCall r, .over)
    | .inPlace => s.startBody r c c.inPlaceLanes
    | .bodyRun =>
      let s := if c.uniform then s.compressOutputs r c else s
      ((s.modGroup r (fun g => { g with em := c.emAtOpen })).endCall r, .over)
    | .answered => if (s.callRecords r).all (fun x => x.deposited) then s.mergeCall r c else (s, .wait)

/-- A group that waits at srg.close goes on, if its call now lets it (R358, R359). -/
def State.closeWaiting (s : State) (r : GroupRef) : State :=
  if (s.group r).status ≠ .waiting .srgClose then s
  else
    match s.closeCall r with
    | (s, .wait) => s
    | (s, .over) => s.finishWait r
    | (s, .body pc) => (s.modGroup r (fun g => { g with pc := alignTarget pc })).wake r

/-- srg.close of a calling group issues (R358). -/
def State.closeIssued (s : State) : State :=
  match s.closeCall s.issuing with
  | (s, .wait) => s.blockOn .srgClose
  | (s, .over) => s.yieldRun
  | (s, .body pc) => ((s.doneAt pc).modSelf Group.dropOperands).endRunReady s.issuing

/-! ### Deposits (R363) -/

/-- The records that a recovery group runs, with their lanes. -/
def State.recordsOf (s : State) (r : GroupRef) : List (Nat × SlipRecord) :=
  (s.core r.core).surrogate.slipway.filterMap (fun x =>
    match x.taken with
    | some (slot, lane) => if slot = r.slot then some (lane, x) else none
    | none => none)

/-- A record takes its exact outputs, if the recovery group in a slot runs it. -/
def SlipRecord.deposit (x : SlipRecord) (slot : Nat) (out : Nat → Nat → Word) : SlipRecord :=
  match x.taken with
  | some (t, lane) =>
    if t = slot then
      { x with outputs := (List.range x.numOut).map (out lane), taken := none, deposited := true }
    else x
  | none => x

/-- A recovery group ends: it deposits `out lane m` for each record, completes the calls that waited for them, has its
samples recorded, and leaves its slot (R363). A deposit for a killed origin is discarded. -/
def State.depositAll (s : State) (r : GroupRef) (out : Nat → Nat → Word) : State :=
  let mine := (s.recordsOf r).filter (fun x => !x.2.orphan)
  let s := s.modSlipway r.core (fun q =>
    (q.filter (fun x => !(x.orphan && x.taken.any (fun t => t.1 = r.slot)))).map (fun x => x.deposit r.slot out))
  let slots := (mine.map (fun x => x.2.slot)).eraseDups
  let s := slots.foldl (fun s slot => s.closeWaiting ⟨r.core, slot⟩) s
  let s := (mine.filter (fun x => x.2.sample)).foldl (fun s x =>
    s.recordSample x.2 ((List.range x.2.numOut).map (out x.1))) s
  (s.leaveBarrel r).modCore r.core (fun k => { k with groups := Table.erase k.groups r.slot })

/-- srg.close of a recovery group: the deposits are what its output registers hold in the file (R363; 07 R163). -/
def State.depositOwn (s : State) (rec : Recovery) : State :=
  let r := s.issuing
  s.depositAll r (fun lane m => (s.readReg r (.v (rec.firstOut + m))).at' lane)

end Sys2Proof.Machine
end

