-- ==== Sys2Proof/Machine/Sequencer.lean ====
section
/-! DEFINITION. The sequencer's instructions (10 R239-R260). -/

namespace Sys2Proof.Machine

/-! ### Control flow (R242) -/

/-- The signed byte offset that A holds. -/
def branchOffset (x : Issue) : DWord := ((laneVal x.a 0).setWidth 32).signExtend 64

/-- The instruction has issued, and goes on at an address. -/
def Issue.finishAt (x : Issue) (pc : DWord) : State := x.freed.doneAt pc

/-- An instruction of the sequencer without a result (R240). -/
def State.plainOp (s : State) (op : Op) (f : LongFields) (go : Issue → Attempt State) :
    Host.Outcome State Fault Refusal :=
  s.finish (do
    let x ← s.prepare op f
    go x)

/-- nop. -/
def State.nopOp (s : State) (f : LongFields) : Host.Outcome State Fault Refusal :=
  s.plainOp .nop f (fun x => .ok x.finishPlain)

/-- bra. -/
def State.braOp (s : State) (f : LongFields) : Host.Outcome State Fault Refusal :=
  s.plainOp .bra f (fun x => .ok (x.finishAt (x.s.self.pc + branchOffset x)))

/-- brx and ret: a 64-bit target. -/
def State.jumpOp (s : State) (op : Op) (f : LongFields) : Host.Outcome State Fault Refusal :=
  s.plainOp op f (fun x => .ok (x.finishAt (laneVal x.a 0)))

/-- call: the return address is in D before the next instruction issues, after every earlier write of D. -/
def State.callOp (s : State) (f : LongFields) : Host.Outcome State Fault Refusal :=
  s.plainOp .call f (fun x =>
    let r := x.s.issuing
    let legacy := (x.s.attrs r).decode ≠ 9
    let pc := x.s.self.pc + branchOffset x
    let next := x.s.self.nextPc
    let s := x.freed.modSelf (fun g =>
      { g.makeRoom legacy x.dest with inflight := g.inflight.filter (fun w => !x.dest.regs.contains w.reg) })
    let s := (x.dest.regs.zip (wordsOfLanes 2 (fun _ => next))).foldl (fun s d =>
      s.land r { due := s.cycle, reg := d.1, port := false, mask := allLanes, vals := d.2 }) s
    .ok (s.doneAt pc))

/-- The tested predicate of each lane, inverted by TN (R240). -/
def Group.tested (g : Group) (f : LongFields) : Mask :=
  let p := g.pred (f.modBits 13 11)
  if f.modBits 14 14 = 1 then ~~~p else p

/-- bany, ball and bnone: they branch on the tested predicate of the em lanes. -/
def State.predBranch (s : State) (op : Op) (f : LongFields) (taken : Mask → Mask → Bool) :
    Host.Outcome State Fault Refusal :=
  s.plainOp op f (fun x =>
    let g := x.s.self
    .ok (x.finishAt (if taken (g.tested f &&& g.em) g.em then g.pc + branchOffset x else g.nextPc)))

/-! ### Masks (R244) -/

/-- The mask M. -/
def Issue.maskOf (x : Issue) (f : LongFields) : Mask :=
  if f.modBits 15 15 = 1 then x.s.self.tested f else (laneVal x.a 0).setWidth 32

/-- emset, emand, emor and emnot: the old em goes to D, and em takes its new value before the next issue. -/
def State.emOp (s : State) (op : Op) (f : LongFields) (new : Mask → Mask → Mask) : Host.Outcome State Fault Refusal :=
  s.plainOp op f (fun x =>
    let old := x.s.self.em
    let m := x.maskOf f
    .ok ((x.finish op f [Lanes.splat old]).modSelf (fun g => { g with em := new old m })))

/-! ### Yield and sleep (R245) -/

/-- yield. -/
def State.yieldOp (s : State) (f : LongFields) : Host.Outcome State Fault Refusal :=
  s.plainOp .yield f (fun x => .ok x.s.yieldRun)

/-- sleep: stalled turns until the time has come. -/
def State.sleepOp (s : State) (f : LongFields) : Host.Outcome State Fault Refusal :=
  s.plainOp .sleep f (fun x =>
    match x.s.self.hold with
    | .sleep t => if t ≤ x.s.time then .ok x.finishPlain else .error (.stall (.sleep t))
    | _ =>
      let n := min ((laneVal x.a 0).setWidth 32).toNat 1000000
      if n = 0 then .ok x.finishPlain else .error (.stall (.sleep (x.s.time + n))))

/-! ### Barriers (R246, R247) -/

/-- The barrier number and the count field of EXT (R240). -/
def LongFields.barrierId (f : LongFields) : Nat := f.extBits 3 0
/-- The count field. -/
def LongFields.barrierCount (f : LongFields) : Nat := f.extBits 9 4

/-- The wait of bar and bar.wait for the instance at which the group last arrived. -/
def State.awaitBarrier (s : State) (id : Nat) : State :=
  s.takeUp (.barrier id ((Table.find s.self.arrivals id).getD 0))

/-- The wait that the issuing group takes up afresh, or else the instruction. -/
def State.resumeOr (s : State) (x : Host.Outcome State Fault Refusal) : Host.Outcome State Fault Refusal :=
  match s.self.resumeWait with
  | some w => .next (s.takeUp w)
  | none => x

/-- bar.arrive. -/
def State.barArriveOp (s : State) (f : LongFields) : Host.Outcome State Fault Refusal :=
  s.plainOp .barArrive f (fun x => do
    x.s.pure
    let t ← x.s.arrive (LongFields.barrierId f) (LongFields.barrierCount f)
    return t.done)

/-- bar. -/
def State.barOp (s : State) (f : LongFields) : Host.Outcome State Fault Refusal :=
  s.resumeOr (s.plainOp .bar f (fun x => do
    x.s.pure
    let t ← x.s.arrive (LongFields.barrierId f) (LongFields.barrierCount f)
    return t.awaitBarrier (LongFields.barrierId f)))

/-- bar.wait. -/
def State.barWaitOp (s : State) (f : LongFields) : Host.Outcome State Fault Refusal :=
  s.resumeOr (s.plainOp .barWait f (fun x => do
    x.s.pure
    check (Table.find x.s.self.arrivals (LongFields.barrierId f)).isSome .barrier
    return x.s.awaitBarrier (LongFields.barrierId f)))

/-! ### Berth waits (R248, R249) -/

/-- The mask that A holds, which names team berths only (01 R16). -/
def Issue.berthMask (x : Issue) : Attempt DWord := do
  let m := laneVal x.a 0
  check (x.s.berthMaskOk x.s.issuing m) .illegalOperand
  return m

/-- CN (R239). -/
def LongFields.consumes (f : LongFields) : Bool := f.modBits 16 16 = 1

/-- waitb.all and waitb.any. -/
def State.waitbOp (s : State) (op : Op) (f : LongFields) (wait : DWord → Wait) : Host.Outcome State Fault Refusal :=
  s.resumeOr (s.plainOp op f (fun x => do
    let m ← x.berthMask
    x.s.checkHeld x.s.issuing m
    return (x.s.modSelf (fun g => { g with waitMarks := x.marked, waitNU := x.oldNU })).takeUp (wait m)))

/-- ffb. -/
def State.ffbOp (s : State) (f : LongFields) : Host.Outcome State Fault Refusal :=
  s.plainOp .ffb f (fun x => do
    let m ← x.berthMask
    let r := x.s.issuing
    x.s.checkHeld r m
    let n := (x.s.readyBerths r m).head?
    let t := match n with
      | some n => if LongFields.consumes f then x.s.freeBerth r n else x.s
      | none => x.s
    return { x with s := t }.finish .ffb f [Lanes.splat (BitVec.ofNat 32 (n.getD 64))])

/-- bclr. -/
def State.bclrOp (s : State) (f : LongFields) : Host.Outcome State Fault Refusal :=
  s.plainOp .bclr f (fun x => do
    let m ← x.berthMask
    let r := x.s.issuing
    let t := (x.s.readyBerths r m).foldl (fun s n => s.freeBerth r n) x.s
    return { x with s := t }.finishPlain)

/-! ### Traps (R257, R258) -/

/-- trap, svc and brk raise their cause with the code in DETAIL; the frame records the next address. -/
def State.raiseOp (s : State) (op : Op) (f : LongFields) (c : Cause) : Host.Outcome State Fault Refusal :=
  s.plainOp op f (fun _ =>
    .error (.trap { Trap.plain c with detail := f.ext.setWidth 32, next := true }))

/-- brk: with a debugger attached it stops the team, and its own record holds the address after it. -/
def State.brkOp (s : State) (f : LongFields) : Host.Outcome State Fault Refusal :=
  if (s.context s.selfAttrs.ctx).debugger then
    s.plainOp .brk f (fun x =>
      let t := x.finishPlain
      .ok (if (t.teamOf t.issuing).isSome then (t.stopSibling t.issuing).stopTeam t.selfTeam else t))
  else s.raiseOp .brk f .breakpoint

/-! ### Exit (R260) -/

/-- A group's exit as its team sees it: the baton is passed, the barriers fall, and the last exit retires the team. -/
def State.leaveTeam (s : State) (t : TeamRef) (number : Nat) : State :=
  let s := s.modTeam t (fun x => if x.batonHolder = some number then x.passBaton s.cycle else x)
  let s := s.leaveBarriers t number
  match s.team? t with
  | none => s
  | some team =>
    if s.notExited t team = [] && team.ending = .no then s.modTeam t (fun x => { x with ending := .retire }) else s

/-- The group ends for good: its registers are free, its moored registers take what is in flight, and its PC stays at its exit. A recovery group that exits without its
srg.close has broken 15 R346, and its records take free values. -/
def State.exitGroup (s : State) (r : GroupRef) : State :=
  let g := s.group r
  let s := (s.modGroup r (fun g =>
    { g.dropOperands with
      status := .exited, v := [], poison := [], inflight := g.inflight.filter (fun w => w.reg.isMoored), run := 0, stall := 0, hold := .none, skidLeft := none
      resumeWait := none })).leaveBarrel r
  match g.kind with
  | .general => s.leaveTeam ⟨r.core, g.team⟩ g.number
  | .tug => s
  | .recovery =>
    let free := s.fresh
    s.useFresh.depositAll r (fun lane m => Config.word free (32 * m + lane))

/-- exit. -/
def State.exitOp (s : State) (f : LongFields) : Host.Outcome State Fault Refusal :=
  s.plainOp .exit f (fun x => .ok (x.s.exitGroup x.s.issuing))

/-! ### System registers (R250, R251) -/

/-- The system register's number. -/
def LongFields.sysNum (f : LongFields) : Nat := f.extBits 7 0
/-- Its index. -/
def LongFields.sysIndex (f : LongFields) : Nat := f.extBits 13 8

/-- The words of a system register's value for D; a per-lane register under U = 1 gives the gate lane's (07 R173). -/
def sysWords (v : SysValue) (u : Bool) (gate : Nat) : List Lanes :=
  match v with
  | .lanes x => [if u then splatFrom x gate else x]
  | .w32 x => [Lanes.splat x]
  | .w64 x => [Lanes.splat (x.setWidth 32), Lanes.splat ((x >>> 32).setWidth 32)]

/-- mrs: SP with every change of it by earlier instructions (R251). -/
def State.mrsOp (s : State) (f : LongFields) : Host.Outcome State Fault Refusal :=
  let num := LongFields.sysNum f
  s.plainOp .mrs f (fun x => do
    check (sysValid num (LongFields.sysIndex f)) .illegalOperand
    check (x.s.self.privilege.atLeast (sysReadNeeds num)) .privilege
    let g := x.s.self
    let v := if num = 0x04 then .w32 (BitVec.ofNat 32 g.spFinal) else x.s.sysRead x.s.issuing num (LongFields.sysIndex f)
    return x.finish .mrs f (sysWords v f.u g.gateLane))

/-- msr of sr.fpst: each lane of Active() takes its value; under U = 1 A is read once (DEDUCED, log entry 23). -/
def Issue.writeFpst (x : Issue) : Issue :=
  let v := x.a.headD Lanes.zero
  { x with
    s := x.s.modSelf (fun g =>
      { g with
        fpst := Lanes.ofFn (fun l =>
          if x.acts && x.flagLanes.lane l then v.at' l &&& 0x1F#32 else g.fpst.at' l) }) }

/-- msr. -/
def State.msrOp (s : State) (f : LongFields) : Host.Outcome State Fault Refusal :=
  let num := LongFields.sysNum f
  s.plainOp .msr f (fun x => do
    check (sysValid num (LongFields.sysIndex f)) .illegalOperand
    if num ≠ 0x01 && num ≠ 0x02 then x.s.pure
    check (x.s.self.privilege.atLeast (sysWriteNeeds num)) .privilege
    let y : Issue :=
      if num = 0x01 then x.writeFpst
      else if x.acts then { x with s := x.s.sysWrite x.s.issuing num (laneVal x.a 0) }
      else x
    return y.finishPlain)

/-! ### The meanings -/

/-- nop, short. -/
def execNopShort (f : ShortFields) (s : State) : Host.Outcome State Fault Refusal :=
  s.nopOp (f.widen .nop)
/-- nop. -/
def execNopLong (f : LongFields) (s : State) : Host.Outcome State Fault Refusal :=
  s.nopOp f
/-- bra, short. -/
def execBraShort (f : ShortFields) (s : State) : Host.Outcome State Fault Refusal :=
  s.braOp (f.widen .bra)
/-- bra. -/
def execBraLong (f : LongFields) (s : State) : Host.Outcome State Fault Refusal :=
  s.braOp f
/-- brx, short. -/
def execBrxShort (f : ShortFields) (s : State) : Host.Outcome State Fault Refusal :=
  s.jumpOp .brx (f.widen .brx)
/-- brx. -/
def execBrxLong (f : LongFields) (s : State) : Host.Outcome State Fault Refusal :=
  s.jumpOp .brx f
/-- call, short. -/
def execCallShort (f : ShortFields) (s : State) : Host.Outcome State Fault Refusal :=
  s.callOp (f.widen .call)
/-- call. -/
def execCallLong (f : LongFields) (s : State) : Host.Outcome State Fault Refusal :=
  s.callOp f
/-- ret, short. -/
def execRetShort (f : ShortFields) (s : State) : Host.Outcome State Fault Refusal :=
  s.jumpOp .ret (f.widen .ret)
/-- ret. -/
def execRetLong (f : LongFields) (s : State) : Host.Outcome State Fault Refusal :=
  s.jumpOp .ret f
/-- bany, short. -/
def execBanyShort (f : ShortFields) (s : State) : Host.Outcome State Fault Refusal :=
  s.predBranch .bany (f.widen .bany) (fun t _ => t ≠ 0)
/-- bany. -/
def execBanyLong (f : LongFields) (s : State) : Host.Outcome State Fault Refusal :=
  s.predBranch .bany f (fun t _ => t ≠ 0)
/-- ball, short. -/
def execBallShort (f : ShortFields) (s : State) : Host.Outcome State Fault Refusal :=
  s.predBranch .ball (f.widen .ball) (fun t em => t = em)
/-- ball. -/
def execBallLong (f : LongFields) (s : State) : Host.Outcome State Fault Refusal :=
  s.predBranch .ball f (fun t em => t = em)
/-- bnone, short. -/
def execBnoneShort (f : ShortFields) (s : State) : Host.Outcome State Fault Refusal :=
  s.predBranch .bnone (f.widen .bnone) (fun t _ => t = 0)
/-- bnone. -/
def execBnoneLong (f : LongFields) (s : State) : Host.Outcome State Fault Refusal :=
  s.predBranch .bnone f (fun t _ => t = 0)
/-- emset, short. -/
def execEmsetShort (f : ShortFields) (s : State) : Host.Outcome State Fault Refusal :=
  s.emOp .emset (f.widen .emset) (fun _ m => m)
/-- emset. -/
def execEmsetLong (f : LongFields) (s : State) : Host.Outcome State Fault Refusal :=
  s.emOp .emset f (fun _ m => m)
/-- emand, short. -/
def execEmandShort (f : ShortFields) (s : State) : Host.Outcome State Fault Refusal :=
  s.emOp .emand (f.widen .emand) (fun em m => em &&& m)
/-- emand. -/
def execEmandLong (f : LongFields) (s : State) : Host.Outcome State Fault Refusal :=
  s.emOp .emand f (fun em m => em &&& m)
/-- emor, short. -/
def execEmorShort (f : ShortFields) (s : State) : Host.Outcome State Fault Refusal :=
  s.emOp .emor (f.widen .emor) (fun em m => em ||| m)
/-- emor. -/
def execEmorLong (f : LongFields) (s : State) : Host.Outcome State Fault Refusal :=
  s.emOp .emor f (fun em m => em ||| m)
/-- emnot, short. -/
def execEmnotShort (f : ShortFields) (s : State) : Host.Outcome State Fault Refusal :=
  s.emOp .emnot (f.widen .emnot) (fun em m => em &&& ~~~m)
/-- emnot. -/
def execEmnotLong (f : LongFields) (s : State) : Host.Outcome State Fault Refusal :=
  s.emOp .emnot f (fun em m => em &&& ~~~m)
/-- yield, short. -/
def execYieldShort (f : ShortFields) (s : State) : Host.Outcome State Fault Refusal :=
  s.yieldOp (f.widen .yield)
/-- yield. -/
def execYieldLong (f : LongFields) (s : State) : Host.Outcome State Fault Refusal :=
  s.yieldOp f
/-- bar, short. -/
def execBarShort (f : ShortFields) (s : State) : Host.Outcome State Fault Refusal :=
  s.barOp (f.widen .bar)
/-- bar. -/
def execBarLong (f : LongFields) (s : State) : Host.Outcome State Fault Refusal :=
  s.barOp f
/-- bar.arrive, short. -/
def execBarArriveShort (f : ShortFields) (s : State) : Host.Outcome State Fault Refusal :=
  s.barArriveOp (f.widen .barArrive)
/-- bar.arrive. -/
def execBarArriveLong (f : LongFields) (s : State) : Host.Outcome State Fault Refusal :=
  s.barArriveOp f
/-- bar.wait, short. -/
def execBarWaitShort (f : ShortFields) (s : State) : Host.Outcome State Fault Refusal :=
  s.barWaitOp (f.widen .barWait)
/-- bar.wait. -/
def execBarWaitLong (f : LongFields) (s : State) : Host.Outcome State Fault Refusal :=
  s.barWaitOp f
/-- waitb.all, short. -/
def execWaitbAllShort (f : ShortFields) (s : State) : Host.Outcome State Fault Refusal :=
  s.waitbOp .waitbAll (f.widen .waitbAll) (fun m => .berthsAll m (LongFields.consumes (f.widen .waitbAll)))
/-- waitb.all. -/
def execWaitbAllLong (f : LongFields) (s : State) : Host.Outcome State Fault Refusal :=
  s.waitbOp .waitbAll f (fun m => .berthsAll m (LongFields.consumes f))
/-- waitb.any, short. -/
def execWaitbAnyShort (f : ShortFields) (s : State) : Host.Outcome State Fault Refusal :=
  s.waitbOp .waitbAny (f.widen .waitbAny) .berthsAny
/-- waitb.any. -/
def execWaitbAnyLong (f : LongFields) (s : State) : Host.Outcome State Fault Refusal :=
  s.waitbOp .waitbAny f .berthsAny
/-- ffb, short. -/
def execFfbShort (f : ShortFields) (s : State) : Host.Outcome State Fault Refusal :=
  s.ffbOp (f.widen .ffb)
/-- ffb. -/
def execFfbLong (f : LongFields) (s : State) : Host.Outcome State Fault Refusal :=
  s.ffbOp f
/-- bclr, short. -/
def execBclrShort (f : ShortFields) (s : State) : Host.Outcome State Fault Refusal :=
  s.bclrOp (f.widen .bclr)
/-- bclr. -/
def execBclrLong (f : LongFields) (s : State) : Host.Outcome State Fault Refusal :=
  s.bclrOp f
/-- trap, short. -/
def execTrapShort (f : ShortFields) (s : State) : Host.Outcome State Fault Refusal :=
  s.raiseOp .trap (f.widen .trap) .software
/-- trap. -/
def execTrapLong (f : LongFields) (s : State) : Host.Outcome State Fault Refusal :=
  s.raiseOp .trap f .software
/-- svc, short. -/
def execSvcShort (f : ShortFields) (s : State) : Host.Outcome State Fault Refusal :=
  s.raiseOp .svc (f.widen .svc) .svc
/-- svc. -/
def execSvcLong (f : LongFields) (s : State) : Host.Outcome State Fault Refusal :=
  s.raiseOp .svc f .svc
/-- exit, short. -/
def execExitShort (f : ShortFields) (s : State) : Host.Outcome State Fault Refusal :=
  s.exitOp (f.widen .exit)
/-- exit. -/
def execExitLong (f : LongFields) (s : State) : Host.Outcome State Fault Refusal :=
  s.exitOp f
/-- sleep, short. -/
def execSleepShort (f : ShortFields) (s : State) : Host.Outcome State Fault Refusal :=
  s.sleepOp (f.widen .sleep)
/-- sleep. -/
def execSleepLong (f : LongFields) (s : State) : Host.Outcome State Fault Refusal :=
  s.sleepOp f
/-- msr, short. -/
def execMsrShort (f : ShortFields) (s : State) : Host.Outcome State Fault Refusal :=
  s.msrOp (f.widen .msr)
/-- msr. -/
def execMsrLong (f : LongFields) (s : State) : Host.Outcome State Fault Refusal :=
  s.msrOp f
/-- mrs, short. -/
def execMrsShort (f : ShortFields) (s : State) : Host.Outcome State Fault Refusal :=
  s.mrsOp (f.widen .mrs)
/-- mrs. -/
def execMrsLong (f : LongFields) (s : State) : Host.Outcome State Fault Refusal :=
  s.mrsOp f
/-- brk, short. -/
def execBrkShort (f : ShortFields) (s : State) : Host.Outcome State Fault Refusal :=
  s.brkOp (f.widen .brk)
/-- brk. -/
def execBrkLong (f : LongFields) (s : State) : Host.Outcome State Fault Refusal :=
  s.brkOp f
/-- tret, short (R257). -/
def execTretShort (_f : ShortFields) (s : State) : Host.Outcome State Fault Refusal := .next (s.trapReturn false)
/-- tret (R257). -/
def execTretLong (_f : LongFields) (s : State) : Host.Outcome State Fault Refusal := .next (s.trapReturn false)
/-- tret.kill (R257). -/
def execTretKill (_f : LongFields) (s : State) : Host.Outcome State Fault Refusal := .next (s.trapReturn true)

end Sys2Proof.Machine
end

