-- ==== Sys2Proof/Machine/SurrogateImage.lean ====
section
/-! DEFINITION. Surrogate images: their header, its checks, and the evaluation of surrogates and predictors (15
R347-R351). -/

namespace Sys2Proof.Machine

/-! ### The header (R347) -/

/-- The fields of an image's header. -/
structure Image where
  kind : Nat
  nin : Nat
  nout : Nat
  nl : Nat
  widths : List Nat
  acts : List Nat
  etype : Nat
  errmode : Nat
  sampk : Nat
  pwidth : Nat
  pin : Nat
  size : Nat
  loff : Nat
  poff : Nat
  npts : List Nat
  origin : List Word
  inverse : List Word
  deriving DecidableEq, Repr

/-- `n` little-endian bytes at an offset of an image. -/
def imageNum (b : Nat → Byte) (off n : Nat) : Nat := numOfBytes ((List.range n).map (fun i => b (off + i)))

/-- The header of an image. -/
def imageOf (b : Nat → Byte) : Image :=
  let byte (off : Nat) : Nat := imageNum b off 1
  let four (off : Nat) : List Nat := (List.range 4).map (fun i => byte (off + i))
  let words (off : Nat) : List Word := (List.range 4).map (fun i => BitVec.ofNat 32 (imageNum b (off + 4 * i) 4))
  { kind := byte 4, nin := byte 5, nout := byte 6, nl := byte 7, widths := four 8, acts := four 12, etype := byte 16
    errmode := byte 17, sampk := byte 18, pwidth := byte 19, pin := byte 20, size := imageNum b 0x18 4
    loff := imageNum b 0x1C 4, poff := imageNum b 0x20 4, npts := four 0x24, origin := words 0x30, inverse := words 0x40 }

/-- The in-width of layer `l` of an MLP (R348). -/
def Image.inWidth (x : Image) (l : Nat) : Nat := if l = 0 then x.nin else x.widths.getD (l - 1) 0

/-- The bytes of layer `l`. -/
def Image.layerBytes (x : Image) (l : Nat) : Nat := 2 * (x.inWidth l * x.widths.getD l 0 + x.widths.getD l 0)

/-- A number rounded up to a multiple of 16. -/
def upTo16 (n : Nat) : Nat := (n + 15) / 16 * 16

/-- The offset of layer `l` (R348). -/
def Image.layerOff (x : Image) (l : Nat) : Nat :=
  match l with
  | 0 => x.loff
  | n + 1 => upTo16 (x.layerOff n + x.layerBytes n)

/-- The grid points of a table. -/
def Image.points (x : Image) : Nat := (x.npts.take x.nl).foldl (· * ·) 1

/-- The end of the layer data or of the table entries. -/
def Image.dataEnd (x : Image) : Nat :=
  if x.kind = 2 then x.loff + x.nout * x.points * (if x.etype = 11 then 2 else 4)
  else x.layerOff (x.nl - 1) + x.layerBytes (x.nl - 1)

/-- J, the predictor's inputs (R351). -/
def Image.predictorIns (x : Image) : Nat := x.nin + if x.pin = 1 then x.nout else 0

/-- The end of the predictor data. -/
def Image.predictorEnd (x : Image) : Nat := x.poff + 2 * (x.predictorIns * x.pwidth + 2 * x.pwidth + 1)

/-- Is SIZE one that an image may have? -/
def Image.sizeOk (x : Image) : Bool := x.size % 128 = 0 && 256 ≤ x.size && x.size ≤ 262144

/-- Are the bytes of a range 0? -/
def zeroBytes (b : Nat → Byte) (lo hi : Nat) : Bool := (List.range (hi - lo)).all (fun i => b (lo + i) = 0)

/-- Are the fields of an MLP within R347? -/
def Image.mlpOk (x : Image) : Bool :=
  1 ≤ x.nin && x.nin ≤ 8 && 1 ≤ x.nout && x.nout ≤ 8 && 1 ≤ x.nl && x.nl ≤ 4 && x.etype = 0
    && (x.widths.take x.nl).all (fun w => 1 ≤ w && w ≤ 64) && x.widths.getD (x.nl - 1) 0 = x.nout
    && (x.widths.drop x.nl).all (fun w => w = 0) && (x.acts.take x.nl).all (fun a => a ≤ 3)
    && (x.acts.drop x.nl).all (fun a => a = 0)

/-- Are the fields of a table within R347? -/
def Image.tableOk (x : Image) : Bool :=
  1 ≤ x.nin && x.nin ≤ 4 && 1 ≤ x.nout && x.nout ≤ 4 && x.nl = x.nin && (x.etype = 11 || x.etype = 9)
    && x.widths.all (fun w => w = 0) && x.acts.all (fun a => a = 0)
    && (x.npts.take x.nl).all (fun n => 2 ≤ n && n ≤ 64) && (x.npts.drop x.nl).all (fun n => n = 0)

/-- Is the header within R347 to R351? -/
def Image.valid (x : Image) (b : Nat → Byte) : Bool :=
  imageNum b 0 4 = 0x47535249 && (if x.kind = 1 then x.mlpOk else x.kind = 2 && x.tableOk)
    && x.errmode ≤ 1 && x.sampk ≤ 15 && 1 ≤ x.pwidth && x.pwidth ≤ 16 && x.pin ≤ 1 && x.sizeOk
    && x.loff % 16 = 0 && x.poff % 16 = 0 && zeroBytes b 0x15 0x18 && zeroBytes b 0x28 0x30 && zeroBytes b 0x50 0x80
    && 128 ≤ x.loff && x.dataEnd ≤ x.size && 128 ≤ x.poff && x.predictorEnd ≤ x.size
    && (x.dataEnd ≤ x.poff || x.predictorEnd ≤ x.loff)

/-! ### Evaluation (R348-R351) -/

/-- An f16 of an image, widened exactly. -/
def imageHalf (b : Nat → Byte) (off : Nat) : Word :=
  BitVec.ofNat 32 (f32Format.ofReal 0 ((floatFormat 11).value (imageNum b off 2))).1

/-- The steps of R348: one rounding each, the index ascending. -/
def imageDot (b : Nat → Byte) (acc : Word) (off : Nat) (xs : List Word) : Word :=
  ((List.range xs.length).zip xs).foldl (fun acc ix =>
    BitVec.ofNat 32 (f32Format.fma 0 (imageHalf b (off + 2 * ix.1)).toNat ix.2.toNat acc.toNat).1) acc

/-- e^y as an approximation, for y from 0 to 64. -/
def fixExpOf (y : Int) : Int :=
  let a := y * fixOne / fixLn2
  let i := a / fixOne
  fixExp (fixMul (a - i * fixOne) fixLn2) * (2 ^ i.toNat : Nat)

/-- tanh or the sigmoid of a finite value as an approximation. -/
def smoothApprox (sigmoid neg : Bool) (m : Nat) (e : Int) : Int :=
  let y := min (fixOf m (min e 64)) (32 * fixOne)
  if sigmoid then
    let x := fixExpOf y
    let up := x * fixOne / (x + fixOne)
    if neg then fixOne - up else up
  else
    let x := fixExpOf (2 * y)
    let t := (x - fixOne) * fixOne / (x + fixOne)
    if neg then -t else t

/-- A computed tanh or sigmoid: a fixed value within 2^-11, which the spec leaves open (R349). -/
def smoothValue (sigmoid : Bool) (y : Word) (neg : Bool) (m : Nat) (e : Int) : Word :=
  let exact := smoothApprox sigmoid neg m e
  let z := Config.special (if sigmoid then 7 else 6) y
  let near : Bool :=
    match f32Format.value z.toNat with
    | .fin zn zm ze => (fixOfSigned zn zm ze - exact).natAbs ≤ 2 ^ (fixBits - 11)
    | _ => false
  if near then z
  else if exact = 0 then 0
  else BitVec.ofNat 32 (f32Format.round 0 (exact < 0) exact.natAbs (-fixBits)).1

/-- An activation (R349). -/
def activate (a : Nat) (y : Word) : Word :=
  match a with
  | 0 => y
  | 1 => BitVec.ofNat 32 (f32Format.minMax true y.toNat 0).1
  | a =>
    let sigmoid := a = 3
    match f32Format.value y.toNat with
    | .nan _ => 0x7FC00000
    | .inf neg => if sigmoid then if neg then 0 else 0x3F800000 else if neg then 0xBF800000 else 0x3F800000
    | .fin neg m e => if m = 0 then if sigmoid then 0x3F000000 else y else smoothValue sigmoid y neg m e

/-- The layers of an MLP from layer `l` on (R348). -/
def Image.layers (x : Image) (b : Nat → Byte) (n l : Nat) (h : List Word) : List Word :=
  match n with
  | 0 => h
  | n + 1 =>
    let at_ := x.layerOff l
    let ins := x.inWidth l
    let outs := x.widths.getD l 0
    let g := (List.range outs).map (fun o =>
      activate (x.acts.getD l 0)
        (imageDot b (imageHalf b (at_ + 2 * (ins * outs + o))) (at_ + 2 * ins * o) (h.take ins)))
    x.layers b n (l + 1) g

/-- Where a coordinate lies in a dimension of a table (R350): the lower grid point and the exact fraction. -/
def Image.place (x : Image) (d : Nat) (v : Word) : Nat × Real :=
  let k := f32Format
  let top := x.npts.getD d 2 - 1
  let diff := (k.value v.toNat).sub (k.value (x.origin.getD d 0).toNat)
  let prod := (diff.mul (k.value (x.inverse.getD d 0).toNat)).getD (.nan false)
  match k.value (k.ofReal 0 prod).1 with
  | .nan _ => (0, .fin false 0 0)
  | .inf neg => if neg then (0, .fin false 0 0) else (top - 1, .fin false 1 0)
  | .fin neg m e =>
    if neg || m = 0 then (0, .fin false 0 0)
    else
      let n := (splitAt m e 0).1
      if top ≤ n then (top - 1, .fin false 1 0)
      else if 0 ≤ e then (n, .fin false 0 0)
      else (n, .fin false (m % 2 ^ (-e).toNat) e)

/-- An entry of a table, widened exactly (R350). -/
def Image.entry (x : Image) (b : Nat → Byte) (n : Nat) : Word :=
  if x.etype = 11 then imageHalf b (x.loff + 2 * n) else BitVec.ofNat 32 (imageNum b (x.loff + 4 * n) 4)

/-- One output of a table (R350). -/
def Image.tableOut (x : Image) (b : Nat → Byte) (ps : List (Nat × Real)) (o : Nat) : Word :=
  let k := f32Format
  let dims := List.range x.nl
  (List.range (2 ^ x.nl)).foldl (fun (acc : Word) c =>
    let wt := dims.foldl (fun (wt : Nat) d =>
      let p := ps.getD d (0, .fin false 0 0)
      let f := if c.testBit d then p.2 else (Real.fin false 1 0).sub p.2
      (k.ofReal 0 (((k.value wt).mul f).getD (.nan false))).1) 0x3F800000
    let place := dims.foldl (fun (st : Nat × Nat) d =>
      let g := (ps.getD d (0, .fin false 0 0)).1 + if c.testBit d then 1 else 0
      (st.1 + g * st.2, st.2 * x.npts.getD d 1)) (0, 1)
    BitVec.ofNat 32 (k.fma 0 wt (x.entry b (x.nout * place.1 + o)).toNat acc.toNat).1) 0

/-- The surrogate of one lane (R348, R350). -/
def Image.outputs (x : Image) (b : Nat → Byte) (ins : List Word) : List Word :=
  if x.kind = 2 then
    let ps := (List.range x.nl).map (fun d => x.place d (ins.getD d 0))
    (List.range x.nout).map (x.tableOut b ps)
  else x.layers b x.nl 0 ins

/-- The predicted error of one lane (R351). -/
def Image.predict (x : Image) (b : Nat → Byte) (ins outs : List Word) : Word :=
  let input := ins ++ if x.pin = 1 then outs else []
  let j := x.predictorIns
  let h := x.pwidth
  let biases := x.poff + 2 * j * h
  let hidden := (List.range h).map (fun i =>
    activate 1 (imageDot b (imageHalf b (biases + 2 * i)) (x.poff + 2 * j * i) input))
  imageDot b (imageHalf b (biases + 4 * h)) (biases + 2 * h) hidden

end Sys2Proof.Machine
end

