-- ==== Sys2Proof/Machine/Surrogate.lean ====
section
/-! DEFINITION. The surrogate engine: its queue, decisions, loads, recovery groups and instructions (15). -/

namespace Sys2Proof.Machine

/-! ### The queue (R356, R357, R367) -/

/-- The surrogate queue of a core changed. -/
def State.modSurrogate (s : State) (core : Nat) (f : SurrogateEngine → SurrogateEngine) : State :=
  s.modCore core (fun k => { k with surrogate := f k.surrogate })

/-- An entry joins the queue; its step is due. -/
def State.enterSurrogate (s : State) (core : Nat) (e : SurrogateEntry) (step : Instr) : State :=
  (s.modSurrogate core (fun k => { k with queue := k.queue ++ [e] })).due [step]

/-- The entry at the head leaves the queue. -/
def State.popSurrogate (s : State) (core : Nat) : State := s.modSurrogate core (fun k => { k with queue := k.queue.drop 1 })

/-- The window offset of the surrogate store (01 R23). -/
def storeBase : Nat := 0x05000000

/-- The bytes of a resident image. -/
def Core.imageByte (k : Core) (off i : Nat) : Byte := Memory.read k.win (storeBase + off + i)

/-! ### Decisions (R357) -/

/-- The lanes of a decision: for each, its inputs, the surrogate's outputs, and whether the predictor accepts it. -/
structure Decided where
  lane : Nat
  ins : List Word
  outs : List Word
  accepted : Bool
  deriving DecidableEq, Repr

/-- The lanes sampled, with the count after them: one accepted lane in 2^SAMPK (R357). -/
def sampled (sampk : Nat) (t : Word) (ls : List Nat) : Word × List Nat :=
  match ls with
  | [] => (t, [])
  | l :: rest =>
    let more := sampled sampk (t + 1) rest
    (more.1, if sampk < 15 && t.toNat % 2 ^ sampk = 2 ^ sampk - 1 then l :: more.2 else more.2)

/-- A pending result of a group changed. -/
def State.modResult (s : State) (r : GroupRef) (id : Nat) (f : Outstanding → Outstanding) : State :=
  s.modGroup r (fun g => { g with outstanding := g.outstanding.map (fun o => if o.id = id then f o else o) })

/-- The pending bits of a call's outputs clear without a write. -/
def State.dropResult (s : State) (r : GroupRef) (id : Nat) : State :=
  s.modGroup r (fun g => { g with outstanding := g.outstanding.filter (fun o => o.id ≠ id) })

/-- Mode B (R357): every lane of the call runs in place. -/
def State.decideInPlace (s : State) (r : GroupRef) (c : SurrogateCall) : State :=
  let n := c.lanes.lanes.length
  let s := s.modEntry (s.attrs r).ctx c.surrogate (fun d => { d with resFb := add48 d.resFb n })
  ((s.dropResult r c.result).modCall r (fun c => { c with state := .inPlace, inPlaceLanes := c.lanes })).closeWaiting r

/-- Mode A (R357): the accepted lanes take their outputs, and the rejected and sampled ones enter the Slipway. A group that waits
at srg.close with no record is compared as the cycle ends, after every disable of the cycle (R372). -/
def State.decideAnswered (s : State) (r : GroupRef) (c : SurrogateCall) (xs : List Decided) (smp : List Nat) (t gen : Word)
    (relative : Bool) (bound : Word) : State :=
  let acc := xs.filter (·.accepted)
  let mask := Mask.ofFn (fun l => acc.any (fun x => x.lane = l))
  let word (m l : Nat) : Word := ((xs.find? (fun x => x.lane = l)).map (fun x => x.outs.getD m 0)).getD 0
  let gate := c.lanes.lowest.getD 0
  let s := s.modSurrogate r.core (fun k => { k with count := t })
  let s := s.modEntry (s.attrs r).ctx c.surrogate (fun d =>
    { d with accepted := add48 d.accepted acc.length, rejected := add48 d.rejected (xs.length - acc.length) })
  let s := if acc = [] then s.dropResult r c.result
    else
      (s.modResult r c.result (fun o =>
        { o with
          mask := if c.uniform then allLanes else mask
          regs := (List.range c.numOut).map (fun m =>
            (Reg.v (c.firstOut + m), if c.uniform then Lanes.splat (word m gate) else Lanes.ofFn (word m))) })).due
        [Instr.loadReturn r c.result]
  let new := (xs.filter (fun x => !x.accepted || smp.contains x.lane)).map (fun x =>
    s.slipRecord r c x.lane x.ins (if x.accepted then x.outs else List.replicate c.numOut 0) x.accepted false relative bound)
  let s := s.modSlipway r.core (fun q => q ++ new)
  let trusted := Mask.ofFn (fun l => mask.lane l && !smp.contains l)
  s.modCall r (fun c => { c with state := .answered, gen := gen, trusted := trusted, bound := bound })

/-- The call of the group in a slot is decided (R357). -/
def State.decideCall (s : State) (r : GroupRef) (inputs : List Lanes) : State :=
  match (s.group r).call with
  | none => s
  | some c =>
    if c.state ≠ .deciding then s
    else
      let ctx := (s.attrs r).ctx
      let s := s.modEntry ctx c.surrogate (fun d => { d with calls := add48 d.calls c.lanes.lanes.length })
      let k := s.core r.core
      let copy := (k.surrogate.copy c.surrogate).atDecision s.cycle
      match Table.find k.surrogate.resident c.surrogate with
      | none => s.decideInPlace r c
      | some (off, _) =>
        let b (i : Nat) : Byte := k.imageByte off i
        let x := imageOf b
        if !copy.1 || x.nin ≠ c.numIn || x.nout ≠ c.numOut then s.decideInPlace r c
        else
          let bound := (s.context ctx).qbound.getD c.region 0
          let xs := c.lanes.lanes.map (fun l =>
            let ins := inputs.map (fun w => w.at' l)
            let outs := x.outputs b ins
            ({ lane := l, ins := ins, outs := outs
               accepted := (f32Format.compare 3 (x.predict b ins outs).toNat bound.toNat).1 } : Decided))
          let acc := xs.filter (·.accepted)
          let smp := sampled x.sampk k.surrogate.count (acc.map (·.lane))
          if s.slipRoom r.core < (xs.length - acc.length) + smp.2.length then s.decideInPlace r c
          else s.decideAnswered r c xs smp.2 smp.1 copy.2 (x.errmode = 1) bound

/-- An image leaves the store (R367); bytes that no image holds read as 0 (R352). -/
def Core.evictImage (k : Core) (id : Nat) : Core :=
  match Table.find k.surrogate.resident id with
  | none => k
  | some (off, size) =>
    { k with
      win := Memory.clear k.win (storeBase + off) (storeBase + off + size)
      surrogate := { k.surrogate with resident := Table.erase k.surrogate.resident id } }

/-- The call or the srg.evict at the head of the queue is performed; behind an srg.load it waits. -/
def State.surrogateDecision (s : State) (core : Nat) : State :=
  match (s.core core).surrogate.queue with
  | .call slot inputs :: _ => (s.popSurrogate core).decideCall ⟨core, slot⟩ inputs
  | .evict _ id :: _ => (s.popSurrogate core).modCore core (fun k => k.evictImage id)
  | q =>
    if q.any (fun e => match e with | .load _ _ _ _ _ _ _ _ => false | _ => true) then
      s.due [Instr.surrogateDecision (Fin.ofNat 384 core)]
    else s

/-! ### Loads (R352, R367) -/

/-- The lowest free run of the store for an image (R352). -/
def SurrogateEngine.freeRun (k : SurrogateEngine) (size : Nat) : Option Nat :=
  ((List.range 256).map (1024 * ·)).find? (fun off =>
    off + size ≤ 0x40000 && k.resident.all (fun e => !overlap (off, size) (e.2.1, e.2.2)))

/-- A byte of an image: one of a line with an uncorrectable error is a free value (20 R454; log entry 27). -/
def State.imageByte (s : State) (p : Spot) : Byte := if s.spotPoison [p] then s.soundByte p else s.engineByte p

/-- The bytes of an image as srg.load reads them: the header, then the rest; none when the header gives no SIZE. -/
def fetchImage (w : EngineAs) (addr : DWord) : Engine (Option (List Byte)) := do
  let ps ← engineSpots w .read addr 128
  let s ← get
  let h := ps.map s.imageByte
  let x := imageOf (fun i => h.getD i 0)
  if !x.sizeOk then return none
  let ps ← engineSpots w .read (addr + 128) (x.size - 128)
  let s ← get
  return some (h ++ ps.map s.imageByte)

/-- An image that has been read is placed in the store, with its status (R352, R367). -/
def State.placeImage (s : State) (core id : Nat) (bs : Option (List Byte)) : State × Nat :=
  match bs with
  | none => (s, 3)
  | some bs =>
    let arr := bs.toArray
    let b (i : Nat) : Byte := arr.getD i 0
    let x := imageOf b
    let k := (s.core core).surrogate
    if !x.valid b then (s, 3)
    else if 16 ≤ k.resident.length then (s, 2)
    else
      match k.freeRun x.size with
      | none => (s, 2)
      | some off =>
        let s := s.modCore core (fun k => { k with win := Memory.writeBytes k.win (storeBase + off) bs })
        (s.modSurrogate core (fun k => { k with resident := Table.set k.resident id (off, x.size) }), 0)

/-- The status of an srg.load is written: D takes it at its return. -/
def State.loadStatus (s : State) (r : GroupRef) (result status : Nat) : State :=
  ((s.popSurrogate r.core).modResult r result (fun o =>
    { o with regs := o.regs.map (fun x => (x.1, Lanes.splat (BitVec.ofNat 32 status))) })).due [Instr.loadReturn r result]

/-- The srg.load at the head of the queue is performed (R367): statuses in their order. A page that is not present is
asked for on the host path. -/
def State.srgLoadComplete (s : State) (core : Nat) : State :=
  let again := Instr.srgLoadComplete (Fin.ofNat 384 core)
  match (s.core core).surrogate.queue with
  | .load slot result id addr ctx user awaits refused :: rest =>
    let r : GroupRef := ⟨core, slot⟩
    if addr.toNat % 128 ≠ 0 then s.loadStatus r result 3
    else if (Table.find (s.core core).surrogate.resident id).isSome then s.loadStatus r result 1
    else if refused then s.loadStatus r result 4
    else
      let w : EngineAs := { core := core, ctx := ctx, user := user, sys := slot = 15, physical := false }
      match (fetchImage w addr).run s with
      | (.ok bs, t) =>
        let x := t.placeImage core id bs
        x.1.loadStatus r result x.2
      | (.error (.again none _), t) => t.due [again]
      | (.error (.again (some page) _), t) =>
        let t := if awaits = some page then t else t.requestPage ctx page none none
        (t.modSurrogate core (fun k =>
          { k with queue := .load slot result id addr ctx user (some page) refused :: rest })).due [again]
      | (.error (.fault _ _), t) => t.loadStatus r result 4
  | q =>
    if q.any (fun e => match e with | .load _ _ _ _ _ _ _ _ => true | _ => false) then s.due [again] else s

/-! ### Recovery groups (R361, R362) -/

/-- Have two records one key (R360)? -/
def SlipRecord.sameKey (x y : SlipRecord) : Bool :=
  x.ctx = y.ctx && x.body = y.body && x.firstIn = y.firstIn && x.firstOut = y.firstOut && x.numIn = y.numIn
    && x.numOut = y.numOut

/-- May a record still be taken by a recovery group? -/
def SlipRecord.untaken (x : SlipRecord) : Bool := x.taken.isNone && !x.deposited && !x.orphan

/-- The records of the next recovery group of a core: those of the oldest key that has 32, one that has waited 2,000
cycles, or one whose origin waits at srg.close (R361). -/
def State.recoveryRecords (s : State) (core : Nat) : List SlipRecord :=
  let q := (s.core core).surrogate.slipway.filter SlipRecord.untaken
  let mine (x : SlipRecord) : List SlipRecord := q.filter x.sameKey
  let ripe (x : SlipRecord) : Bool :=
    let ys := mine x
    32 ≤ ys.length || ys.any (fun y => y.entered + 2000 ≤ s.cycle)
      || ys.any (fun y => (s.group ⟨core, y.slot⟩).status = .waiting .srgClose)
  match q.find? ripe with
  | some x => (mine x).take 32
  | none => []

/-- The lowest-numbered free recovery slot of a core (02 R41; R361). -/
def Core.recoverySlot (k : Core) : Option Nat :=
  ((List.range 4).map (fun b => 16 * b + 14)).find? (fun slot => (Table.find k.groups slot).isNone)

/-- May a recovery group be formed on a core now? -/
def State.recoveryDue (s : State) (core : Nat) : Bool :=
  (s.core core).recoverySlot.isSome && s.gateOf core = .on && !(s.core core).fenced && s.recoveryRecords core ≠ []

/-- A recovery group as it starts (R362). The private base is a free value (log entry 5). -/
def State.recoveryGroup (s : State) (xs : List SlipRecord) (x : SlipRecord) : Group :=
  let lanes (m : Nat) : Lanes := Lanes.ofFn (fun l => ((xs[l]?).map (fun y => y.inputs.getD m 0)).getD 0)
  let limit := ((s.launch? x.launch).map (fun l => l.header.stack)).getD 0
  { Group.blank with
    kind := .recovery, pc := x.body, em := Mask.ofFn (fun l => l < xs.length), limit := limit
    privateBase := BitVec.ofNat 64 (0xFF00000000000000 + (Config.word s.fresh 0).toNat * 65536)
    v := (List.range x.numIn).foldl (fun t m =>
      if x.firstIn + m < 240 then Table.set t (x.firstIn + m) ⟨lanes m, false⟩ else t) []
    recovery := some
      { ctx := x.ctx, body := x.body, region := x.region, firstIn := x.firstIn, firstOut := x.firstOut, numIn := x.numIn
        numOut := x.numOut, strict := x.strict, launch := x.launch } }

/-- A record is taken as the next lane of a recovery group. -/
def takeRecords (slot : Nat) (x : SlipRecord) (lane : Nat) (q : List SlipRecord) : List SlipRecord :=
  match q with
  | [] => []
  | y :: rest =>
    if y.untaken && x.sameKey y && lane < 32 then { y with taken := some (slot, lane) } :: takeRecords slot x (lane + 1) rest
    else y :: takeRecords slot x lane rest

/-- The moored storage of a recovery slot takes the inputs of a call that are moored registers (R356, R362). -/
def State.mooredInputs (s : State) (core slot : Nat) (xs : List SlipRecord) (x : SlipRecord) : State :=
  let lanes (m : Nat) : Lanes := Lanes.ofFn (fun l => ((xs[l]?).map (fun y => y.inputs.getD m 0)).getD 0)
  (List.range x.numIn).foldl (fun s m =>
    if x.firstIn + m < 240 then s else s.writeReg ⟨core, slot⟩ (.v (x.firstIn + m)) allLanes (lanes m))
    (s.zeroMoored core slot)

/-- A recovery group is formed (R361). -/
def State.formOne (s : State) (core : Nat) : State :=
  if !s.recoveryDue core then s
  else
    match (s.core core).recoverySlot, s.recoveryRecords core with
    | some slot, x :: rest =>
      let g := s.recoveryGroup (x :: rest) x
      let s := s.useFresh.modCore core (fun k =>
        { k with
          groups := Table.set k.groups slot g
          surrogate := { k.surrogate with slipway := takeRecords slot x 0 k.surrogate.slipway } })
      (s.mooredInputs core slot (x :: rest) x).joinReady ⟨core, slot⟩ (s.cycle + 1)
    | _, _ => s

/-- Recovery groups are formed while a slot is free and the records of a key ask for one (R361). -/
def State.formRecovery (s : State) (core : Nat) : State := (List.range 4).foldl (fun s _ => s.formOne core) s

/-! ### srg.open and srg.close (R356, R358) -/

/-- The region that an instruction names (R96), with its kernel's text. -/
def State.regionOf (s : State) (r : GroupRef) (n : Nat) : Option (RegionEntry × DWord) :=
  match s.teamOf r with
  | none => none
  | some t =>
    (s.launch? t.launch).bind (fun l =>
      (l.header.regions.find? (fun e => e.region = n)).map (fun e => (e, l.code + BitVec.ofNat 64 l.header.textOff)))

/-- The counts that srg.open encodes (R355). -/
def LongFields.openIns (f : LongFields) : Nat := f.modBits 13 11 + 1
/-- The counts that srg.open encodes (R355). -/
def LongFields.openOuts (f : LongFields) : Nat := f.modBits 16 14 + 1
/-- The region of srg.open, srg.close and srg.bound (R355). -/
def LongFields.region (f : LongFields) : Nat := f.extBits 5 0

/-- Orders 2 and 3 of R356. -/
def openChecks (f : LongFields) (x : Issue) : Attempt Unit := do
  let r := x.s.issuing
  let g := x.s.self
  check (g.kind ≠ .recovery && !g.sup && g.call.isNone) .surrogateFault
  check ((x.s.regionOf r (LongFields.region f)).any (fun e =>
    e.1.numIn = LongFields.openIns f && e.1.numOut = LongFields.openOuts f)) .illegalOperand
  check (num32 x.b < 256 && x.s.spanOk r f.a (LongFields.openIns f) && x.s.spanOk r f.d (LongFields.openOuts f))
    .illegalOperand

/-- L, the lanes of a call (R356). -/
def Group.callLanes (g : Group) (f : LongFields) : Mask :=
  if f.u then if g.gatePasses f then Mask.ofFn (fun l => l = g.gateLane) else 0 else g.active f

/-- The number of a v register operand. -/
def vNumber (code : BitVec 9) : Nat := code.toNat

/-- The call that srg.open records. -/
def Issue.newCall (x : Issue) (f : LongFields) (lanes : Mask) (body : DWord) : SurrogateCall :=
  { state := if lanes = 0 then .done else .deciding, region := LongFields.region f, surrogate := num32 x.b, gen := 0
    lanes := lanes, uniform := f.u, emAtOpen := x.s.self.em, firstIn := vNumber f.a, numIn := LongFields.openIns f
    firstOut := vNumber f.d, numOut := LongFields.openOuts f, trusted := 0, inPlaceLanes := 0, bound := 0, body := body
    result := x.s.self.nextResult }

/-- srg.open: the group goes on at CLOSE. -/
def State.srgOpenOp (s : State) (f : LongFields) : Host.Outcome State Fault Refusal :=
  s.finish (do
    let x ← s.prepareWith .srgOpen f .never (openChecks f)
    let r := x.s.issuing
    let g := x.s.self
    let lanes := g.callLanes f
    match x.s.regionOf r (LongFields.region f) with
    | none => trapWith .illegalOperand
    | some (e, text) =>
      let c := x.newCall f lanes (text + BitVec.ofNat 64 e.body)
      let close := alignTarget (text + BitVec.ofNat 64 e.close)
      if lanes = 0 then
        return ({ x with s := x.s.modGroup r (fun g => { g with call := some c }) } : Issue).finishAt close
      else
        x.request .surrogate
        let inputs := (List.range c.numIn).map (fun m => x.s.readReg r (.v (c.firstIn + m)))
        let zeros := List.replicate c.numOut Lanes.zero
        let t := x.s.modGroup r (fun g =>
          { g.putPending false x.marked x.dest zeros false [] with call := some c, pc := close })
        return (t.grantTo r arbSurrogate).enterSurrogate r.core (.call r.slot inputs) (Instr.surrogateDecision (Fin.ofNat 384 r.core)))

/-- srg.close: of a calling group, or of a recovery group. -/
def State.srgCloseOp (s : State) (f : LongFields) : Host.Outcome State Fault Refusal :=
  s.finish (do
    let x ← s.prepare .srgClose f
    match x.s.self.recovery, x.s.self.call with
    | some rec, _ =>
      check (rec.region = LongFields.region f) .surrogateFault
      return x.s.depositOwn rec
    | none, some c =>
      check (c.region = LongFields.region f) .surrogateFault
      return x.s.closeIssued
    | none, none => trapWith .surrogateFault)

/-! ### srg.load, srg.bound, srg.enable, srg.evict and srg.stat (R366-R369) -/

/-- The checks that these make whether or not they act (R355, R366). -/
def State.srgChecks (s : State) (f : LongFields) (need : Privilege) : Attempt Unit := do
  check (s.fieldsOk s.issuing .srg f) .illegalOperand
  s.pure
  check (s.self.privilege.atLeast need) .privilege

/-- An instruction that acts once or not at all, after its checks, which R160 and R368 make in both cases. -/
def State.srgOp (s : State) (f : LongFields) (need : Privilege) (go : Issue → Attempt State) :
    Host.Outcome State Fault Refusal :=
  s.finish (do
    s.srgChecks f need
    let x ← s.prepareWith .srg f .all (fun _ => .ok ())
    if !x.acts then return x.finishPlain
    go x)

/-- srg.load. -/
def State.srgLoadOp (s : State) (f : LongFields) : Host.Outcome State Fault Refusal :=
  s.srgOp f .user (fun x => do
    let r := x.s.issuing
    let g := x.s.self
    x.request .surrogate
    let e := SurrogateEntry.load r.slot g.nextResult (num32 x.b) (laneVal x.a 0) (x.s.attrs r).ctx
      (g.privilege = .user) none false
    let t := x.s.modGroup r (fun g => g.putPending false x.marked x.dest [Lanes.zero] false [])
    return (t.grantTo r arbSurrogate).enterSurrogate r.core e (Instr.srgLoadComplete (Fin.ofNat 384 r.core)))

/-- srg.bound. -/
def State.srgBoundOp (s : State) (f : LongFields) : Host.Outcome State Fault Refusal :=
  s.srgOp f .user (fun x =>
    .ok ({ x with s := x.s.modContext (x.s.attrs x.s.issuing).ctx (fun c =>
      { c with qbound := c.qbound.set (LongFields.region f) (BitVec.ofNat 32 (num32 x.a)) }) } : Issue).finishPlain)

/-- srg.enable. A context has no entry for an id above 255 (log entry 29). -/
def State.srgEnableOp (s : State) (f : LongFields) : Host.Outcome State Fault Refusal :=
  s.srgOp f .system (fun x =>
    let ctx := (x.s.attrs x.s.issuing).ctx
    let id := num32 x.b
    let t := if 256 ≤ id then x.s
      else
        let t := x.s.modEntry ctx id (fun d => { d with enabled := true, window := 0 })
        (t.log 12 ctx (bytesOfNum 4 id ++ bytesOfNum 4 ((t.context ctx).entry id).gen.toNat)).tellCores ctx id
    .ok ({ x with s := t } : Issue).finishPlain)

/-- srg.evict. -/
def State.srgEvictOp (s : State) (f : LongFields) : Host.Outcome State Fault Refusal :=
  s.srgOp f .user (fun x => do
    let r := x.s.issuing
    x.request .surrogate
    let t := (x.s.grantTo r arbSurrogate).enterSurrogate r.core (.evict r.slot (num32 x.b)) (Instr.surrogateDecision (Fin.ofNat 384 r.core))
    return ({ x with s := t } : Issue).finishPlain)

/-- What srg.stat reads for an id (R369). For an id above 255, which has no directory entry, the directory's items are
free values (log entry 29). -/
def State.srgStat (s : State) (r : GroupRef) (sub id : Nat) : Nat :=
  let c := s.context (s.attrs r).ctx
  let d := c.entry id
  let place := Table.find (s.core r.core).surrogate.resident id
  if sub = 10 then
    match place with
    | some (off, size) => size * 2 ^ 32 + off
    | none => 2 ^ 64 - 1
  else if 256 ≤ id then
    let hi := (Config.word s.fresh 0).toNat
    let lo := (Config.word s.fresh 1).toNat
    if sub ≤ 6 then hi % 2 ^ 16 * 2 ^ 32 + lo
    else if sub ≤ 8 then lo
    else hi * 2 ^ 32 + lo / 2 % 2 ^ 7 * 2 ^ 8 + bit place.isSome 1 + lo % 2
  else
    match sub with
    | 0 => d.calls
    | 1 => d.accepted
    | 2 => d.rejected
    | 3 => d.resFb
    | 4 => d.sampled
    | 5 => d.violations
    | 6 => d.late
    | 7 => d.errSum.toNat
    | 8 => d.errMax.toNat
    | _ => d.gen.toNat * 2 ^ 32 + d.recent c.windowSize * 2 ^ 8 + bit place.isSome 1 + bit d.enabled 0

/-- srg.stat. -/
def State.srgStatOp (s : State) (f : LongFields) : Host.Outcome State Fault Refusal :=
  s.finish (do
    let x ← s.prepare .srgStat f
    let v := x.s.srgStat x.s.issuing f.ty (num32 x.b)
    let y : Issue := { x with s := x.s.useFresh }
    return y.finishPending [Lanes.splat (wordOf v 0), Lanes.splat (wordOf v 1)] false [])

/-! ### Instructions and events -/

/-- srg.open (R356). -/
def execSrgOpen (f : LongFields) (s : State) : Host.Outcome State Fault Refusal := s.srgOpenOp f
/-- srg.close (R358, R363). -/
def execSrgClose (f : LongFields) (s : State) : Host.Outcome State Fault Refusal := s.srgCloseOp f
/-- srg.load (R367). -/
def execSrgLoad (f : LongFields) (s : State) : Host.Outcome State Fault Refusal := s.srgLoadOp f
/-- srg.bound (R368). -/
def execSrgBound (f : LongFields) (s : State) : Host.Outcome State Fault Refusal := s.srgBoundOp f
/-- srg.enable (R368). -/
def execSrgEnable (f : LongFields) (s : State) : Host.Outcome State Fault Refusal := s.srgEnableOp f
/-- srg.evict (R367). -/
def execSrgEvict (f : LongFields) (s : State) : Host.Outcome State Fault Refusal := s.srgEvictOp f
/-- srg.stat (R369). -/
def execSrgStat (f : LongFields) (s : State) : Host.Outcome State Fault Refusal := s.srgStatOp f

/-- A decision (R357), or an eviction in its turn (R367). -/
def execSurrogateDecision (core : Fin 384) (s : State) : Host.Outcome State Fault Refusal :=
  .next (s.surrogateDecision core)
/-- An srg.load completes (R367). -/
def execSrgLoadComplete (core : Fin 384) (s : State) : Host.Outcome State Fault Refusal := .next (s.srgLoadComplete core)
/-- Recovery groups are formed (R361). -/
def execRecoveryGroupFormation (core : Fin 384) (s : State) : Host.Outcome State Fault Refusal :=
  .next (s.formRecovery core)
/-- A disable or an enable reaches a core (R365, R368). -/
def execSurrogateDisableArrival (core : Fin 384) (id : Fin 256) (enabled : Bool) (gen : Word) (s : State) :
    Host.Outcome State Fault Refusal := .next (s.surrogateArrival core id enabled gen)

end Sys2Proof.Machine
end

