-- ==== Sys2Proof/Machine/Phase.lean ====
section
/-! DEFINITION. The phase scheduler's instructions (17 R396-R399). -/

namespace Sys2Proof.Machine

/-! ### Images and records (R386, R396, R397) -/

/-- The launch of the issuing group: that of its team, or of the records of a recovery group; the Tug has none. -/
def State.ownLaunch (s : State) : Option (Nat × Launch) :=
  if s.self.kind = .tug then none else (s.launch? s.selfAttrs.launch).map (fun l => (s.selfAttrs.launch, l))

/-- The bytes of a record image. -/
def State.imageRecord (s : State) (code : BitVec 9) : List Byte :=
  (s.self.regsOf (Operand.ofCode code) 16).flatMap (fun reg => bytesOfNum 4 ((s.readReg s.issuing reg).at' 0).toNat)

/-- Order 2 of R397 on an image: its register, the bytes marked 0, GROUPS, and DEP (DEDUCED: a counter address). -/
def imageOk (code : BitVec 9) (img : List Byte) : Bool :=
  (match Operand.ofCode code with
    | .s n => decide (n % 16 = 0)
    | _ => false)
    && zerosAt img 0x16 0x18 && zerosAt img 0x34 0x38 && numAt img 0x15 1 ≤ 32 && numAt img 0x20 8 % 8 = 0

/-- PARENT of what a group enqueues (R386). -/
def parentOf (tx ty tz : Word) : DWord := tz.setWidth 16 ++ ty.setWidth 16 ++ tx

/-- PARENT of what the issuing group enqueues; the Tug and a recovery group have the coordinate 0. -/
def State.selfParent (s : State) : DWord :=
  match s.teamOf s.issuing with
  | some t => parentOf t.tx t.ty t.tz
  | none => 0

/-- Record `i` of an image as the home slice writes it (R386, R398). -/
def newRecord (img : List Byte) (stage i : Nat) (parent : DWord) (launch : Nat) : List Byte :=
  recordBytes (recWord img 0) stage 0 0xFF 0 (recWord img 8 + BitVec.ofNat 32 i) (recWord img 0xC) (recWord img 0x10) 0
    (numAt img 0x15 1) (recDWord img 0x18) (recDWord img 0x20) parent launch (recDWord img 0x38)

/-! ### Reads of descriptors and counters (R397 order 5) -/

/-- The stage queue descriptor at a physical address, if one of a live launch of the context is registered there. -/
def State.descriptorAt (s : State) (ctx pa : Nat) : Option (Nat × Launch × Nat) :=
  s.front.launches.findSome? (fun e =>
    if e.2.ctx = ctx then
      ((List.range e.2.header.stages.length).find? (fun n => e.2.pa (descOff n) = pa)).map (fun n => (e.1, e.2, n))
    else none)

/-- The descriptor that an access reads. -/
def State.descriptorOf (s : State) (a : LaneAccess) : Option (Nat × Launch × Nat) :=
  match a.spots with
  | .device (.mem pa) :: _ => s.descriptorAt s.selfAttrs.ctx pa
  | _ => none

/-- The one access of an instruction that acts once for the group: `go` follows when it meets no cause of R220. -/
def Issue.oneAccess (x : Issue) (f : LongFields) (k : AccessKind) (va : DWord) (n : Nat)
    (go : State → LaneAccess → Attempt State) : State :=
  let lane := x.s.self.uniformLane f
  match x.s.virtualAccess x.s.issuing k lane va n with
  | (t, .error e) =>
    match firstFail [(lane, .error e)] [(lane, .error e)] with
    | some stop => x.stopIn t stop
    | none => t
  | (t, .ok a) =>
    match go t a with
    | .ok u => u
    | .error stop => x.stopIn t stop

/-- The deschedule instructions that may issue without effect: they drop the operand state all the same (02 R47). -/
def deschedules (op : Op) : Bool := op = .enq || op = .spawn

/-- An instruction of the phase scheduler: its checks, and `go` when it acts. -/
def State.phaseOp (s : State) (op : Op) (f : LongFields) (idle : Idle) (mid : Issue → Attempt Unit)
    (go : Issue → State) : Host.Outcome State Fault Refusal :=
  match s.prepareWith op f idle mid with
  | .error e => .next (s.stopped e)
  | .ok x => .next (if x.acts then go x else if deschedules op then x.finishPlain.dropSelf else x.finishPlain)

/-! ### enq and spawn (R388, R389, R398) -/

/-- Orders 2 and 3 of R397 for enq. -/
def enqChecks (f : LongFields) (x : Issue) : Attempt Unit := do
  let img := x.s.imageRecord f.b
  check (imageOk f.b img) .illegalOperand
  match (x.s.virtualAccess x.s.issuing .read (x.s.self.uniformLane f) (laneVal x.a 0) 128).2 with
  | .ok a => check ((x.s.descriptorOf a).all (fun d => d.2.2 = numAt img 4 1)) .illegalOperand
  | .error _ => .ok ()
  x.s.pure

/-- enq. -/
def State.enqOp (s : State) (f : LongFields) : Host.Outcome State Fault Refusal :=
  s.resumeOr (s.phaseOp .enq f .fields (enqChecks f) (fun x =>
    x.oneAccess f .read (laneVal x.a 0) 128 (fun t a =>
      match t.descriptorOf a with
      | none => trapWith .illegalOperand
      | some (h, l, n) => do
        check (!t.descPoisoned l n) .memEcc
        let rec_ := newRecord (t.imageRecord f.b) n 0 t.selfParent h
        return ({ x with s := t } : Issue).freed.enqueueOrBlock h n [rec_])))

/-- The target stage of spawn and phase (R396). -/
def LongFields.targetStage (f : LongFields) : Nat := f.extBits 2 0

/-- Is the target stage below NSTAGE of the issuer's launch? -/
def State.stageOk (s : State) (n : Nat) : Bool := s.ownLaunch.any (fun l => n < l.2.header.stages.length)

/-- Orders 2 and 3 of R397 for spawn. -/
def spawnChecks (f : LongFields) (x : Issue) : Attempt Unit := do
  let n := LongFields.targetStage f
  let count := num32 x.b
  check (imageOk f.a (x.s.imageRecord f.a) && x.s.stageOk n) .illegalOperand
  check (x.s.ownLaunch.any (fun l => 1 ≤ count && count ≤ x.s.queueCap l.2 n)) .illegalOperand
  x.s.pure

/-- spawn. -/
def State.spawnOp (s : State) (f : LongFields) : Host.Outcome State Fault Refusal :=
  s.resumeOr (s.phaseOp .spawn f .fields (spawnChecks f) (fun x =>
    let n := LongFields.targetStage f
    match x.s.ownLaunch with
    | none => x.finishPlain
    | some (h, l) =>
      if x.s.descPoisoned l n then x.stopIn x.s (.trap (Trap.plain .memEcc))
      else
        let img := x.s.imageRecord f.a
        x.freed.enqueueOrBlock h n ((List.range (num32 x.b)).map (fun i => newRecord img n i x.s.selfParent h))))

/-! ### Dependence counters (R398) -/

/-- Order 2 of R397 for a counter, and order 3. -/
def counterChecks (x : Issue) : Attempt Unit := do
  check ((laneVal x.a 0).toNat % 8 = 0) .illegalOperand
  x.s.pure

/-- dep.inc and dep.dec: one atomic at the counter's home, after the group's earlier stores. -/
def State.depAddOp (s : State) (op : Op) (f : LongFields) (add : Nat → Nat → Nat) : Host.Outcome State Fault Refusal :=
  s.phaseOp op f .fields counterChecks (fun x =>
    x.oneAccess f .atomic (laneVal x.a 0) 8 (fun t a =>
      let r := t.issuing
      let t := (t.flushStores r).markAccess r op a
      let new := add (t.loadNum r false a.spots) (num32 x.b) % 2 ^ 64
      let xs := a.spots.zip (bytesOfNum 8 new)
      let t := (t.writeNow xs).dropLines r.core (spotLines a.spots)
      let t := if deviceCells xs = [] then t else t.writeCells (deviceCells xs)
      let t := xs.foldl (fun t y =>
        match y.1 with
        | .host g va => t.writeHost g va [y.2]
        | _ => t) t
      let t := t.readRemote a.spots
      .ok ({ x with s := t } : Issue).finishPlain))

/-- The address by which the model names a counter: its physical address, or its virtual address in another module. -/
def LaneAccess.counterAt (a : LaneAccess) : DWord :=
  match a.spots with
  | .device (.mem pa) :: _ => BitVec.ofNat 64 pa
  | .device (.window core off _) :: _ => BitVec.ofNat 64 (windowBase core + off)
  | .device (.control off) :: _ => BitVec.ofNat 64 (0x0FF000000000 + off)
  | _ => a.addr

/-- Does a dependence counter lie in a range of physical addresses? -/
def counterIn (lo n a : Nat) : Bool := lo < a + 8 && a < lo + n

/-- Does a group wait on a dependence counter of a range? -/
def Group.waitsOn (g : Group) (lo n : Nat) : Bool :=
  match g.status with
  | .waiting (.dep a) => counterIn lo n a.toNat
  | _ => false

/-- The halt-area entry of an evicted team that is killed (18 R422). -/
def Evicted.haltEntry (e : Evicted) (tcause : Nat) : List Byte :=
  Sys2Proof.Machine.haltEntry e.team.tx e.team.ty e.team.tz e.team.stage e.groups.length e.team.retry tcause e.team.parent
    e.core (e.groups.map Group.haltBytes)

/-- An uncorrectable error in the dependence counters of a range (R403): every team that waits on one is halted with
MEM_ECC, and its launch is aborted with ECC_ABORT, so that no life of it is relaunched. A team that waits evicted goes with its
record. -/
def State.counterError (s : State) (lo n : Nat) : State :=
  let waiting := s.groupsWhere (fun g => g.waitsOn lo n)
  let away := s.front.evicted.filter (fun e => e.groups.any (fun g => g.waitsOn lo n))
  let launches := (waiting.filterMap (fun r => (s.teamOf r).map (·.launch)) ++ away.map (·.launch)).eraseDups
  let s := waiting.foldl (fun s r => s.haltTeam ⟨r.core, (s.group r).team⟩ Cause.memEcc.code) s
  let s := away.foldl (fun s e =>
    match s.launch? e.launch with
    | some l => s.writeHalt l (e.haltEntry Cause.memEcc.code)
    | none => s) s
  launches.foldl (fun s h => s.abortLaunch h 6) s

/-- dep.wait. -/
def State.depWaitOp (s : State) (f : LongFields) : Host.Outcome State Fault Refusal :=
  s.resumeOr (s.phaseOp .depWait f .never counterChecks (fun x =>
    x.oneAccess f .read (laneVal x.a 0) 8 (fun t a =>
      if a.onHost then
        .error (.trap { Trap.plain .hostAtomic with
          lanes := some (Mask.ofFn (fun l => l = x.s.self.uniformLane f)), addr := a.addr })
      else
        let p := a.counterAt
        let t := ({ x with s := t } : Issue).freed
        .ok (if t.spotPoison a.spots then (t.blockOn (.dep p)).counterError p.toNat 8
          else if t.counter p.toNat ≤ 0 then (t.dropAllL1 t.issuing.core).yieldRun else t.blockOn (.dep p)))))

/-! ### phase (R39, R399) -/

/-- Orders 2 and 3 of R397 for phase. -/
def phaseChecks (f : LongFields) (x : Issue) : Attempt Unit := do
  check (x.s.stageOk (LongFields.targetStage f)) .illegalOperand
  x.s.pure

/-- The first arrival at phase, which fixes the SIZE and the stage, or one that agrees with it. -/
def Team.arriveAtPhase (t : Team) (number : Nat) (size : Word) (stage : Nat) : Team :=
  if t.phaseArrived = [] then { t with phaseSize := size, phaseStage := stage, phaseArrived := [number] }
  else { t with phaseArrived := t.phaseArrived ++ [number] }

/-- phase: a barrier of the team. A SIZE or a stage that differs from the first arrival's raises BARRIER. Groups that issue
it in one cycle do so in ascending group number (`State.subOrder`). -/
def State.phaseInstr (s : State) (f : LongFields) : Host.Outcome State Fault Refusal :=
  s.resumeOr (s.phaseOp .phase f .never (phaseChecks f) (fun x =>
    let s := x.s
    let g := s.self
    let t := s.selfTeam
    let size := BitVec.ofNat 32 (num32 x.a)
    let stage := LongFields.targetStage f
    match s.teamOf s.issuing with
    | none => x.finishPlain
    | some team =>
      if g.call.isSome then x.stopIn s (.trap (Trap.plain .surrogateFault))
      else if g.sup then x.stopIn s (.trap (Trap.plain .privilege))
      else if team.phaseArrived = [] || (team.phaseSize = size && team.phaseStage = stage) then
        (x.freed.modTeam t (fun y => y.arriveAtPhase g.number size stage)).blockOn .phase
      else x.stopIn s (.trap (Trap.plain .barrier))))

/-- Have all groups of a team that have not exited issued phase (R399)? -/
def State.phaseReady (s : State) (t : TeamRef) (team : Team) : Bool :=
  team.phaseArrived ≠ [] && (s.notExited t team).all (fun slot => (s.group ⟨t.core, slot⟩).status = .waiting .phase)

/-- The carry block that a team leaves for a stage (R390); none when its NCARRY is 0. -/
def State.carryOf (s : State) (t : TeamRef) (team : Team) (carry : List Nat) : List Byte :=
  if carry = [] then []
  else
    let refs := team.slots.map (fun slot => (⟨t.core, slot⟩ : GroupRef))
    let live (r : GroupRef) : Bool := (s.group r).status ≠ .exited
    let bits_ (p : Group → Reg → Bool) : List Byte :=
      (refs.flatMap (fun r =>
        bytesOfNum 2 (if live r then ((List.range carry.length).zip carry).foldl (fun n (c : Nat × Nat) =>
          n + if p (s.group r) (.v c.2) then 2 ^ c.1 else 0) 0 else 0)) ++ List.replicate 64 0).take 64
    let regs := refs.flatMap (fun r =>
      carry.flatMap (fun c =>
        let x := if live r then s.readReg r (.v c) else Lanes.zero
        (List.range 32).flatMap (fun l => bytesOfNum 4 (x.at' l).toNat)))
    bits_ Group.isCompressed ++ bits_ (fun g reg => g.poison.contains reg) ++ regs

/-- The phase ends (R39, R399): its stores are performed, the carry set and the continuation's record are written, and the
team's reservations are released. -/
def State.performPhase (s : State) (t : TeamRef) (team : Team) : State :=
  match s.launch? team.launch with
  | none => s.releaseTeam t
  | some l =>
    let s := (team.slots.foldl (fun s slot => s.settleAll ⟨t.core, slot⟩) s).flushTeam t team
    let stage := team.phaseStage
    let h := team.launch
    let carry := s.carryOf t team (l.header.stages.getD stage ⟨0, 0, 0, []⟩).carry
    let rec_ := recordBytes team.phaseSize stage 1 team.variant team.retry team.tx team.ty team.tz 0 team.slots.length 0
      team.dep (parentOf team.tx team.ty team.tz) h team.user
    let life : Life := { origin := team.origin, copy := team.copy }
    let aborted := s.descAborted l stage
    let s := s.releaseTeam t
    if aborted then s.treeAdd h (-1)
    else if s.hasRoom h stage 1 then (s.performEnqueue h stage [rec_] carry 1 (some life)).treeAdd h (-1)
    else (s.addRequest h stage [rec_] carry none (some life)).1

/-! ### retire (R399) -/

/-- retire: the team ends at once. The Tug ends as exit does. -/
def State.retireOp (s : State) (f : LongFields) : Host.Outcome State Fault Refusal :=
  s.phaseOp .retire f .never (fun x => x.s.pure) (fun x =>
    let s := x.s
    let t := s.selfTeam
    match s.teamOf s.issuing with
    | none => s.exitGroup s.issuing
    | some team =>
      if team.ending.isKill then s.exitGroup s.issuing
      else
        let s := (s.modTeam t (fun y => { y with ending := .retire })).exitGroup s.issuing
        s.due ((s.liveSlots t team).map (fun slot => Instr.haltDelivery ⟨t.core, slot⟩)))

/-- A team that ends moves on (R399): when every group has exited it retires, when every group is at phase its phase ends,
and either takes place once the waits of 01 R19, 09 R237 and 16 R382 are over. -/
def State.teamEnds (s : State) (t : TeamRef) : State :=
  match s.team? t with
  | none => s
  | some team =>
    let quiet := !s.berthsBusy t team && !s.loadsOut t team && !s.bulkOut t
    match team.ending with
    | .no =>
      if s.notExited t team = [] then s.modTeam t (fun x => { x with ending := .retire })
      else if s.phaseReady t team then s.modTeam t (fun x => { x with ending := .phase })
      else s
    | .retire => if s.liveSlots t team = [] && quiet then s.retireTeam t team else s
    | .phase => if quiet then s.performPhase t team else s
    | _ => s

/-! ### qstat (R398) -/

/-- A qstat of a queue: occupancy or room. -/
def State.qstatQueueOp (s : State) (f : LongFields) (value : State → Launch → Nat → Nat) :
    Host.Outcome State Fault Refusal :=
  s.phaseOp .qstat f .fields (fun x => x.s.pure) (fun x =>
    x.oneAccess f .read (laneVal x.a 0) 128 (fun t a =>
      match t.descriptorOf a with
      | none => trapWith .illegalOperand
      | some (_, l, n) =>
        .ok (({ x with s := t } : Issue).finishPending [Lanes.splat (BitVec.ofNat 32 (value t l n))] false [])))

/-- A qstat of the issuer's launch with a 64-bit result. -/
def State.qstatLaunchOp (s : State) (f : LongFields) (mid : Issue → Bool) (value : Issue → Launch → Nat) :
    Host.Outcome State Fault Refusal :=
  s.phaseOp .qstat f .fields (fun x => do
      check (x.s.ownLaunch.isSome && mid x) .illegalOperand
      x.s.pure)
    (fun x =>
      let v := (x.s.ownLaunch.map (fun l => value x l.2)).getD 0
      x.finishPending [Lanes.splat (wordOf v 0), Lanes.splat (wordOf v 1)] false [])

/-! ### The meanings -/

/-- enq. -/
def execEnq (f : LongFields) (s : State) : Host.Outcome State Fault Refusal := s.enqOp f
/-- spawn. -/
def execSpawn (f : LongFields) (s : State) : Host.Outcome State Fault Refusal := s.spawnOp f
/-- phase. -/
def execPhase (f : LongFields) (s : State) : Host.Outcome State Fault Refusal := s.phaseInstr f
/-- retire. -/
def execRetire (f : LongFields) (s : State) : Host.Outcome State Fault Refusal := s.retireOp f
/-- dep.inc. -/
def execDepInc (f : LongFields) (s : State) : Host.Outcome State Fault Refusal := s.depAddOp .depInc f (· + ·)
/-- dep.dec. -/
def execDepDec (f : LongFields) (s : State) : Host.Outcome State Fault Refusal :=
  s.depAddOp .depDec f (fun x y => x + 2 ^ 64 - y)
/-- dep.wait. -/
def execDepWait (f : LongFields) (s : State) : Host.Outcome State Fault Refusal := s.depWaitOp f
/-- qstat.qaddr. -/
def execQstatQaddr (f : LongFields) (s : State) : Host.Outcome State Fault Refusal :=
  s.qstatLaunchOp f (fun x => x.s.stageOk (num32 x.b)) (fun x l => (l.area + BitVec.ofNat 64 (descOff (num32 x.b))).toNat)
/-- qstat.occ. -/
def execQstatOcc (f : LongFields) (s : State) : Host.Outcome State Fault Refusal := s.qstatQueueOp f State.queueOcc
/-- qstat.room. -/
def execQstatRoom (f : LongFields) (s : State) : Host.Outcome State Fault Refusal := s.qstatQueueOp f State.queueRoom
/-- qstat.tree. -/
def execQstatTree (f : LongFields) (s : State) : Host.Outcome State Fault Refusal :=
  s.qstatLaunchOp f (fun _ => true) (fun x l => x.s.launchField l recTree 8)

end Sys2Proof.Machine
end

