-- ==== Sys2Proof/Machine/Errors.lean ====
section
/-! DEFINITION. Uncorrectable errors (20 R454; 17 R403; 13 R322; 14 R341; 16 R375). -/

namespace Sys2Proof.Machine

/-- UNCORRECTABLE is logged with a structure code, of which the spec gives only that of R453, and a physical address: free
values where the error has none (log entry 5). -/
def State.logError (s : State) (addr : Option Nat) : State :=
  let code := (Config.word s.fresh 0).toNat % 255
  let a := addr.getD (Config.word s.fresh 1 ++ Config.word s.fresh 2).toNat
  s.useFresh.log 10 0xFF (bytesOfNum 8 code ++ bytesOfNum 8 a)

/-- The register that an error's number names: v0-v255, then s0-s63, then k0-k15. -/
def regOfNumber (n : Nat) : Reg := if n < 256 then .v n else if n < 320 then .s (n - 256) else .k ((n - 320) % 16)

/-- An error in data returned to a register: it becomes poisoned, a pending one at its return. -/
def State.registerError (s : State) (r : GroupRef) (reg : Reg) : State :=
  if (s.group? r).isNone then s
  else
    s.modGroup r (fun g =>
      if g.isPending reg then
        { g with
          outstanding := g.outstanding.map (fun o =>
            if o.regs.any (fun x => x.1 = reg) then { o with poisoned := true } else o) }
      else { g with poison := (reg :: g.poison).eraseDups })

/-- Do two ranges of addresses meet? -/
def meets (lo n lo' n' : Nat) : Bool := lo < lo' + n' && lo' < lo + n

/-- A field of the record in a slot of a stage queue. -/
def State.slotField (s : State) (l : Launch) (stage slot off n : Nat) : Nat :=
  Memory.readNum s.mem (l.pa (l.recordOff stage slot + off)) n

/-- Is a line part of the carry block that the record in a slot names (17 R390, R395)? -/
def State.inCarry (s : State) (l : Launch) (stage slot line : Nat) : Bool :=
  let st := l.header.stages.getD stage ⟨0, 0, 0, []⟩
  let at_ := s.slotField l stage slot 0x18 8
  let size := 128 + 128 * (s.slotField l stage slot 0x15 1 * st.carry.length)
  at_ ≠ 0 && st.carry ≠ [] && (List.range (size / 128 + 1)).any (fun i =>
    (s.signalPa l.ctx (BitVec.ofNat 64 (at_ + min (128 * i) (size - 1)))).any (fun pa => pa / 128 = line))

/-- The slots of a stage queue that hold records. -/
def State.queuedSlots (s : State) (l : Launch) (stage : Nat) : List Nat :=
  (List.range (s.queueOcc l stage)).map (fun i => (s.descField l stage 0x18 8 + i) % s.queueCap l stage)

/-- Is a line part of a stage queue: its descriptor, or a queued record or its carry block (R403)? -/
def State.inQueue (s : State) (l : Launch) (stage line : Nat) : Bool :=
  let hit (off n : Nat) : Bool := (List.range n).any (fun i => l.pa (off + i) / 128 = line)
  hit (descOff stage) 128
    || (s.queuedSlots l stage).any (fun k => hit (l.recordOff stage k) 64 || s.inCarry l stage k line)

/-- The stage queues of live launches that a line is part of. -/
def State.queuesOfLine (s : State) (line : Nat) : List (Nat × Nat) :=
  s.front.launches.flatMap (fun e =>
    ((List.range e.2.header.stages.length).filter (fun n => s.inQueue e.2 n line)).map (fun n => (e.1, n)))

/-- An error in a stage queue (R403): STATE.POISONED, and the launch is aborted with ECC_ABORT. -/
def State.queueError (s : State) (h stage : Nat) : State :=
  match s.launch? h with
  | none => s
  | some l =>
    if stage < l.header.stages.length then
      (s.setArea l (descOff stage + 0x2E) 1 (s.descField l stage 0x2E 1 ||| 2)).abortLaunch h 6
    else s

/-- The physical address of the counter that a DEP field names in a context. -/
def State.depPa (s : State) (ctx : Nat) (dep : DWord) : Option Nat := if dep = 0 then none else s.signalPa ctx dep

/-- The launches with a record whose DEP names a counter of a range (R403): resident, queued, waiting for room, or evicted. -/
def State.launchesNaming (s : State) (lo n : Nat) : List Nat :=
  let hit (ctx : Nat) (dep : DWord) : Bool := (s.depPa ctx dep).any (counterIn lo n)
  let resident := s.cores.flatMap (fun e =>
    e.2.teams.filterMap (fun t => if hit t.2.ctx t.2.dep then some t.2.launch else none))
  let queued := (s.front.launches.filter (fun e =>
    (List.range e.2.header.stages.length).any (fun stage =>
      (s.queuedSlots e.2 stage).any (fun slot => hit e.2.ctx (BitVec.ofNat 64 (s.slotField e.2 stage slot 0x20 8)))))).map (·.1)
  let blocked := (s.front.requests.filter (fun r =>
    (s.launch? r.launch).any (fun l => r.records.any (fun rec_ => hit l.ctx (recDWord rec_ 0x20))))).map (·.launch)
  let away := (s.front.evicted.filter (fun e => hit e.team.ctx e.team.dep)).map (·.launch)
  (resident ++ queued ++ blocked ++ away).eraseDups

/-- An error in the dependence counters of a range that a group waits on or a record names (R403). -/
def State.depError (s : State) (lo n : Nat) : State :=
  let named := s.launchesNaming lo n
  named.foldl (fun s h => s.abortLaunch h 6) (s.counterError lo n)

/-- An error in a line at its home slice (R454): the line is poisoned. One in a stage queue or a counter is R403's. -/
def State.lineError (s : State) (addr : Nat) : State :=
  match placeOf addr with
  | .mem pa =>
    let line := pa / 128
    let s := { s with poisoned := (line :: s.poisoned).eraseDups }
    (s.queuesOfLine line).foldl (fun s q => s.queueError q.1 q.2) (s.depError (128 * line) 128)
  | _ => s

/-- An error in what the command at the head of the matrix queue reads (R322). -/
def State.matrixError (s : State) (core : Nat) : State :=
  s.modMatrix core (fun q =>
    match q with
    | [] => []
    | c :: rest => { c with bad := true } :: rest)

/-- An error in a bank element that the drain at the head of the queue reads (R341 KIND 6): the elements of its row hold
free values. -/
def State.drainError (s : State) (core : Nat) : State :=
  match (s.core core).drainHead with
  | none => s
  | some c =>
    if c.op ≠ .drain || c.latched.isNone || c.held.isSome || c.me ≤ c.row then s
    else
      let cells := (List.range 64).map (fun j => (bankOffset c.bank c.row j, Config.word s.fresh j))
      (s.useFresh.modCore core (fun k =>
        cells.foldl (fun k e => k.writeWin e.1 (bytesOfNum 4 e.2.toNat)) k)).modDrainHead core
          (fun c => { c with bad := true })

/-- An error in an entry of the Lift FIFO toward a core (16): the register that takes it is poisoned. -/
def State.liftError (s : State) (core index : Nat) : State :=
  s.modCore core (fun k => { k with incoming := k.incoming.modify index (fun e => { e with poisoned := true }) })

/-- An error in the audit ring or the measurement registers: the module enters SAFE (R454, R445). -/
def State.secureError (s : State) : State :=
  if s.security.state = .safe then s
  else (s.modSecurity (fun x => { x with state := .safe, started := false })).log 3 0xFF s.meas2

/-- An uncorrectable error (R454). -/
def State.uncorrectable (s : State) (p : ErrorPlace) : State :=
  match p with
  | .register r n => (s.registerError r (regOfNumber n)).logError none
  | .line addr => (s.lineError addr).logError (some (addr / 128 * 128))
  | .matrix core => if core < 384 then (s.matrixError core).logError none else s
  | .drainBank core => if core < 384 then (s.drainError core).logError none else s
  | .liftEntry core index => if core < 384 then (s.liftError core index).logError none else s
  | .queue h stage => (s.queueError h stage).logError none
  | .counter addr _ => (s.depError addr.toNat 8).logError (some addr.toNat)
  | .secure => (s.logError none).secureError

/-- An uncorrectable error (R454). -/
def execUncorrectableError (where_ : ErrorPlace) (s : State) : Host.Outcome State Fault Refusal :=
  .next (s.uncorrectable where_)

end Sys2Proof.Machine
end

