-- ==== Sys2Proof/Machine/Fetch.lean ====
section
/-! DEFINITION. Instruction fetch (03 R62, R63; 06 R133; 10 R243, R253; 11 R276, R277). -/

namespace Sys2Proof.Machine

/-- A fetch fault (10 R253, R256). -/
def fetchTrap (c : Cause) (va : DWord) : Stop := .trap { Trap.plain c with addr := va, fetch := true }

/-- What a missing translation of an instruction word does (11 R270, R276). A page of another module takes the host path there,
whatever this module's pool (19 R432). -/
def State.fetchMiss (s : State) (r : GroupRef) (va : DWord) (m : Miss) : Stop :=
  match m with
  | .cause c => fetchTrap c va
  | .notPresent =>
    if s.mayFirstTouch r && ((s.context (s.attrs r).ctx).remoteOf va.toNat).isNone then fetchTrap .pageNotPresent va
    else .hostPath (pageOf va)
  | _ => if s.mayFirstTouch r then fetchTrap .pageNotPresent va else .hostPath (pageOf va)

/-- The words of the 128-byte line at a physical address, as memory holds them: free values where the line holds an uncorrectable
error (20 R454). -/
def State.lineWords (s : State) (line : Nat) : List Word :=
  wordsOfBytes ((List.range 128).map (fun i => s.soundByte (.device (placeOf (128 * line + i)))))

/-- The state with a line in a core's instruction cache (06 R133), which holds 128 KiB: the line brought in first goes (01 R11;
log entry 71). -/
def State.fillLine (s : State) (core line : Nat) : State :=
  if (s.core core).icache.any (fun x => x.line = line) then s
  else s.modCore core (fun k => { k with icache := { line := line, words := s.lineWords line } :: k.icache.take 1023 })

/-- The word at a physical address in a core's instruction cache. -/
def Core.cachedWord (k : Core) (pa : Nat) : Option Word :=
  (k.icache.find? (fun x => x.line = pa / 128)).map (fun x => x.words.getD (pa % 128 / 4) 0)

/-- One instruction word of a group (03 R63). A word that the instruction cache does not hold stalls the group until it
arrives (10 R243), or is brought in when `fill` is set. A word of another module is a free value (log entry 5). -/
def State.fetchWord (s : State) (r : GroupRef) (fill : Bool) (va : DWord) : State × Attempt Word :=
  let a := s.attrs r
  let g := s.group r
  let (s', x) := s.translate r.core a.ctx .fetch (g.privilege = .user) va
  match x with
  | .error m => (s', .error (s.fetchMiss r va m))
  | .ok t =>
    match t.target with
    | .device pa =>
      match s'.placeCause a.ctx (g.kind = .tug) .fetch (placeOf pa) with
      | some c => (s', .error (fetchTrap c va))
      | none =>
        let s'' := if fill then s'.fillLine r.core (pa / 128) else s'
        match (s''.core r.core).cachedWord pa with
        | some w => (s'', .ok w)
        | none => (s'', .error (.stall .fetch))
    | x =>
      let byte (i : Nat) : Byte := s'.spotByte (x.spot i)
      (s'.useFresh, .ok (wordOfBytes (byte 0) (byte 1) (byte 2) (byte 3)))

/-- The words of the instruction at a group's PC, as its LEN or prefixes ask for them (03 R62; 04 R103, R108), and what
stopped the fetch if something did. -/
def State.fetchFrom (s : State) (r : GroupRef) (fill : Bool) (mode fuel : Nat) (got : List Word) :
    State × List Word × Option Stop :=
  match fuel with
  | 0 => (s, got, none)
  | fuel + 1 =>
    if !anotherWord mode got then (s, got, none)
    else
      match s.fetchWord r fill ((s.group r).pc + BitVec.ofNat 64 (4 * got.length)) with
      | (s', .ok w) => s'.fetchFrom r fill mode fuel (got ++ [w])
      | (s', .error e) => (s', got, some e)

/-- The instruction words at a group's PC. -/
def State.fetch (s : State) (r : GroupRef) (fill : Bool) : State × List Word × Option Stop :=
  s.fetchFrom r fill (s.attrs r).decode 5 []

/-- The words that a group waits for arrive (10 R243): the group goes on in its slot, or becomes ready if it has been
swapped out. -/
def State.wordsArrive (s : State) (r : GroupRef) : State :=
  let g := s.group r
  if g.hold = .fetch then
    let s := (s.fetch r true).1
    if g.status = .swapped then s.wake r else s.modGroup r (fun g => { g with hold := .none })
  else s

end Sys2Proof.Machine
end

