-- ==== Sys2Proof/Machine/Events.lean ====
section
/-! DEFINITION. The steps of the security block, the front end, the schedulers, the caches, the host and the links, one
meaning each. A step whose condition does not hold has no effect (log entry 4). -/

namespace Sys2Proof.Machine

/-! ### Starts and the security block (20) -/

/-- 20 R444. -/
def execColdStart (inp : StartInput) (s : State) : Host.Outcome State Fault Refusal := .next (s.coldStart inp)

/-- 20 R444. -/
def execWarmStart (inp : StartInput) (s : State) : Host.Outcome State Fault Refusal := .next (s.warmStart inp)

/-- 20 R445: only a start under way can fail. -/
def execStartFailure (s : State) : Host.Outcome State Fault Refusal :=
  .next (if s.security.started then s.failStart else s)

/-- 20 R445. -/
def execReady (s : State) : Host.Outcome State Fault Refusal := .next s.writeReady

/-- 20 R445. -/
def execMboxWrite (val : BitVec 64) (inp : StartInput) (s : State) : Host.Outcome State Fault Refusal :=
  .next (s.writeMbox val inp)

/-- 20 R453. -/
def execThermalTrip (s : State) : Host.Outcome State Fault Refusal := .next s.thermalTrip

/-- 20 R441. -/
def execMeasExtend (cmd : BitVec 32) (s : State) : Host.Outcome State Fault Refusal := .next (s.writeExtCmd cmd.toNat)

/-- 20 R442. -/
def execAttestationReport (cmd : BitVec 64) (s : State) : Host.Outcome State Fault Refusal :=
  .next (s.writeAttCmd cmd.toNat)

/-- 20 R448. -/
def execCtxCreate (ctx : Fin 64) (s : State) : Host.Outcome State Fault Refusal := .next (s.ctxCreate ctx)

/-- 20 R447. -/
def execCtxRelease (ctx : Fin 64) (s : State) : Host.Outcome State Fault Refusal := .next (s.ctxRelease ctx)

/-- 20 R449. -/
def execCorectxWrite (core : Fin 384) (val : BitVec 64) (s : State) : Host.Outcome State Fault Refusal :=
  .next (s.writeCoreCtx core val.toNat)

/-- 20 R451. -/
def execAuditAppend (event : BitVec 16) (tug : Bool) (s : State) : Host.Outcome State Fault Refusal :=
  .next (s.auditAppend event.toNat tug)

/-- 20 R452. -/
def execAuditSpill (s : State) : Host.Outcome State Fault Refusal := .next s.auditSpill

/-! ### The front end (18, 11 R269) -/

/-- 18 R405. -/
def execDoorbellWrite (q : Fin 1024) (val : BitVec 64) (func : Nat) (s : State) : Host.Outcome State Fault Refusal :=
  .next (s.doorbell q val func)

/-- 18 R406. -/
def execRunListWrite (q : Fin 1024) (val : BitVec 64) (s : State) : Host.Outcome State Fault Refusal :=
  .next (s.writeRunList q val.toNat)

/-- 18 R424. -/
def execMap (slot : Fin 128) (q : Fin 1024) (s : State) : Host.Outcome State Fault Refusal := .next (s.mapQueue slot q)

/-- 18 R424. -/
def execUnmapSuspend (slot : Fin 128) (s : State) : Host.Outcome State Fault Refusal := .next (s.unmapSuspend slot)

/-- 18 R425. -/
def execUnmapDestroy (slot : Fin 128) (s : State) : Host.Outcome State Fault Refusal := .next (s.unmapDestroy slot)

/-- 18 R425. -/
def execQueueDestroyed (q : Fin 1024) (s : State) : Host.Outcome State Fault Refusal := .next (s.queueDestroyed q)

/-- 18 R424. -/
def execSwitch (slot : Fin 128) (q : Fin 1024) (s : State) : Host.Outcome State Fault Refusal :=
  .next (s.switchQueue slot q)

/-- 11 R269. -/
def execPooltailWrite (ctx : Fin 64) (val : Word) (s : State) : Host.Outcome State Fault Refusal :=
  .next (s.writePoolTail ctx val)

/-- 00 R5: a write of control space by the host driver or the Pilot. -/
def execRegisterWrite (addr : BitVec 48) (size : Nat) (val : BitVec 64) (s : State) : Host.Outcome State Fault Refusal :=
  .next (if 0x0FF000000000 ≤ addr.toNat && addr.toNat < 0x100000000000 then
    s.writeControl (addr.toNat - 0x0FF000000000) size val.toNat false else s)

/-- 10 R263. -/
def execDebugAttach (s : State) : Host.Outcome State Fault Refusal := .next s.debugAttach

/-- 10 R263. -/
def execDebugDetach (s : State) : Host.Outcome State Fault Refusal := .next s.debugDetach

/-- 10 R261. -/
def execDebugStop (s : State) : Host.Outcome State Fault Refusal := .next s.debugStop

/-- 10 R261. -/
def execDebugResume (s : State) : Host.Outcome State Fault Refusal := .next s.debugResume

/-- 10 R261. -/
def execDebugStep (s : State) : Host.Outcome State Fault Refusal := .next s.debugStep

/-- 10 R261. -/
def execDebugRead (s : State) : Host.Outcome State Fault Refusal := .next s.debugRead

/-- 10 R261. -/
def execDebugWrite (s : State) : Host.Outcome State Fault Refusal := .next s.debugWrite

/-- 18 R419. -/
def execLaunchPacket (q : Fin 1024) (s : State) : Host.Outcome State Fault Refusal := .next (s.launchPacket q)

/-- 18 R414. -/
def execBarrierPacket (q : Fin 1024) (s : State) : Host.Outcome State Fault Refusal := .next (s.barrierPacket q)

/-- 18 R414. -/
def execBarrierEvaluation (q : Fin 1024) (s : State) : Host.Outcome State Fault Refusal := .next (s.evaluateBarrier q)

/-- 18 R412. -/
def execSignalPacket (q : Fin 1024) (s : State) : Host.Outcome State Fault Refusal := .next (s.signalPacket q)

/-- 18 R412. -/
def execCopyPacket (q : Fin 1024) (s : State) : Host.Outcome State Fault Refusal := .next (s.copyPacket q)

/-- 18 R411. -/
def execCopyComplete (q : Fin 1024) (index : BitVec 64) (s : State) : Host.Outcome State Fault Refusal :=
  .next (s.copyComplete q index.toNat)

/-- 18 R417. -/
def execPredPacket (q : Fin 1024) (s : State) : Host.Outcome State Fault Refusal := .next (s.predPacket q)

/-- 18 R412. -/
def execInvalPacket (q : Fin 1024) (s : State) : Host.Outcome State Fault Refusal := .next (s.invalPacket q)

/-- 18 R412. -/
def execMarkerPacket (q : Fin 1024) (s : State) : Host.Outcome State Fault Refusal := .next (s.markerPacket q)

/-- 18 R411. -/
def execNopPacket (q : Fin 1024) (s : State) : Host.Outcome State Fault Refusal := .next (s.nopPacket q)

/-! ### The watchdog, the schedulers, eviction and kills (18 R426; 17 R392, R393; 02 R54-R58) -/

/-- 18 R426. -/
def execWatchdogT1 (team : TeamRef) (s : State) : Host.Outcome State Fault Refusal := .next (s.watchdogT1 team)

/-- 18 R426. -/
def execWatchdogT2 (team : TeamRef) (s : State) : Host.Outcome State Fault Refusal := .next (s.watchdogT2 team)

/-- 18 R426. -/
def execWatchdogT3 (team : TeamRef) (s : State) : Host.Outcome State Fault Refusal := .next (s.watchdogT3 team)

/-- 17 R393: the plan is the Pilot's. -/
def execPilotSchedulingRound (plan : List Assignment) (s : State) : Host.Outcome State Fault Refusal :=
  .next (s.schedulingRound plan)

/-- 17 R392. -/
def execTugClaim (core : Fin 384) (placement : Placement) (s : State) : Host.Outcome State Fault Refusal :=
  .next (s.tugClaim core placement)

/-- 02 R54. -/
def execEviction (team : TeamRef) (s : State) : Host.Outcome State Fault Refusal := .next (s.evictionStep team)

/-- 02 R57. -/
def execHaltDelivery (group : GroupRef) (s : State) : Host.Outcome State Fault Refusal := .next (s.haltDelivery group)

/-- 02 R58. -/
def execTeamKill (team : TeamRef) (s : State) : Host.Outcome State Fault Refusal := .next (s.teamKill team)

/-! ### Runs, returns and caches (02 R46, R49; 07 R165; 06 R157; 09 R236; 10 R243, R245) -/

/-- 02 R46: the run of a group that has issued 64 instructions ends. -/
def execRunLimit (group : GroupRef) (s : State) : Host.Outcome State Fault Refusal :=
  .next (if (s.group group).status = .running && 64 ≤ (s.group group).run then s.endRunReady group else s)

/-- THRESH as it acts (02 R50). -/
def swapLimit (th : Nat) : Nat := if th < 64 then 64 else th

/-- 02 R49: a group whose stall has passed THRESH leaves its barrel slot, with its latches, operand cache and run count. -/
def execTransparentSwap (group : GroupRef) (s : State) : Host.Outcome State Fault Refusal :=
  let g := s.group group
  let th := (s.core group.core).swapth
  .next (if g.status = .running && th ≠ 0 && swapLimit th < g.stall then
    (s.modGroup group (fun g => { g with status := .swapped, stall := 0 })).leaveBarrel group else s)

/-- 07 R165. -/
def execLoadReturn (group : GroupRef) (id : Nat) (s : State) : Host.Outcome State Fault Refusal :=
  .next (s.returnResult group id)

/-- 06 R157. -/
def execStorePerform (core : Fin 384) (id : Nat) (s : State) : Host.Outcome State Fault Refusal :=
  .next (s.storePerform core id)

/-- 09 R236: the stack cache writes the 16 bytes of every lane from an offset of the stack back to its backing page, or
reads them from it. A translation that fails leaves it for a later try. -/
def execStackWriteback (group : GroupRef) (offset : Nat) (refill : Bool) (s : State) : Host.Outcome State Fault Refusal :=
  .next (s.stackWriteback group offset refill)

/-- 10 R243. -/
def execInstructionFetch (group : GroupRef) (s : State) : Host.Outcome State Fault Refusal := .next (s.wordsArrive group)

/-- 10 R245: a sleeping group that has been swapped out joins the ready queue again; its sleep then ends at its issue. -/
def execSleepExpiry (group : GroupRef) (s : State) : Host.Outcome State Fault Refusal :=
  let g := s.group group
  .next (match g.hold with
    | .sleep t =>
      if t ≤ s.time && g.status = .swapped then
        (s.modGroup group (fun g => { g with status := .running })).joinReady group (s.cycle + 1)
      else s
    | _ => s)

/-! ### Translation and the host (11) -/

/-- 11 R266: the walk of a core for an address, as a read with supervisor privilege. -/
def execPageWalkComplete (core : Fin 384) (ctx : Fin 64) (va : BitVec 64) (s : State) : Host.Outcome State Fault Refusal :=
  .next (if (s.context ctx).valid && bits va.toNat 63 56 = 0xFF && ((s.context ctx).remoteOf va.toNat).isNone then
    (s.translateByWalk core ctx .read false (va.toNat % 2 ^ 56)).1 else s)

/-- 11 R277. -/
def execHostPageResponse (ctx : Fin 64) (page : BitVec 64) (mapped : Bool) (s : State) :
    Host.Outcome State Fault Refusal := .next (s.hostPageResponse ctx page mapped)

/-- 11 R270. -/
def execAtsCompletion (ctx : Fin 64) (page : BitVec 64) (r w : Bool) (s : State) : Host.Outcome State Fault Refusal :=
  .next (s.atsCompletion ctx page r w)

/-- 11 R270. -/
def execPriResponse (ctx : Fin 64) (page : BitVec 64) (ok : Bool) (s : State) : Host.Outcome State Fault Refusal :=
  .next (s.priResponse ctx page ok)

/-- 11 R270. -/
def execAtsInvalidateRequest (ctx : Fin 64) (page : BitVec 64) (s : State) : Host.Outcome State Fault Refusal :=
  .next (s.atsInvalidate ctx page)

/-- 11 R278. -/
def execShootdownComplete (id : Nat) (s : State) : Host.Outcome State Fault Refusal := .next (s.shootdownComplete id)

/-! ### Outside accesses and links (19) -/

/-- 19 R429. -/
def execHostBar2Access (addr : BitVec 48) (access : OutsideAccess) (s : State) : Host.Outcome State Fault Refusal :=
  .next (s.bar2Access addr.toNat access)

/-- 19 R433. -/
def execRemoteAccess (ctx : Fin 64) (va : BitVec 64) (access : OutsideAccess) (s : State) :
    Host.Outcome State Fault Refusal := .next (s.remoteAccess ctx va access)

/-- 19 R434. -/
def execLinkDown (link : Fin 18) (s : State) : Host.Outcome State Fault Refusal := .next (s.linkDown link)

/-- 19 R430. -/
def execLinkUp (link : Fin 18) (peer : BitVec 16) (s : State) : Host.Outcome State Fault Refusal :=
  .next (s.linkUp link peer)

/-! ### Words that are no instruction (03 R83) -/

/-- 03 R83 orders 2 and 3: NEVER_ASSIGNED for OP8 0xFF, LATER_LEVEL for an unassigned cell; words of any other kind are
decoded elsewhere and have no effect here. -/
def execIllegalInstruction (words : List Word) (s : State) : Host.Outcome State Fault Refusal :=
  match parse (s.attrs s.issuing).decode words with
  | .error .neverAssigned => .next (s.trap s.issuing { Trap.plain .illegalInstruction with reason := 2 })
  | .error .laterLevel => .next (s.trap s.issuing { Trap.plain .illegalInstruction with reason := 1 })
  | _ => .next s

end Sys2Proof.Machine
end

