-- ==== Sys2Proof/Machine/LoadStore.lean ====
section
/-! DEFINITION. The load-store engine's instructions (09). -/

namespace Sys2Proof.Machine

/-! ### Loads, stores and atomics to memory, scratchpad and windows (R222, R223, R228) -/

/-- Has the sub-core room for another access that awaits a return (R219), behind the older requests of it (02 R51)? -/
def State.mayAwait (s : State) (r : GroupRef) : Bool := s.accepts r .loads

/-- The remote ranges through which an instruction's accesses go (19 R434). -/
def remoteOf (xs : List LaneAccess) : List (DWord × DWord) := (xs.flatMap (·.remote)).eraseDups

/-- Does an opcode of the load-store engine return a result? -/
def returnsResult (op : Op) : Bool :=
  match op with
  | .ld | .ldu | .lds | .ldw | .atom | .atoms => true
  | _ => false

/-- The instruction issues, and its accesses are held: its destinations stay pending, and the group goes on (11 R273). -/
def Issue.holdAccess (x : Issue) (op : Op) (f : LongFields) (lanes : List Nat) (page : DWord) (cause : Nat) : State :=
  let r := x.s.issuing
  let g := x.s.group r
  let pending : Bool := returnsResult op && x.dest.mask ≠ 0 && x.dest.regs ≠ []
  let held : HeldAccess :=
    { op := op, f := f, a := x.a, b := x.b, c := x.c, active := x.lanes, lanes := lanes, sup := g.sup
      result := if pending then g.nextResult else 0, page := page, cause := cause }
  let legacy := (x.s.attrs r).decode ≠ 9
  let s := if returnsResult op then
      x.s.modGroup r (fun g => (g.putPending legacy x.marked x.dest (x.dest.regs.map (fun _ => Lanes.splat 0)) false []).markAccess held.result)
    else x.finishPlain
  s.modGroup r (fun g => { g with predicted := g.predicted ++ [held] })

/-- As `holdAccess` for a page on which a prediction has failed: the host is asked for it (11 R273). -/
def Issue.holdForPage (x : Issue) (op : Op) (f : LongFields) (lanes : List Nat) (page : DWord) (cause : Nat) : State :=
  (x.holdAccess op f lanes page cause).requestPage (x.s.attrs x.s.issuing).ctx page (some x.s.issuing) none

/-- An instruction whose accesses are checked and then performed by `go`, which is given the issue as the checks left it
and the accesses of the lanes (R219, R220). An instruction with no lane to access is accepted at once. While accesses of the group
are held, one that is accepted is performed after them (06 R143, R144). -/
def State.accessOp (s : State) (op : Op) (f : LongFields) (k : AccessKind) (lanes : Issue → List Nat)
    (go : Issue → List LaneAccess → State) : Host.Outcome State Fault Refusal :=
  match s.prepare op f with
  | .error e => .next (s.stopped e)
  | .ok x =>
    let r := x.s.issuing
    let (s', xs) := x.s.laneAccesses r op f k (accessBytes f) x (lanes x)
    match firstFail xs xs, heldPage xs with
    | some e, none => .next (x.stopIn s' e)
    | some _, some (page, c) =>
      if !s'.mayAwait r then .next (x.stopIn s' (.stall (.accept .loads)))
      else .next (({ x with s := s' } : Issue).holdForPage op f (lanes x) page c)
    | none, _ =>
      if xs ≠ [] && !s'.mayAwait r then .next (x.stopIn s' (.stall (.accept .loads)))
      else if xs ≠ [] && (s'.group r).predicted ≠ [] then .next (({ x with s := s' } : Issue).holdAccess op f (lanes x) 0 0)
      else .next (go { x with s := s' } (passed xs))

/-- What loads return, and the state after them. -/
def State.performLoads (s : State) (r : GroupRef) (op : Op) (f : LongFields) (active : Mask) (xs : List LaneAccess) :
    State × List Lanes :=
  let (s', vs) := (s.beforeLoads r op f active xs).loadLanes r f xs
  let one := if f.u || op = .ldu then (xs.head?).map (·.lane) else none
  (s'.acquireL1 r.core f, resultOf (resultWords op f) one vs)

/-- Do the accesses read a line that holds an uncorrectable error (R221)? -/
def State.accessPoison (s : State) (xs : List LaneAccess) : Bool := xs.any (fun y => s.spotPoison y.spots)

/-- Loads: the values are those at acceptance, and the result returns later (log entry 22). -/
def State.loadOp (s : State) (op : Op) (f : LongFields) : Host.Outcome State Fault Refusal :=
  s.accessOp op f .read (fun x => x.accessLanes op f) (fun x xs =>
    let y := x.s.performLoads x.s.issuing op f x.lanes xs
    { x with s := y.1 }.finishAccess y.2 (y.1.accessPoison xs) (remoteOf xs))

/-- The bytes that a lane's store writes (R222): for stm those that its byte mask selects. -/
def storeBytes (op : Op) (x : Issue) (a : LaneAccess) : List (Spot × Byte) :=
  let bs := a.spots.zip (datumBytes x.c a.spots.length a.lane)
  if op = .stm then
    ((List.range bs.length).zip bs).filterMap (fun ib =>
      if (laneVal x.b a.lane).getLsbD ib.1 then some ib.2 else none)
  else bs

/-- Is a lane's access of stm empty (R222)? -/
def emptyMask (f : LongFields) (x : Issue) (l : Nat) : Bool :=
  (List.range (accessBytes f)).all (fun i => !(laneVal x.b l).getLsbD i)

/-- The lanes of a store: stm leaves out those with an empty byte mask (R222). -/
def Issue.storeLanes (x : Issue) (op : Op) (f : LongFields) : List Nat :=
  let ls := x.accessLanes op f
  if op = .stm then ls.filter (fun l => !emptyMask f x l) else ls

/-- The stores of the lanes. -/
def State.performStores (s : State) (r : GroupRef) (op : Op) (f : LongFields) (x : Issue) (xs : List LaneAccess) : State :=
  let s := xs.foldl (fun s a => s.markAccess r op a) s
  let s := s.storeOut r f (xs.any (·.strong)) (xs.flatMap (storeBytes op x))
  xs.foldl (fun s a => s.writeNow (storeBytes op x a)) s

/-- Stores. -/
def State.storeOp (s : State) (op : Op) (f : LongFields) : Host.Outcome State Fault Refusal :=
  s.accessOp op f .write (fun x => x.storeLanes op f) (fun x xs =>
    { x with s := x.s.performStores x.s.issuing op f x xs }.finishPlain)

/-- The atomics of the lanes, and what they return; the group's earlier stores are performed first (06 R143). -/
def State.performAtomics (s : State) (r : GroupRef) (op : Op) (f : LongFields) (c : List Lanes) (xs : List LaneAccess) :
    State × List Lanes :=
  let (s', vs) := (s.flushStores r).atomicLanes r op f c xs
  (s'.acquireL1 r.core f, resultOf (resultWords op f) (if f.u then (xs.head?).map (·.lane) else none) vs)

/-- Atomics, with a result for atom and atoms. -/
def State.atomicOp (s : State) (op : Op) (f : LongFields) (result : Bool) : Host.Outcome State Fault Refusal :=
  s.accessOp op f .atomic (fun x => x.accessLanes op f) (fun x xs =>
    let y := x.s.performAtomics x.s.issuing op f x.c xs
    if result then { x with s := y.1 }.finishAccess y.2 (y.1.accessPoison xs) (remoteOf xs)
    else { x with s := y.1 }.finishPlain)

/-! ### Accesses that a failed prediction holds (11 R273) -/

/-- How a held access accesses memory. -/
def HeldAccess.kind (p : HeldAccess) : AccessKind :=
  match p.op with
  | .ld | .ldu | .lds | .ldw => .read
  | .st | .stm | .sts | .stw => .write
  | _ => .atomic

/-- A held load's or atomic's result is there, and its return is due. -/
def State.heldResult (s : State) (r : GroupRef) (p : HeldAccess) (words : List Lanes) (xs : List LaneAccess) : State :=
  let bad := s.accessPoison xs
  let fill (o : Outstanding) : Outstanding :=
    if o.id = p.result then
      { o with regs := (o.regs.map (·.1)).zip words, poisoned := bad, remote := remoteOf xs } else o
  if (s.group r).outstanding.any (fun o => o.id = p.result) then
    (s.modGroup r (fun g => { g with outstanding := g.outstanding.map fill })).due [Instr.loadReturn r p.result]
  else s

/-- A held access is performed under the walk's translation. -/
def State.performHeld (s : State) (r : GroupRef) (p : HeldAccess) (x : Issue) (xs : List LaneAccess) : State :=
  match p.kind with
  | .read =>
    let y := s.performLoads r p.op p.f p.active xs
    y.1.heldResult r p y.2 xs
  | .write => s.performStores r p.op p.f x xs
  | _ =>
    let y := s.performAtomics r p.op p.f p.c xs
    y.1.heldResult r p y.2 xs

/-- The oldest held access of a group is tried again, once the host has answered for its page: it is performed, or waits for
another page, or ends as the host's refusal does when a check of R220 fails (DEDUCED, log entry 65). Those behind it follow in the
next cycles. -/
def State.retryHeld (s : State) (r : GroupRef) : State :=
  match (s.group r).predicted with
  | [] => s
  | p :: rest =>
    let ctx := (s.attrs r).ctx
    if p.cause ≠ 0 && (s.context ctx).hostRequests.any (fun h => h.page = p.page) then s
    else
      let sup := (s.group r).sup
      let s := s.modGroup r (fun g => { g with predicted := [], sup := p.sup })
      let x : Issue :=
        { s := s, a := p.a, b := p.b, c := p.c, lanes := p.active, flagLanes := 0, dest := ⟨[], false, 0⟩, latch := 0, acts := true
          marked := [], oldNU := false }
      let (t, xs) := s.laneAccesses r p.op p.f p.kind (accessBytes p.f) x p.lanes
      let back (l : List HeldAccess) (s : State) : State := s.modGroup r (fun g => { g with predicted := l, sup := sup })
      match firstFail xs xs, missingPage xs with
      | none, _ => back rest (t.performHeld r p x (passed xs))
      | some _, some page =>
        (back ({ p with page := page, cause := Cause.pageNotPresent.code } :: rest) t).requestPage ctx page (some r) none
      | some (.trap e), none => ((back rest t).modGroup r (fun g => g.forget [p])).hostKills r e.cause.code
      | some _, none => back (p :: rest) t

/-- ld, short. -/
def execLdShort (f : ShortFields) (s : State) : Host.Outcome State Fault Refusal := s.loadOp .ld (f.widen .ld)
/-- ld. -/
def execLdLong (f : LongFields) (s : State) : Host.Outcome State Fault Refusal := s.loadOp .ld f
/-- lds, short. -/
def execLdsShort (f : ShortFields) (s : State) : Host.Outcome State Fault Refusal := s.loadOp .lds (f.widen .lds)
/-- lds. -/
def execLdsLong (f : LongFields) (s : State) : Host.Outcome State Fault Refusal := s.loadOp .lds f
/-- ldw. -/
def execLdw (f : LongFields) (s : State) : Host.Outcome State Fault Refusal := s.loadOp .ldw f
/-- ldu, short (R223). -/
def execLduShort (f : ShortFields) (s : State) : Host.Outcome State Fault Refusal := s.loadOp .ldu (f.widen .ldu)
/-- ldu (R223). -/
def execLduLong (f : LongFields) (s : State) : Host.Outcome State Fault Refusal := s.loadOp .ldu f
/-- st. -/
def execSt (f : LongFields) (s : State) : Host.Outcome State Fault Refusal := s.storeOp .st f
/-- sts. -/
def execSts (f : LongFields) (s : State) : Host.Outcome State Fault Refusal := s.storeOp .sts f
/-- stw. -/
def execStw (f : LongFields) (s : State) : Host.Outcome State Fault Refusal := s.storeOp .stw f
/-- stm. -/
def execStm (f : LongFields) (s : State) : Host.Outcome State Fault Refusal := s.storeOp .stm f
/-- atom. -/
def execAtom (f : LongFields) (s : State) : Host.Outcome State Fault Refusal := s.atomicOp .atom f true
/-- atoms. -/
def execAtoms (f : LongFields) (s : State) : Host.Outcome State Fault Refusal := s.atomicOp .atoms f true
/-- red. -/
def execRed (f : LongFields) (s : State) : Host.Outcome State Fault Refusal := s.atomicOp .red f false
/-- reds. -/
def execReds (f : LongFields) (s : State) : Host.Outcome State Fault Refusal := s.atomicOp .reds f false

/-! ### Private stacks (R233-R236) -/

/-- A lane's private offset (R217). -/
def privateOffset (f : LongFields) (sp : Nat) (a b : DWord) : Int := (sp : Int) + intOf 32 true a + scaledIndex f b + dispOf f

/-- Is a private offset valid (R217)? -/
def privateOk (sp n : Nat) (off : Int) : Bool := 0 ≤ off && off + n ≤ sp

/-- A private access (R235): the range check of every lane, then the bytes that the stack cache lacks, then `go` with the
offsets. -/
def State.privateOp (s : State) (op : Op) (f : LongFields) (go : Issue → List (Nat × Nat) → State) :
    Host.Outcome State Fault Refusal :=
  match s.prepare op f with
  | .error e => .next (s.stopped e)
  | .ok x =>
    let r := x.s.issuing
    let n := accessBytes f
    let sp := x.s.self.sp
    let offs := (x.accessLanes op f).map (fun l => (l, privateOffset f sp (laneVal x.a l) (laneVal x.b l)))
    let bad := offs.filter (fun o => !privateOk sp n o.2)
    match bad with
    | (_, off) :: _ =>
      .next (x.stopIn x.s (.trap { Trap.plain .stackRange with
        lanes := some (Mask.ofFn (fun l => bad.any (fun o => o.1 = l))), addr := BitVec.ofInt 64 off }))
    | [] =>
      let places := offs.map (fun o => (o.1, o.2.toNat))
      let (s', e) := x.s.needBlocks r (places.flatMap (fun o => [o.2 / 16, (o.2 + n - 1) / 16])).eraseDups
      match e with
      | some e => .next (x.stopIn s' e)
      | none =>
        if places ≠ [] && !s'.mayAwait r then .next (x.stopIn s' (.stall (.accept .loads)))
        else .next (go { x with s := s' } places)

/-- ldl. -/
def State.ldlOp (s : State) (f : LongFields) : Host.Outcome State Fault Refusal :=
  s.privateOp .ldl f (fun x offs =>
    let g := x.s.self
    let vs := offs.map (fun o => (o.1, extendLoad f (g.readStack o.1 o.2 (accessBytes f))))
    let one := if f.u then (offs.head?).map (·.1) else none
    x.finishAccess (resultOf (resultWords .ldl f) one vs)
      (offs.any (fun o => g.stackBad o.1 o.2 (accessBytes f))) [])

/-- stl. -/
def State.stlOp (s : State) (f : LongFields) : Host.Outcome State Fault Refusal :=
  s.privateOp .stl f (fun x offs =>
    let s := x.s.modSelf (fun g =>
      offs.foldl (fun g o => g.writeStackBytes o.1 o.2 (datumBytes x.c (accessBytes f) o.1)) g)
    { x with s := s }.finishPlain)

/-- ldl. -/
def execLdl (f : LongFields) (s : State) : Host.Outcome State Fault Refusal := s.ldlOp f
/-- stl. -/
def execStl (f : LongFields) (s : State) : Host.Outcome State Fault Refusal := s.stlOp f

/-- frame.enter and frame.leave (R234; log entry 44 for the blocks that are refilled): SP changes for every later use of it, with the timing of class 1. -/
def State.frameOp (s : State) (op : Op) (f : LongFields) : Host.Outcome State Fault Refusal :=
  match s.prepare op f with
  | .error e => .next (s.stopped e)
  | .ok x =>
    let r := x.s.issuing
    let n := 16 * f.ext.toNat
    let g := x.s.self
    let enter : Bool := op = .frameEnter
    if enter && g.limit < g.sp + n then .next (x.stopIn x.s (.trap (Trap.plain .stackOverflow)))
    else if !enter && g.sp < n then .next (x.stopIn x.s (.trap (Trap.plain .stackRange)))
    else
      let blocks := if enter then (g.missing.filter (fun b => g.sp ≤ 16 * b && 16 * b < g.sp + n)).take stackBlocks else []
      let (s', e) := x.s.needBlocks r blocks
      match e with
      | some e => .next (x.stopIn s' e)
      | none =>
        let sp := if enter then g.sp + n else g.sp - n
        .next { x with s := s'.modSelf (fun g => { g with spWrites := g.spWrites ++ [(s'.cycle + 4, sp)] }) }.finishPlain

/-- frame.enter. -/
def execFrameEnter (f : LongFields) (s : State) : Host.Outcome State Fault Refusal := s.frameOp .frameEnter f
/-- frame.leave. -/
def execFrameLeave (f : LongFields) (s : State) : Host.Outcome State Fault Refusal := s.frameOp .frameLeave f

/-! ### Fences and caches (R229-R232) -/

/-- fence (R229): a release waits for the buffered stores, which it performs; an acquire at clu or wider drops the L1. -/
def State.fenceOp (s : State) (f : LongFields) : Host.Outcome State Fault Refusal :=
  s.finish (do
    let x ← s.prepare .fence f
    let r := x.s.issuing
    let t := if releases f then x.s.flushStores r else x.s
    return { x with s := t.acquireL1 r.core f }.finishPlain)

/-- fence. -/
def execFence (f : LongFields) (s : State) : Host.Outcome State Fault Refusal := s.fenceOp f

/-- The device lines of the lanes of pref and cctl; a lane whose address fails is skipped (R220, R230). -/
def State.lineAccesses (s : State) (op : Op) (f : LongFields) (x : Issue) (ls : List Nat) : State × List Nat :=
  let (s', xs) := s.laneAccesses x.s.issuing op f .read 1 x ls
  (s', (passed xs).flatMap (fun a => spotLines a.spots))

/-- pref (R230). -/
def State.prefOp (s : State) (f : LongFields) : Host.Outcome State Fault Refusal :=
  s.finish (do
    let x ← s.prepare .pref f
    if x.accessLanes .pref f ≠ [] && !x.s.mayAwait x.s.issuing then .error (.stall (.accept .loads))
    let (t, lines) := x.s.lineAccesses .pref f x (x.accessLanes .pref f)
    let t := if f.cp = 0 then lines.foldl (fun s n => s.fillL1 x.s.issuing.core n) t else t
    return { x with s := t }.finishPlain)

/-- pref. -/
def execPref (f : LongFields) (s : State) : Host.Outcome State Fault Refusal := s.prefOp f

/-- cctl by SUB (R231): the L2 holds nothing that memory does not, so only the L1 changes. -/
def State.cctlOp (s : State) (f : LongFields) : Host.Outcome State Fault Refusal :=
  s.finish (do
    let x ← s.prepare .cctl f
    let core := x.s.issuing.core
    if f.lsub = 1 then return { x with s := x.s.dropAllL1 core }.finishPlain
    else if x.accessLanes .cctl f ≠ [] && !x.s.mayAwait x.s.issuing then .error (.stall (.accept .loads))
    else
      let (t, lines) := x.s.lineAccesses .cctl f x (x.accessLanes .cctl f)
      return { x with s := if f.lsub = 0 then t.dropLines core lines else t }.finishPlain)

/-- cctl. -/
def execCctl (f : LongFields) (s : State) : Host.Outcome State Fault Refusal := s.cctlOp f

/-- icinv (R232): the invalidation is complete at its issue. -/
def State.icinvOp (s : State) (f : LongFields) : Host.Outcome State Fault Refusal :=
  s.finish (do
    let x ← s.prepare .icinv f
    return { x with s := x.s.modCore x.s.issuing.core (fun k => { k with icache := [] }) }.finishPlain)

/-- icinv. -/
def execIcinv (f : LongFields) (s : State) : Host.Outcome State Fault Refusal := s.icinvOp f

end Sys2Proof.Machine
end

