-- ==== Sys2Proof/Machine/Pages.lean ====
section
/-! DEFINITION. The instructions of the translation engine (11 R281-R285). -/

namespace Sys2Proof.Machine

/-- The privilege that the opcode needs (R281). -/
def Issue.needs (x : Issue) (p : Privilege) : Attempt Unit := check (x.s.self.privilege.atLeast p) .privilege

/-- The lane whose value stands in every lane of a uniform execution, if there is one (07 R173). -/
def Issue.oneLane (x : Issue) (op : Op) (f : LongFields) : Option Nat :=
  if f.u then (x.accessLanes op f).head? else none

/-! ### probe (R282) -/

/-- The access kind that ACC selects. -/
def probeKind (acc : Nat) : AccessKind := if acc = 1 then .write else if acc = 2 then .fetch else .read

/-- Bits [57:0] for a leaf. -/
def leafBits (w : WalkEnd) (va : Nat) : Nat :=
  let e := w.entry
  bits e 7 7 * 2 ^ 57 + bits e 6 6 * 2 ^ 56 + bits e 5 2 * 2 ^ 52 + w.level * 2 ^ 50 + bits e 9 8 * 2 ^ 48 + w.pa va

/-- What probe writes for an address: the walk's outcome (R266) with the leaf's attributes. An address in a remote range is walked
in the issuer's own tables (DESIGN CHOICE, log entry 98). -/
def State.probeValue (s : State) (ctx : Nat) (k : AccessKind) (asUser : Bool) (va : DWord) : Nat :=
  let status (n : Nat) : Nat := n * 2 ^ 58
  if !va.msb then status 5
  else if bits va.toNat 63 56 ≠ 0xFF then status 4
  else
    let v := va.toNat % 2 ^ 56
    let w := walkChecked s.mem v 3 (s.context ctx).root
    match w.result with
    | .notPresent => status 1
    | .malformed => status 6
    | .badOrd => status 3
    | .leaf => (if entryPermits w.entry k asUser then 0 else status 2) + leafBits w v

/-- probe. -/
def State.probeOp (s : State) (f : LongFields) : Host.Outcome State Fault Refusal :=
  s.finish (do
    let x ← s.prepare .probe f
    let ctx := x.s.selfAttrs.ctx
    let asUser : Bool := x.s.self.privilege = .user
    let vs := (x.accessLanes .probe f).map (fun l =>
      (l, x.s.probeValue ctx (probeKind (f.modBits 14 13)) asUser (laneVal x.a l)))
    return x.finishPending (resultOf 2 (x.oneLane .probe f) vs) false [])

/-! ### mapp (R283) -/

/-- Entry `i` of the pool ring: its frame's physical address (R269). -/
def State.poolFrame (s : State) (c : Context) (i : Nat) : Nat :=
  let n := c.poolHead.toNat + i
  bits (Memory.readNum s.mem (c.poolBase + 8 * (n % 2 ^ 32 % c.poolSize.toNat)) 8) 47 16 * 2 ^ 16

/-- Are the attributes, and the frame of mapp.frame, invalid (status 3)? -/
def badAttributes (attr : Nat) (frame : Option Nat) : Bool :=
  attr / 2 ^ 10 ≠ 0 || (attr.testBit 1 && attr.testBit 2) || bits attr 5 4 = 3 ||
    match frame with
    | none => bits attr 9 6 ≠ 0
    | some c => bits c 15 0 ≠ 0 || bits c 63 48 ≠ 0 || placeOf c = .hole

/-- The leaf with V and LEAF, the attributes of B and a frame, A and D clear (R265, R283). -/
def leafOf (attr frame : Nat) : Nat := 3 + bits attr 3 0 * 4 + bits attr 9 4 * 2 ^ 8 + frame

/-- The tables that are missing below an entry that ended the walk, each on a pool frame, and then the leaf: the entry's
address, the level it stands at, and the frames in the order in which they are taken (tables from the root down, then
the leaf's frame; DESIGN CHOICE, log entry 24). -/
def State.buildPath (s : State) (va : Nat) (leaf : Nat → Nat) : Nat → Nat → List Nat → State
  | 0, at_, frames => s.writeMem at_ 8 (leaf (frames.headD 0))
  | n + 1, at_, frames =>
    let table := frames.headD 0
    (s.writeMem at_ 8 (table + 1)).buildPath va leaf n (table + 8 * bits va (25 + 10 * n) (16 + 10 * n)) frames.tail

/-- One lane's install: the status, and the state after (R283). -/
def State.mapLane (s : State) (ctx : Nat) (va : DWord) (attr : Nat) (frame : Option Nat) : State × Nat :=
  if bits va.toNat 63 56 ≠ 0xFF then (s, 4)
  else if badAttributes attr frame then (s, 3)
  else
    let v := va.toNat % 2 ^ 56
    let c := s.context ctx
    let w := walkChecked s.mem v 3 c.root
    match w.result with
    | .malformed => (s, 5)
    | .badOrd => (s, 5)
    | .leaf => (s, 1)
    | .notPresent =>
      let need := w.level + (if frame.isNone then 1 else 0)
      if c.poolCount < need then (s, 2)
      else
        let frames := (List.range need).map (s.poolFrame c)
        let leaf (p : Nat) : Nat := leafOf attr (frame.getD p)
        let s := s.modContext ctx (fun c => { c with poolHead := c.poolHead + BitVec.ofNat 32 need })
        (s.buildPath v leaf w.level w.at_ frames, 0)

/-- The installs of the lanes, in ascending order. -/
def State.mapLanes (s : State) (ctx : Nat) (x : Issue) (frame : Bool) (ls : List Nat) : State × List (Nat × Nat) :=
  match ls with
  | [] => (s, [])
  | l :: rest =>
    let c := if frame then some (laneVal x.c l).toNat else none
    let (s', v) := s.mapLane ctx (laneVal x.a l) ((laneVal x.b l).toNat % 2 ^ 32) c
    let (s'', vs) := s'.mapLanes ctx x frame rest
    (s'', (l, v) :: vs)

/-- mapp and mapp.frame. -/
def State.mappOp (s : State) (f : LongFields) (frame : Bool) : Host.Outcome State Fault Refusal :=
  s.finish (do
    let x ← s.prepare .mapp f
    x.needs (if frame then .system else .supervisor)
    let (t, vs) := x.s.mapLanes x.s.selfAttrs.ctx x frame (x.accessLanes .mapp f)
    return { x with s := t }.finishPending (resultOf 1 (x.oneLane .mapp f) vs) false [])

/-! ### unmap, tlbi.page and tlbi.local (R284) -/

/-- Starts a shootdown for the page of a level that covers an address, for the issuing group. -/
def State.shootPage (s : State) (level : Nat) (va : DWord) : State :=
  let n := 2 ^ pageBits level
  let lo := va.toNat / n * n
  s.startShootdown s.selfAttrs.ctx lo (lo + n) (some s.issuing) none

/-- One lane's unmap: the old leaf, or 0 when no valid leaf covers the address. A leaf is valid when its V is 1, malformed or
not (DEDUCED, log entry 24). -/
def State.unmapLane (s : State) (va : DWord) : State × Nat :=
  if bits va.toNat 63 56 ≠ 0xFF then (s, 0)
  else
    let w := walkChecked s.mem (va.toNat % 2 ^ 56) 3 (s.context s.selfAttrs.ctx).root
    if w.entry.testBit 0 && w.entry.testBit 1 then ((s.writeMem w.at_ 8 0).shootPage w.level va, w.entry) else (s, 0)

/-- The unmaps of the lanes, in ascending order. -/
def State.unmapLanes (s : State) (x : Issue) (ls : List Nat) : State × List (Nat × Nat) :=
  match ls with
  | [] => (s, [])
  | l :: rest =>
    let (s', v) := s.unmapLane (laneVal x.a l)
    let (s'', vs) := s'.unmapLanes x rest
    (s'', (l, v) :: vs)

/-- unmap: D is written once its shootdowns have completed. -/
def State.unmapOp (s : State) (f : LongFields) : Host.Outcome State Fault Refusal :=
  s.finish (do
    let x ← s.prepare .unmap f
    x.needs .system
    let (t, vs) := x.s.unmapLanes x (x.accessLanes .unmap f)
    return { x with s := t }.finishPending (resultOf 2 (x.oneLane .unmap f) vs) false [])

/-- Has the group a shootdown under way? -/
def State.shooting (s : State) (r : GroupRef) : Bool := s.shootdowns.any (fun x => x.group = some r)

/-- tlbi.page: the shootdown of each lane's page, until whose completion the slot takes stalled turns. -/
def State.tlbiPageOp (s : State) (f : LongFields) : Host.Outcome State Fault Refusal :=
  match s.prepare .tlbiPage f with
  | .error e => .next (s.stopped e)
  | .ok x =>
    match x.needs .supervisor, x.s.self.hold with
    | .error e, _ => .next (s.stopped e)
    | .ok _, .shootdown id =>
      .next (if x.s.shooting x.s.issuing then x.s.stopped (.stall (.shootdown id)) else x.finishPlain)
    | .ok _, _ =>
      let t := (x.accessLanes .tlbiPage f).foldl (fun s l => s.shootPage 0 (laneVal x.a l)) x.s
      .next (if t.fresh = x.s.fresh then x.finishPlain else t.stopped (.stall (.shootdown x.s.fresh)))

/-- tlbi.local. -/
def State.tlbiLocalOp (s : State) (f : LongFields) : Host.Outcome State Fault Refusal :=
  s.finish (do
    let x ← s.prepare .tlbiLocal f
    x.needs .supervisor
    let ctx := x.s.selfAttrs.ctx
    let t := x.s.modCore x.s.issuing.core (fun k => { k with tlb := k.tlb.filter (fun e => e.ctx ≠ ctx) })
    return { x with s := t }.finishPlain)

/-! ### mapstat (R285) -/

/-- Is a page in a remote range, so that the target's front end asks its host for it (19 R432)? -/
def Context.atTarget (c : Context) (page : DWord) : Bool := page.msb && (c.remoteOf page.toNat).isSome

/-- mapstat.pool and mapstat.host. Every request that awaits the host's answer counts, a PRI request of R270 among them (DESIGN
CHOICE, log entry 96). -/
def State.mapstatOp (s : State) (f : LongFields) : Host.Outcome State Fault Refusal :=
  s.finish (do
    let x ← s.prepare .mapstat f
    let c := x.s.context x.s.selfAttrs.ctx
    let n := if f.modBits 12 11 = 1 then (c.hostRequests.filter (fun h => !c.atTarget h.page)).length else c.poolCount
    return x.finishPending [Lanes.splat (BitVec.ofNat 32 n)] false [])

/-! ### The meanings -/

/-- probe. -/
def execProbe (f : LongFields) (s : State) : Host.Outcome State Fault Refusal := s.probeOp f
/-- mapp. -/
def execMapp (f : LongFields) (s : State) : Host.Outcome State Fault Refusal := s.mappOp f false
/-- mapp.frame. -/
def execMappFrame (f : LongFields) (s : State) : Host.Outcome State Fault Refusal := s.mappOp f true
/-- tlbi.local. -/
def execTlbiLocal (f : LongFields) (s : State) : Host.Outcome State Fault Refusal := s.tlbiLocalOp f
/-- unmap. -/
def execUnmap (f : LongFields) (s : State) : Host.Outcome State Fault Refusal := s.unmapOp f
/-- tlbi.page. -/
def execTlbiPage (f : LongFields) (s : State) : Host.Outcome State Fault Refusal := s.tlbiPageOp f
/-- mapstat. -/
def execMapstat (f : LongFields) (s : State) : Host.Outcome State Fault Refusal := s.mapstatOp f

end Sys2Proof.Machine
end

