-- ==== Sys2Proof/Machine/Vector.lean ====
section
/-! DEFINITION. The vector engine (08): the value and the flags of each operation in one lane, and its instructions. -/

namespace Sys2Proof.Machine

/-! ### Integer arithmetic (R196, R197) -/

/-- An operand read as the type (R188). -/
def typed (f : LongFields) (x : DWord) : Int := intOf (typeBits f.ty) (typeSigned f.ty) x
/-- An exact result in the type, saturated under SAT (R196). -/
def typedResult (f : LongFields) (x : Int) : DWord := intResult (typeBits f.ty) (typeSigned f.ty) f.sat x

/-- iadd. -/
def vecAdd (f : LongFields) (a b _ : DWord) : DWord := typedResult f (typed f a + typed f b)
/-- isub. -/
def vecSub (f : LongFields) (a b _ : DWord) : DWord := typedResult f (typed f a - typed f b)
/-- imul: lo, hi or wide. -/
def vecMul (f : LongFields) (a b _ : DWord) : DWord :=
  let p := typed f a * typed f b
  match f.sub with
  | 0 => typedResult f p
  | 1 => bitsOfInt (typeBits f.ty) (p / (2 ^ (typeBits f.ty) : Nat))
  | _ => bitsOfInt 64 p
/-- imad: lo or wide. -/
def vecMad (f : LongFields) (a b c : DWord) : DWord :=
  let p := typed f a * typed f b
  if f.sub = 0 then typedResult f (p + typed f c)
  else intResult 64 (typeSigned f.ty) f.sat (p + intOf 64 (typeSigned f.ty) c)
/-- imin. -/
def vecMin (f : LongFields) (a b _ : DWord) : DWord := typedResult f (min (typed f a) (typed f b))
/-- imax. -/
def vecMax (f : LongFields) (a b _ : DWord) : DWord := typedResult f (max (typed f a) (typed f b))
/-- iabs. -/
def vecAbs (f : LongFields) (a _ _ : DWord) : DWord := typedResult f ((typed f a).natAbs : Int)
/-- ineg. -/
def vecNeg (f : LongFields) (a _ _ : DWord) : DWord := typedResult f (-(typed f a))
/-- iclamp. -/
def vecIclamp (f : LongFields) (a b c : DWord) : DWord := typedResult f (min (max (typed f a) (typed f b)) (typed f c))

/-- Byte `k` of a word. -/
def byteOf (x : DWord) (k : Nat) : DWord := x.extractLsb' (8 * k) 8 |>.setWidth 64

/-- The sum over the four bytes. -/
def sumBytes (g : Nat → Int) : Int := g 0 + g 1 + g 2 + g 3

/-- dot4 (R197). -/
def vecDot4 (f : LongFields) (a b c : DWord) : DWord :=
  let sg := f.ty ≠ 8
  let byte (x : DWord) (k : Nat) : Int := intOf 8 sg (byteOf x k)
  intResult 32 sg f.sat (intOf 32 sg c + sumBytes (fun k => byte a k * byte b k))
/-- isad (R197). -/
def vecIsad (f : LongFields) (a b c : DWord) : DWord :=
  if f.ty = 8 then
    let byte (x : DWord) (k : Nat) : Int := intOf 8 false (byteOf x k)
    intResult 32 false f.sat (intOf 32 false c + sumBytes (fun k => ((byte a k - byte b k).natAbs : Int)))
  else typedResult f (typed f c + ((typed f a - typed f b).natAbs : Int))

/-! ### Bits, shifts and fields (R198, R199) -/

/-- A count of 32 bits. -/
def count32 (b : DWord) : Nat := b.toNat % 2 ^ 32

/-- shl. -/
def vecShl (f : LongFields) (a b _ : DWord) : DWord := if typeBits f.ty ≤ count32 b then 0 else a <<< count32 b
/-- shr. -/
def vecShr (f : LongFields) (a b _ : DWord) : DWord := if typeBits f.ty ≤ count32 b then 0 else a >>> count32 b
/-- sar. -/
def vecSar (f : LongFields) (a b _ : DWord) : DWord :=
  bitsOfInt (typeBits f.ty) (intOf (typeBits f.ty) true a / (2 ^ min (count32 b) (typeBits f.ty) : Nat))
/-- rot. -/
def vecRot (f : LongFields) (a b _ : DWord) : DWord :=
  let c := count32 b % typeBits f.ty
  num64 ((a.toNat * 2 ^ c + a.toNat / 2 ^ (typeBits f.ty - c)) % 2 ^ (typeBits f.ty))

/-- pos′ of bfe and bfi (R199). -/
def fieldPos (f : LongFields) (b : DWord) : Nat := min (b.toNat % 256) (typeBits f.ty)
/-- len′ of bfe and bfi (R199). -/
def fieldLen (f : LongFields) (b : DWord) : Nat := min (b.toNat / 256 % 256) (typeBits f.ty - fieldPos f b)

/-- bfe. -/
def vecBfe (f : LongFields) (a b _ : DWord) : DWord :=
  let n := fieldLen f b
  bitsOfInt (typeBits f.ty) (intOf n (typeSigned f.ty && n ≠ 0) (num64 (a.toNat / 2 ^ (fieldPos f b))))
/-- bfi. -/
def vecBfi (f : LongFields) (a b c : DWord) : DWord :=
  let m := num64 ((2 ^ (fieldLen f b) - 1) * 2 ^ (fieldPos f b))
  (c &&& ~~~m) ||| (num64 (a.toNat * 2 ^ (fieldPos f b)) &&& m)
/-- popc. -/
def vecPopc (_ : LongFields) (a _ _ : DWord) : DWord := num64 ((List.range 64).filter a.getLsbD).length
/-- clz. -/
def vecClz (f : LongFields) (a _ _ : DWord) : DWord := num64 (if a = 0 then typeBits f.ty else typeBits f.ty - 1 - Nat.log2 a.toNat)
/-- brev. -/
def vecBrev (f : LongFields) (a _ _ : DWord) : DWord := a.reverse >>> (64 - typeBits f.ty)

/-- bperm: byte k is picked by selector C[4k+3:4k] from the eight bytes of A and B. -/
def permByte (a b : DWord) (n : Nat) : Nat :=
  let x := (byteOf (if n % 8 < 4 then a else b) (n % 4)).toNat
  if n < 8 then x else if 128 ≤ x then 0xFF else 0
/-- bperm. -/
def vecBperm (_ : LongFields) (a b c : DWord) : DWord :=
  num64 ((List.range 4).foldl (fun acc k => acc + permByte a b (c.toNat / 16 ^ k % 16) * 256 ^ k) 0)
/-- bool3: the table in EXT[7:0] at 4 A + 2 B + C, bit by bit. -/
def vecBool3 (f : LongFields) (a b c : DWord) : DWord :=
  let t (i : Nat) (x : DWord) : DWord := if f.ext.getLsbD i then x else 0
  t 7 (a &&& b &&& c) ||| t 6 (a &&& b &&& ~~~c) ||| t 5 (a &&& ~~~b &&& c) ||| t 4 (a &&& ~~~b &&& ~~~c)
    ||| t 3 (~~~a &&& b &&& c) ||| t 2 (~~~a &&& b &&& ~~~c) ||| t 1 (~~~a &&& ~~~b &&& c)
    ||| t 0 (~~~a &&& ~~~b &&& ~~~c)

/-! ### Compares (R200) -/

/-- icmp by SUB. -/
def vecIcmp (f : LongFields) (a b : DWord) : Bool × Flags :=
  let x := typed f a
  let y := typed f b
  (match f.sub with
    | 0 => decide (x = y)
    | 1 => decide (x ≠ y)
    | 2 => decide (x < y)
    | 3 => decide (x ≤ y)
    | 4 => decide (y < x)
    | _ => decide (y ≤ x), 0)
/-- fcmp by SUB. -/
def vecFcmp (f : LongFields) (a b : DWord) : Bool × Flags := (floatFormat f.ty).compare f.sub a.toNat b.toNat

/-! ### Floating-point arithmetic (R202-R205) -/

/-- fadd. -/
def vecFadd (f : LongFields) (a b _ : DWord) : DWord × Flags := asLane ((floatFormat f.ty).add f.rnd a.toNat b.toNat)
/-- fsub. -/
def vecFsub (f : LongFields) (a b _ : DWord) : DWord × Flags := asLane ((floatFormat f.ty).sub f.rnd a.toNat b.toNat)
/-- fmul. -/
def vecFmul (f : LongFields) (a b _ : DWord) : DWord × Flags := asLane ((floatFormat f.ty).mul f.rnd a.toNat b.toNat)
/-- ffma. -/
def vecFfma (f : LongFields) (a b c : DWord) : DWord × Flags := asLane ((floatFormat f.ty).fma f.rnd a.toNat b.toNat c.toNat)
/-- fdiv. -/
def vecFdiv (f : LongFields) (a b _ : DWord) : DWord × Flags := asLane ((floatFormat f.ty).div f.rnd a.toNat b.toNat)
/-- fsqrt. -/
def vecFsqrt (f : LongFields) (a _ _ : DWord) : DWord × Flags := asLane ((floatFormat f.ty).sqrt f.rnd a.toNat)
/-- frnd. -/
def vecFrnd (f : LongFields) (a _ _ : DWord) : DWord × Flags := asLane ((floatFormat f.ty).toIntegral f.rnd a.toNat)
/-- fscale. -/
def vecFscale (f : LongFields) (a b _ : DWord) : DWord × Flags := asLane ((floatFormat f.ty).scale f.rnd a.toNat (intOf 32 true b))
/-- A special function of f32 (R205, R206). -/
def vecSpecial (x : Special) (f : LongFields) (a _ _ : DWord) : DWord × Flags := asLane (x.eval f.rnd (a.setWidth 32))
/-- frcp: correctly rounded in f64. -/
def vecFrcp (f : LongFields) (a b c : DWord) : DWord × Flags :=
  if f.ty = 10 then asLane ((floatFormat f.ty).recip f.rnd a.toNat) else vecSpecial .rcp f a b c
/-- frsq: correctly rounded in f64. -/
def vecFrsq (f : LongFields) (a b c : DWord) : DWord × Flags :=
  if f.ty = 10 then asLane ((floatFormat f.ty).rsqrt f.rnd a.toNat) else vecSpecial .rsq f a b c
/-- fmin. -/
def vecFmin (f : LongFields) (a b _ : DWord) : DWord × Flags := asLane ((floatFormat f.ty).minMax false a.toNat b.toNat)
/-- fmax. -/
def vecFmax (f : LongFields) (a b _ : DWord) : DWord × Flags := asLane ((floatFormat f.ty).minMax true a.toNat b.toNat)
/-- fclamp: fmin(fmax(A, B), C). -/
def vecFclamp (f : LongFields) (a b c : DWord) : DWord × Flags :=
  let x := (floatFormat f.ty).minMax true a.toNat b.toNat
  let y := (floatFormat f.ty).minMax false x.1 c.toNat
  (num64 y.1, x.2 ||| y.2)
/-- fclass. -/
def vecFclass (f : LongFields) (a _ _ : DWord) : DWord := num64 (2 ^ (floatFormat f.ty).classBit a.toNat)
/-- fabs. -/
def vecFabs (f : LongFields) (a _ _ : DWord) : DWord := num64 (a.toNat % (floatFormat f.ty).signBit)
/-- fneg. -/
def vecFneg (f : LongFields) (a _ _ : DWord) : DWord :=
  num64 ((a.toNat % (2 * (floatFormat f.ty).signBit)) ^^^ (floatFormat f.ty).signBit)

/-! ### Packed and dot products (R207, R208) -/

/-- The format of a packed type: f16 is the base type. -/
def packedFormat (t : Nat) : FloatFormat := floatFormat (if t = 12 then 12 else 11)

/-- A half of a word. -/
def half (x : DWord) (i : Nat) : Nat := x.toNat / 2 ^ (16 * i) % 2 ^ 16

/-- An operation on the two halves, with the flags of both. -/
def halves (g : Nat → Nat × Flags) : DWord × Flags :=
  let x := g 0
  let y := g 1
  (num64 (x.1 + y.1 * 2 ^ 16), x.2 ||| y.2)

/-- hadd2. -/
def vecHadd2 (f : LongFields) (a b _ : DWord) : DWord × Flags :=
  halves (fun i => (packedFormat f.ty).add f.rnd (half a i) (half b i))
/-- hmul2. -/
def vecHmul2 (f : LongFields) (a b _ : DWord) : DWord × Flags :=
  halves (fun i => (packedFormat f.ty).mul f.rnd (half a i) (half b i))
/-- hfma2. -/
def vecHfma2 (f : LongFields) (a b c : DWord) : DWord × Flags :=
  halves (fun i => (packedFormat f.ty).fma f.rnd (half a i) (half b i) (half c i))
/-- hmin2. -/
def vecHmin2 (f : LongFields) (a b _ : DWord) : DWord × Flags :=
  halves (fun i => (packedFormat f.ty).minMax false (half a i) (half b i))
/-- hmax2. -/
def vecHmax2 (f : LongFields) (a b _ : DWord) : DWord × Flags :=
  halves (fun i => (packedFormat f.ty).minMax true (half a i) (half b i))

/-- dot2: bf16 is the base type; one rounding to f32. -/
def vecDot2 (f : LongFields) (a b c : DWord) : DWord × Flags :=
  let k := floatFormat (if f.ty = 11 then 11 else 12)
  let product (i : Nat) : Option Real := (k.value (half a i)).mul (k.value (half b i))
  asLane (f32Format.sum f.rnd [product 0, product 1, some (f32Format.value c.toNat)] false)

/-! ### Conversions (R209-R211) -/

/-- cvt. -/
def vecCvt (f : LongFields) (a _ _ : DWord) : DWord × Flags := convert f.ty f.sub false f.sat 0 a
/-- cvtt. -/
def vecCvtt (f : LongFields) (a _ _ : DWord) : DWord × Flags := convert f.ty f.sub true false 1 a

/-- The block that cvt.bfx packs: A in the lanes of Active(), +0.0 elsewhere (R210). -/
def Issue.packed (x : Issue) (f : LongFields) : Block :=
  (blockFormat f.ty).encode 0 ((List.range 32).map (fun l =>
    if x.lanes.lane l then (floatFormat f.sub).value (laneVal x.a l).toNat else .fin false 0 0))

/-- An element unpacked from a lane (R211). -/
def unpacked (f : LongFields) (a : DWord) : DWord × Flags :=
  let k := blockFormat f.sub
  let w := a.toNat
  asLane ((floatFormat f.ty).ofReal 0 (k.value (k.elem (w % 2 ^ (k.mbits + 2))) (w / 2 ^ 16 % 256) (w / 2 ^ 24 % 256)))

/-- cvt.bfx: a block is packed (R210) or each lane's element unpacked (R211). -/
def State.cvtBfx (s : State) (f : LongFields) : Host.Outcome State Fault Refusal :=
  if f.ty = 13 || f.ty = 14 then
    s.finish (do
      let x ← s.prepare .cvtBfx f
      let b := x.packed f
      return x.laneResult .cvtBfx f (fun l =>
        let e := b.elems.getD l (⟨false, false, 0⟩, 0)
        (num64 ((blockFormat f.ty).lane b e.1), e.2)))
  else s.laneOp .cvtBfx f (fun a _ _ => unpacked f a)

/-! ### Select and flags (R201, R212) -/

/-- sel: A where predicate PD is true, B elsewhere; under U = 1 the predicate is the gate lane's. -/
def State.selOp (s : State) (f : LongFields) : Host.Outcome State Fault Refusal :=
  s.finish (do
    let x ← s.prepare .sel f
    let p := x.s.self.pred f.pd
    return x.laneResult .sel f (fun l => (if p.lane l then laneVal x.a l else laneVal x.b l, 0)))

/-- fpst.clear: the lanes that R129 gives flags to. -/
def State.fpstClearOp (s : State) (f : LongFields) : Host.Outcome State Fault Refusal :=
  s.finish (do
    let x ← s.prepare .fpstClear f
    let lanes := if x.acts then x.flagLanes else 0
    return { x with s := x.s.modSelf (fun g => { g with fpst := Lanes.merge lanes Lanes.zero g.fpst }) }.finishPlain)

/-! ### The instructions -/


/-- iadd, short: A + B (R196). -/
def execIaddShort (f : ShortFields) (s : State) : Host.Outcome State Fault Refusal :=
  s.pureOp .iadd (f.widen .iadd) (vecAdd (f.widen .iadd))
/-- iadd: A + B (R196). -/
def execIaddLong (f : LongFields) (s : State) : Host.Outcome State Fault Refusal := s.pureOp .iadd f (vecAdd f)

/-- isub, short: A − B (R196). -/
def execIsubShort (f : ShortFields) (s : State) : Host.Outcome State Fault Refusal :=
  s.pureOp .isub (f.widen .isub) (vecSub (f.widen .isub))
/-- isub: A − B (R196). -/
def execIsubLong (f : LongFields) (s : State) : Host.Outcome State Fault Refusal := s.pureOp .isub f (vecSub f)

/-- imul, short: the product by SUB (R196). -/
def execImulShort (f : ShortFields) (s : State) : Host.Outcome State Fault Refusal :=
  s.pureOp .imul (f.widen .imul) (vecMul (f.widen .imul))
/-- imul: the product by SUB (R196). -/
def execImulLong (f : LongFields) (s : State) : Host.Outcome State Fault Refusal := s.pureOp .imul f (vecMul f)

/-- imad, short: A × B + C by SUB (R196). -/
def execImadShort (f : ShortFields) (s : State) : Host.Outcome State Fault Refusal :=
  s.pureOp .imad (f.widen .imad) (vecMad (f.widen .imad))
/-- imad: A × B + C by SUB (R196). -/
def execImadLong (f : LongFields) (s : State) : Host.Outcome State Fault Refusal := s.pureOp .imad f (vecMad f)

/-- imin, short: the smaller (R196). -/
def execIminShort (f : ShortFields) (s : State) : Host.Outcome State Fault Refusal :=
  s.pureOp .imin (f.widen .imin) (vecMin (f.widen .imin))
/-- imin: the smaller (R196). -/
def execIminLong (f : LongFields) (s : State) : Host.Outcome State Fault Refusal := s.pureOp .imin f (vecMin f)

/-- imax, short: the larger (R196). -/
def execImaxShort (f : ShortFields) (s : State) : Host.Outcome State Fault Refusal :=
  s.pureOp .imax (f.widen .imax) (vecMax (f.widen .imax))
/-- imax: the larger (R196). -/
def execImaxLong (f : LongFields) (s : State) : Host.Outcome State Fault Refusal := s.pureOp .imax f (vecMax f)

/-- iabs, short: |A| (R196). -/
def execIabsShort (f : ShortFields) (s : State) : Host.Outcome State Fault Refusal :=
  s.pureOp .iabs (f.widen .iabs) (vecAbs (f.widen .iabs))
/-- iabs: |A| (R196). -/
def execIabsLong (f : LongFields) (s : State) : Host.Outcome State Fault Refusal := s.pureOp .iabs f (vecAbs f)

/-- ineg, short: −A (R196). -/
def execInegShort (f : ShortFields) (s : State) : Host.Outcome State Fault Refusal :=
  s.pureOp .ineg (f.widen .ineg) (vecNeg (f.widen .ineg))
/-- ineg: −A (R196). -/
def execInegLong (f : LongFields) (s : State) : Host.Outcome State Fault Refusal := s.pureOp .ineg f (vecNeg f)

/-- and, short: A and B (R198). -/
def execAndShort (f : ShortFields) (s : State) : Host.Outcome State Fault Refusal :=
  s.pureOp .and (f.widen .and) (fun a b _ => a &&& b)
/-- and: A and B (R198). -/
def execAndLong (f : LongFields) (s : State) : Host.Outcome State Fault Refusal :=
  s.pureOp .and f (fun a b _ => a &&& b)

/-- or, short: A or B (R198). -/
def execOrShort (f : ShortFields) (s : State) : Host.Outcome State Fault Refusal :=
  s.pureOp .or (f.widen .or) (fun a b _ => a ||| b)
/-- or: A or B (R198). -/
def execOrLong (f : LongFields) (s : State) : Host.Outcome State Fault Refusal :=
  s.pureOp .or f (fun a b _ => a ||| b)

/-- xor, short: A xor B (R198). -/
def execXorShort (f : ShortFields) (s : State) : Host.Outcome State Fault Refusal :=
  s.pureOp .xor (f.widen .xor) (fun a b _ => a ^^^ b)
/-- xor: A xor B (R198). -/
def execXorLong (f : LongFields) (s : State) : Host.Outcome State Fault Refusal :=
  s.pureOp .xor f (fun a b _ => a ^^^ b)

/-- not, short: not A (R198). -/
def execNotShort (f : ShortFields) (s : State) : Host.Outcome State Fault Refusal :=
  s.pureOp .not (f.widen .not) (fun a _ _ => ~~~a)
/-- not: not A (R198). -/
def execNotLong (f : LongFields) (s : State) : Host.Outcome State Fault Refusal := s.pureOp .not f (fun a _ _ => ~~~a)

/-- shl, short: shift left (R198). -/
def execShlShort (f : ShortFields) (s : State) : Host.Outcome State Fault Refusal :=
  s.pureOp .shl (f.widen .shl) (vecShl (f.widen .shl))
/-- shl: shift left (R198). -/
def execShlLong (f : LongFields) (s : State) : Host.Outcome State Fault Refusal := s.pureOp .shl f (vecShl f)

/-- shr, short: unsigned shift right (R198). -/
def execShrShort (f : ShortFields) (s : State) : Host.Outcome State Fault Refusal :=
  s.pureOp .shr (f.widen .shr) (vecShr (f.widen .shr))
/-- shr: unsigned shift right (R198). -/
def execShrLong (f : LongFields) (s : State) : Host.Outcome State Fault Refusal := s.pureOp .shr f (vecShr f)

/-- sar, short: signed shift right (R198). -/
def execSarShort (f : ShortFields) (s : State) : Host.Outcome State Fault Refusal :=
  s.pureOp .sar (f.widen .sar) (vecSar (f.widen .sar))
/-- sar: signed shift right (R198). -/
def execSarLong (f : LongFields) (s : State) : Host.Outcome State Fault Refusal := s.pureOp .sar f (vecSar f)

/-- rot, short: rotate left (R198). -/
def execRotShort (f : ShortFields) (s : State) : Host.Outcome State Fault Refusal :=
  s.pureOp .rot (f.widen .rot) (vecRot (f.widen .rot))
/-- rot: rotate left (R198). -/
def execRotLong (f : LongFields) (s : State) : Host.Outcome State Fault Refusal := s.pureOp .rot f (vecRot f)

/-- bfe, short: extract a field (R199). -/
def execBfeShort (f : ShortFields) (s : State) : Host.Outcome State Fault Refusal :=
  s.pureOp .bfe (f.widen .bfe) (vecBfe (f.widen .bfe))
/-- bfe: extract a field (R199). -/
def execBfeLong (f : LongFields) (s : State) : Host.Outcome State Fault Refusal := s.pureOp .bfe f (vecBfe f)

/-- bfi, short: insert a field (R199). -/
def execBfiShort (f : ShortFields) (s : State) : Host.Outcome State Fault Refusal :=
  s.pureOp .bfi (f.widen .bfi) (vecBfi (f.widen .bfi))
/-- bfi: insert a field (R199). -/
def execBfiLong (f : LongFields) (s : State) : Host.Outcome State Fault Refusal := s.pureOp .bfi f (vecBfi f)

/-- popc, short: the number of 1 bits (R199). -/
def execPopcShort (f : ShortFields) (s : State) : Host.Outcome State Fault Refusal :=
  s.pureOp .popc (f.widen .popc) (vecPopc (f.widen .popc))
/-- popc: the number of 1 bits (R199). -/
def execPopcLong (f : LongFields) (s : State) : Host.Outcome State Fault Refusal := s.pureOp .popc f (vecPopc f)

/-- clz, short: the leading 0 bits (R199). -/
def execClzShort (f : ShortFields) (s : State) : Host.Outcome State Fault Refusal :=
  s.pureOp .clz (f.widen .clz) (vecClz (f.widen .clz))
/-- clz: the leading 0 bits (R199). -/
def execClzLong (f : LongFields) (s : State) : Host.Outcome State Fault Refusal := s.pureOp .clz f (vecClz f)

/-- brev, short: bits reversed (R199). -/
def execBrevShort (f : ShortFields) (s : State) : Host.Outcome State Fault Refusal :=
  s.pureOp .brev (f.widen .brev) (vecBrev (f.widen .brev))
/-- brev: bits reversed (R199). -/
def execBrevLong (f : LongFields) (s : State) : Host.Outcome State Fault Refusal := s.pureOp .brev f (vecBrev f)

/-- icmp, short: an integer compare (R200). -/
def execIcmpShort (f : ShortFields) (s : State) : Host.Outcome State Fault Refusal :=
  s.compareOp .icmp (f.widen .icmp) (vecIcmp (f.widen .icmp))
/-- icmp: an integer compare (R200). -/
def execIcmpLong (f : LongFields) (s : State) : Host.Outcome State Fault Refusal := s.compareOp .icmp f (vecIcmp f)

/-- fadd, short: A + B (R202). -/
def execFaddShort (f : ShortFields) (s : State) : Host.Outcome State Fault Refusal :=
  s.laneOp .fadd (f.widen .fadd) (vecFadd (f.widen .fadd))
/-- fadd: A + B (R202). -/
def execFaddLong (f : LongFields) (s : State) : Host.Outcome State Fault Refusal := s.laneOp .fadd f (vecFadd f)

/-- fsub, short: A − B (R202). -/
def execFsubShort (f : ShortFields) (s : State) : Host.Outcome State Fault Refusal :=
  s.laneOp .fsub (f.widen .fsub) (vecFsub (f.widen .fsub))
/-- fsub: A − B (R202). -/
def execFsubLong (f : LongFields) (s : State) : Host.Outcome State Fault Refusal := s.laneOp .fsub f (vecFsub f)

/-- fmul, short: A × B (R202). -/
def execFmulShort (f : ShortFields) (s : State) : Host.Outcome State Fault Refusal :=
  s.laneOp .fmul (f.widen .fmul) (vecFmul (f.widen .fmul))
/-- fmul: A × B (R202). -/
def execFmulLong (f : LongFields) (s : State) : Host.Outcome State Fault Refusal := s.laneOp .fmul f (vecFmul f)

/-- ffma, short: A × B + C (R202). -/
def execFfmaShort (f : ShortFields) (s : State) : Host.Outcome State Fault Refusal :=
  s.laneOp .ffma (f.widen .ffma) (vecFfma (f.widen .ffma))
/-- ffma: A × B + C (R202). -/
def execFfmaLong (f : LongFields) (s : State) : Host.Outcome State Fault Refusal := s.laneOp .ffma f (vecFfma f)

/-- fmin, short: the smaller (R203). -/
def execFminShort (f : ShortFields) (s : State) : Host.Outcome State Fault Refusal :=
  s.laneOp .fmin (f.widen .fmin) (vecFmin (f.widen .fmin))
/-- fmin: the smaller (R203). -/
def execFminLong (f : LongFields) (s : State) : Host.Outcome State Fault Refusal := s.laneOp .fmin f (vecFmin f)

/-- fmax, short: the larger (R203). -/
def execFmaxShort (f : ShortFields) (s : State) : Host.Outcome State Fault Refusal :=
  s.laneOp .fmax (f.widen .fmax) (vecFmax (f.widen .fmax))
/-- fmax: the larger (R203). -/
def execFmaxLong (f : LongFields) (s : State) : Host.Outcome State Fault Refusal := s.laneOp .fmax f (vecFmax f)

/-- frcp, short: 1 / A (R205). -/
def execFrcpShort (f : ShortFields) (s : State) : Host.Outcome State Fault Refusal :=
  s.laneOp .frcp (f.widen .frcp) (vecFrcp (f.widen .frcp))
/-- frcp: 1 / A (R205). -/
def execFrcpLong (f : LongFields) (s : State) : Host.Outcome State Fault Refusal := s.laneOp .frcp f (vecFrcp f)

/-- frsq, short: 1 / √A (R205). -/
def execFrsqShort (f : ShortFields) (s : State) : Host.Outcome State Fault Refusal :=
  s.laneOp .frsq (f.widen .frsq) (vecFrsq (f.widen .frsq))
/-- frsq: 1 / √A (R205). -/
def execFrsqLong (f : LongFields) (s : State) : Host.Outcome State Fault Refusal := s.laneOp .frsq f (vecFrsq f)

/-- fsqrt, short: √A (R202). -/
def execFsqrtShort (f : ShortFields) (s : State) : Host.Outcome State Fault Refusal :=
  s.laneOp .fsqrt (f.widen .fsqrt) (vecFsqrt (f.widen .fsqrt))
/-- fsqrt: √A (R202). -/
def execFsqrtLong (f : LongFields) (s : State) : Host.Outcome State Fault Refusal := s.laneOp .fsqrt f (vecFsqrt f)

/-- fdiv, short: A / B (R202). -/
def execFdivShort (f : ShortFields) (s : State) : Host.Outcome State Fault Refusal :=
  s.laneOp .fdiv (f.widen .fdiv) (vecFdiv (f.widen .fdiv))
/-- fdiv: A / B (R202). -/
def execFdivLong (f : LongFields) (s : State) : Host.Outcome State Fault Refusal := s.laneOp .fdiv f (vecFdiv f)

/-- fexp2, short: 2^A (R205). -/
def execFexp2Short (f : ShortFields) (s : State) : Host.Outcome State Fault Refusal :=
  s.laneOp .fexp2 (f.widen .fexp2) (vecSpecial .exp2 (f.widen .fexp2))
/-- fexp2: 2^A (R205). -/
def execFexp2Long (f : LongFields) (s : State) : Host.Outcome State Fault Refusal :=
  s.laneOp .fexp2 f (vecSpecial .exp2 f)

/-- flog2, short: log2 A (R205). -/
def execFlog2Short (f : ShortFields) (s : State) : Host.Outcome State Fault Refusal :=
  s.laneOp .flog2 (f.widen .flog2) (vecSpecial .log2 (f.widen .flog2))
/-- flog2: log2 A (R205). -/
def execFlog2Long (f : LongFields) (s : State) : Host.Outcome State Fault Refusal :=
  s.laneOp .flog2 f (vecSpecial .log2 f)

/-- fsin, short: sin A (R205). -/
def execFsinShort (f : ShortFields) (s : State) : Host.Outcome State Fault Refusal :=
  s.laneOp .fsin (f.widen .fsin) (vecSpecial .sin (f.widen .fsin))
/-- fsin: sin A (R205). -/
def execFsinLong (f : LongFields) (s : State) : Host.Outcome State Fault Refusal :=
  s.laneOp .fsin f (vecSpecial .sin f)

/-- fcos, short: cos A (R205). -/
def execFcosShort (f : ShortFields) (s : State) : Host.Outcome State Fault Refusal :=
  s.laneOp .fcos (f.widen .fcos) (vecSpecial .cos (f.widen .fcos))
/-- fcos: cos A (R205). -/
def execFcosLong (f : LongFields) (s : State) : Host.Outcome State Fault Refusal :=
  s.laneOp .fcos f (vecSpecial .cos f)

/-- frnd, short: A rounded to an integral value (R202). -/
def execFrndShort (f : ShortFields) (s : State) : Host.Outcome State Fault Refusal :=
  s.laneOp .frnd (f.widen .frnd) (vecFrnd (f.widen .frnd))
/-- frnd: A rounded to an integral value (R202). -/
def execFrndLong (f : LongFields) (s : State) : Host.Outcome State Fault Refusal := s.laneOp .frnd f (vecFrnd f)

/-- fcmp, short: a floating compare (R200). -/
def execFcmpShort (f : ShortFields) (s : State) : Host.Outcome State Fault Refusal :=
  s.compareOp .fcmp (f.widen .fcmp) (vecFcmp (f.widen .fcmp))
/-- fcmp: a floating compare (R200). -/
def execFcmpLong (f : LongFields) (s : State) : Host.Outcome State Fault Refusal := s.compareOp .fcmp f (vecFcmp f)

/-- fclass, short: the class mask of A (R204). -/
def execFclassShort (f : ShortFields) (s : State) : Host.Outcome State Fault Refusal :=
  s.pureOp .fclass (f.widen .fclass) (vecFclass (f.widen .fclass))
/-- fclass: the class mask of A (R204). -/
def execFclassLong (f : LongFields) (s : State) : Host.Outcome State Fault Refusal := s.pureOp .fclass f (vecFclass f)

/-- fabs, short: A with the sign bit 0 (R203). -/
def execFabsShort (f : ShortFields) (s : State) : Host.Outcome State Fault Refusal :=
  s.pureOp .fabs (f.widen .fabs) (vecFabs (f.widen .fabs))
/-- fabs: A with the sign bit 0 (R203). -/
def execFabsLong (f : LongFields) (s : State) : Host.Outcome State Fault Refusal := s.pureOp .fabs f (vecFabs f)

/-- fneg, short: A with the sign bit inverted (R203). -/
def execFnegShort (f : ShortFields) (s : State) : Host.Outcome State Fault Refusal :=
  s.pureOp .fneg (f.widen .fneg) (vecFneg (f.widen .fneg))
/-- fneg: A with the sign bit inverted (R203). -/
def execFnegLong (f : LongFields) (s : State) : Host.Outcome State Fault Refusal := s.pureOp .fneg f (vecFneg f)

/-- fscale, short: A × 2^B (R202). -/
def execFscaleShort (f : ShortFields) (s : State) : Host.Outcome State Fault Refusal :=
  s.laneOp .fscale (f.widen .fscale) (vecFscale (f.widen .fscale))
/-- fscale: A × 2^B (R202). -/
def execFscaleLong (f : LongFields) (s : State) : Host.Outcome State Fault Refusal := s.laneOp .fscale f (vecFscale f)

/-- cvt, short: a conversion to nearest (R209). -/
def execCvtShort (f : ShortFields) (s : State) : Host.Outcome State Fault Refusal :=
  s.laneOp .cvt (f.widen .cvt) (vecCvt (f.widen .cvt))
/-- cvt: a conversion to nearest (R209). -/
def execCvtLong (f : LongFields) (s : State) : Host.Outcome State Fault Refusal := s.laneOp .cvt f (vecCvt f)

/-- cvt.bfx: a block packed (R210) or unpacked (R211) (R210). -/
def execCvtBfx (f : LongFields) (s : State) : Host.Outcome State Fault Refusal := s.cvtBfx f

/-- cvtt, short: a conversion to an integer toward zero (R209). -/
def execCvttShort (f : ShortFields) (s : State) : Host.Outcome State Fault Refusal :=
  s.laneOp .cvtt (f.widen .cvtt) (vecCvtt (f.widen .cvtt))
/-- cvtt: a conversion to an integer toward zero (R209). -/
def execCvttLong (f : LongFields) (s : State) : Host.Outcome State Fault Refusal := s.laneOp .cvtt f (vecCvtt f)

/-- hadd2, short: A + B in each half (R207). -/
def execHadd2Short (f : ShortFields) (s : State) : Host.Outcome State Fault Refusal :=
  s.laneOp .hadd2 (f.widen .hadd2) (vecHadd2 (f.widen .hadd2))
/-- hadd2: A + B in each half (R207). -/
def execHadd2Long (f : LongFields) (s : State) : Host.Outcome State Fault Refusal := s.laneOp .hadd2 f (vecHadd2 f)

/-- hmul2, short: A × B in each half (R207). -/
def execHmul2Short (f : ShortFields) (s : State) : Host.Outcome State Fault Refusal :=
  s.laneOp .hmul2 (f.widen .hmul2) (vecHmul2 (f.widen .hmul2))
/-- hmul2: A × B in each half (R207). -/
def execHmul2Long (f : LongFields) (s : State) : Host.Outcome State Fault Refusal := s.laneOp .hmul2 f (vecHmul2 f)

/-- hfma2, short: A × B + C in each half (R207). -/
def execHfma2Short (f : ShortFields) (s : State) : Host.Outcome State Fault Refusal :=
  s.laneOp .hfma2 (f.widen .hfma2) (vecHfma2 (f.widen .hfma2))
/-- hfma2: A × B + C in each half (R207). -/
def execHfma2Long (f : LongFields) (s : State) : Host.Outcome State Fault Refusal := s.laneOp .hfma2 f (vecHfma2 f)

/-- hmin2, short: the smaller in each half (R207). -/
def execHmin2Short (f : ShortFields) (s : State) : Host.Outcome State Fault Refusal :=
  s.laneOp .hmin2 (f.widen .hmin2) (vecHmin2 (f.widen .hmin2))
/-- hmin2: the smaller in each half (R207). -/
def execHmin2Long (f : LongFields) (s : State) : Host.Outcome State Fault Refusal := s.laneOp .hmin2 f (vecHmin2 f)

/-- hmax2, short: the larger in each half (R207). -/
def execHmax2Short (f : ShortFields) (s : State) : Host.Outcome State Fault Refusal :=
  s.laneOp .hmax2 (f.widen .hmax2) (vecHmax2 (f.widen .hmax2))
/-- hmax2: the larger in each half (R207). -/
def execHmax2Long (f : LongFields) (s : State) : Host.Outcome State Fault Refusal := s.laneOp .hmax2 f (vecHmax2 f)

/-- dot2, short: two products and C (R208). -/
def execDot2Short (f : ShortFields) (s : State) : Host.Outcome State Fault Refusal :=
  s.laneOp .dot2 (f.widen .dot2) (vecDot2 (f.widen .dot2))
/-- dot2: two products and C (R208). -/
def execDot2Long (f : LongFields) (s : State) : Host.Outcome State Fault Refusal := s.laneOp .dot2 f (vecDot2 f)

/-- dot4, short: four products and C (R197). -/
def execDot4Short (f : ShortFields) (s : State) : Host.Outcome State Fault Refusal :=
  s.pureOp .dot4 (f.widen .dot4) (vecDot4 (f.widen .dot4))
/-- dot4: four products and C (R197). -/
def execDot4Long (f : LongFields) (s : State) : Host.Outcome State Fault Refusal := s.pureOp .dot4 f (vecDot4 f)

/-- sel, short: A or B by predicate PD (R201). -/
def execSelShort (f : ShortFields) (s : State) : Host.Outcome State Fault Refusal := s.selOp (f.widen .sel)
/-- sel: A or B by predicate PD (R201). -/
def execSelLong (f : LongFields) (s : State) : Host.Outcome State Fault Refusal := s.selOp f

/-- fpst.clear, short: sr.fpst cleared (R212). -/
def execFpstClearShort (f : ShortFields) (s : State) : Host.Outcome State Fault Refusal :=
  s.fpstClearOp (f.widen .fpstClear)
/-- fpst.clear: sr.fpst cleared (R212). -/
def execFpstClearLong (f : LongFields) (s : State) : Host.Outcome State Fault Refusal := s.fpstClearOp f

/-- bperm, short: bytes picked by selectors (R199). -/
def execBpermShort (f : ShortFields) (s : State) : Host.Outcome State Fault Refusal :=
  s.pureOp .bperm (f.widen .bperm) (vecBperm (f.widen .bperm))
/-- bperm: bytes picked by selectors (R199). -/
def execBpermLong (f : LongFields) (s : State) : Host.Outcome State Fault Refusal := s.pureOp .bperm f (vecBperm f)

/-- bool3, short: a truth table of three bits (R199). -/
def execBool3Short (f : ShortFields) (s : State) : Host.Outcome State Fault Refusal :=
  s.pureOp .bool3 (f.widen .bool3) (vecBool3 (f.widen .bool3))
/-- bool3: a truth table of three bits (R199). -/
def execBool3Long (f : LongFields) (s : State) : Host.Outcome State Fault Refusal := s.pureOp .bool3 f (vecBool3 f)

/-- isad, short: absolute differences and C (R197). -/
def execIsadShort (f : ShortFields) (s : State) : Host.Outcome State Fault Refusal :=
  s.pureOp .isad (f.widen .isad) (vecIsad (f.widen .isad))
/-- isad: absolute differences and C (R197). -/
def execIsadLong (f : LongFields) (s : State) : Host.Outcome State Fault Refusal := s.pureOp .isad f (vecIsad f)

/-- iclamp, short: A between B and C (R196). -/
def execIclampShort (f : ShortFields) (s : State) : Host.Outcome State Fault Refusal :=
  s.pureOp .iclamp (f.widen .iclamp) (vecIclamp (f.widen .iclamp))
/-- iclamp: A between B and C (R196). -/
def execIclampLong (f : LongFields) (s : State) : Host.Outcome State Fault Refusal := s.pureOp .iclamp f (vecIclamp f)

/-- fclamp, short: A between B and C (R203). -/
def execFclampShort (f : ShortFields) (s : State) : Host.Outcome State Fault Refusal :=
  s.laneOp .fclamp (f.widen .fclamp) (vecFclamp (f.widen .fclamp))
/-- fclamp: A between B and C (R203). -/
def execFclampLong (f : LongFields) (s : State) : Host.Outcome State Fault Refusal := s.laneOp .fclamp f (vecFclamp f)

end Sys2Proof.Machine
end

