-- ==== Sys2Proof/Machine/Dispatch.lean ====
section
/-! DEFINITION. The meaning of each instruction and step, one arm for each row of the opcode table. -/

namespace Sys2Proof.Machine

/-- The meaning of an instruction, for the issuing group, or of a step of the device. -/
def exec (i : Instr) (s : State) : Host.Outcome State Fault Refusal :=
  match i with
  | .coldStart inp => Sys2Proof.Machine.execColdStart inp s
  | .warmStart inp => Sys2Proof.Machine.execWarmStart inp s
  | .startFailure => Sys2Proof.Machine.execStartFailure s
  | .ready => Sys2Proof.Machine.execReady s
  | .mboxWrite val inp => Sys2Proof.Machine.execMboxWrite val inp s
  | .thermalTrip => Sys2Proof.Machine.execThermalTrip s
  | .measExtend cmd => Sys2Proof.Machine.execMeasExtend cmd s
  | .attestationReport cmd => Sys2Proof.Machine.execAttestationReport cmd s
  | .ctxCreate ctx => Sys2Proof.Machine.execCtxCreate ctx s
  | .ctxRelease ctx => Sys2Proof.Machine.execCtxRelease ctx s
  | .corectxWrite core val => Sys2Proof.Machine.execCorectxWrite core val s
  | .auditAppend event tug => Sys2Proof.Machine.execAuditAppend event tug s
  | .auditSpill => Sys2Proof.Machine.execAuditSpill s
  | .doorbellWrite q val func => Sys2Proof.Machine.execDoorbellWrite q val func s
  | .runListWrite q val => Sys2Proof.Machine.execRunListWrite q val s
  | .map slot q => Sys2Proof.Machine.execMap slot q s
  | .unmapSuspend slot => Sys2Proof.Machine.execUnmapSuspend slot s
  | .unmapDestroy slot => Sys2Proof.Machine.execUnmapDestroy slot s
  | .queueDestroyed q => Sys2Proof.Machine.execQueueDestroyed q s
  | .switch slot q => Sys2Proof.Machine.execSwitch slot q s
  | .pooltailWrite ctx val => Sys2Proof.Machine.execPooltailWrite ctx val s
  | .registerWrite addr size val => Sys2Proof.Machine.execRegisterWrite addr size val s
  | .debugAttach => Sys2Proof.Machine.execDebugAttach s
  | .debugDetach => Sys2Proof.Machine.execDebugDetach s
  | .debugStop => Sys2Proof.Machine.execDebugStop s
  | .debugResume => Sys2Proof.Machine.execDebugResume s
  | .debugStep => Sys2Proof.Machine.execDebugStep s
  | .debugRead => Sys2Proof.Machine.execDebugRead s
  | .debugWrite => Sys2Proof.Machine.execDebugWrite s
  | .launchPacket q => Sys2Proof.Machine.execLaunchPacket q s
  | .barrierPacket q => Sys2Proof.Machine.execBarrierPacket q s
  | .barrierEvaluation q => Sys2Proof.Machine.execBarrierEvaluation q s
  | .signalPacket q => Sys2Proof.Machine.execSignalPacket q s
  | .copyPacket q => Sys2Proof.Machine.execCopyPacket q s
  | .copyComplete q index => Sys2Proof.Machine.execCopyComplete q index s
  | .predPacket q => Sys2Proof.Machine.execPredPacket q s
  | .invalPacket q => Sys2Proof.Machine.execInvalPacket q s
  | .markerPacket q => Sys2Proof.Machine.execMarkerPacket q s
  | .nopPacket q => Sys2Proof.Machine.execNopPacket q s
  | .watchdogT1 team => Sys2Proof.Machine.execWatchdogT1 team s
  | .watchdogT2 team => Sys2Proof.Machine.execWatchdogT2 team s
  | .watchdogT3 team => Sys2Proof.Machine.execWatchdogT3 team s
  | .pilotSchedulingRound plan => Sys2Proof.Machine.execPilotSchedulingRound plan s
  | .tugClaim core placement => Sys2Proof.Machine.execTugClaim core placement s
  | .eviction team => Sys2Proof.Machine.execEviction team s
  | .haltDelivery group => Sys2Proof.Machine.execHaltDelivery group s
  | .teamKill team => Sys2Proof.Machine.execTeamKill team s
  | .runLimit group => Sys2Proof.Machine.execRunLimit group s
  | .transparentSwap group => Sys2Proof.Machine.execTransparentSwap group s
  | .loadReturn group id => Sys2Proof.Machine.execLoadReturn group id s
  | .storePerform core id => Sys2Proof.Machine.execStorePerform core id s
  | .stackWriteback group offset refill => Sys2Proof.Machine.execStackWriteback group offset refill s
  | .instructionFetch group => Sys2Proof.Machine.execInstructionFetch group s
  | .sleepExpiry group => Sys2Proof.Machine.execSleepExpiry group s
  | .pageWalkComplete core ctx va => Sys2Proof.Machine.execPageWalkComplete core ctx va s
  | .hostPageResponse ctx page mapped => Sys2Proof.Machine.execHostPageResponse ctx page mapped s
  | .atsCompletion ctx page r w => Sys2Proof.Machine.execAtsCompletion ctx page r w s
  | .priResponse ctx page ok => Sys2Proof.Machine.execPriResponse ctx page ok s
  | .atsInvalidateRequest ctx page => Sys2Proof.Machine.execAtsInvalidateRequest ctx page s
  | .shootdownComplete id => Sys2Proof.Machine.execShootdownComplete id s
  | .hostBar2Access addr access => Sys2Proof.Machine.execHostBar2Access addr access s
  | .remoteAccess ctx va access => Sys2Proof.Machine.execRemoteAccess ctx va access s
  | .linkDown link => Sys2Proof.Machine.execLinkDown link s
  | .gateEntry core => Sys2Proof.Machine.execGateEntry core s
  | .gateWakeComplete core => Sys2Proof.Machine.execGateWakeComplete core s
  | .governorWindow core => Sys2Proof.Machine.execGovernorWindow core s
  | .craneCommandBegin core cq => Sys2Proof.Machine.execCraneCommandBegin core cq s
  | .craneCommandComplete core cq => Sys2Proof.Machine.execCraneCommandComplete core cq s
  | .chainCopy core cq => Sys2Proof.Machine.execChainCopy core cq s
  | .chainLoop core cq => Sys2Proof.Machine.execChainLoop core cq s
  | .chainIfcnt core cq => Sys2Proof.Machine.execChainIfcnt core cq s
  | .chainSignal core cq => Sys2Proof.Machine.execChainSignal core cq s
  | .chainFence core cq => Sys2Proof.Machine.execChainFence core cq s
  | .chainEnd core cq => Sys2Proof.Machine.execChainEnd core cq s
  | .mmaFire core => Sys2Proof.Machine.execMmaFire core s
  | .arrayPhaseEnd core => Sys2Proof.Machine.execArrayPhaseEnd core s
  | .matrixCommandComplete core => Sys2Proof.Machine.execMatrixCommandComplete core s
  | .drainStart core => Sys2Proof.Machine.execDrainStart core s
  | .drainConstantLoad core => Sys2Proof.Machine.execDrainConstantLoad core s
  | .drainRowStore core => Sys2Proof.Machine.execDrainRowStore core s
  | .drainComplete core => Sys2Proof.Machine.execDrainComplete core s
  | .surrogateDecision core => Sys2Proof.Machine.execSurrogateDecision core s
  | .srgLoadComplete core => Sys2Proof.Machine.execSrgLoadComplete core s
  | .recoveryGroupFormation core => Sys2Proof.Machine.execRecoveryGroupFormation core s
  | .surrogateDisableArrival core id enabled gen => Sys2Proof.Machine.execSurrogateDisableArrival core id enabled gen s
  | .liftEntryArrival core => Sys2Proof.Machine.execLiftEntryArrival core s
  | .liftBulkEntry core => Sys2Proof.Machine.execLiftBulkEntry core s
  | .illegalInstruction words => Sys2Proof.Machine.execIllegalInstruction words s
  | .linkUp link peer => Sys2Proof.Machine.execLinkUp link peer s
  | .uncorrectableError where_ => Sys2Proof.Machine.execUncorrectableError where_ s
  | .nopShort f => Sys2Proof.Machine.execNopShort f s
  | .nopLong f => Sys2Proof.Machine.execNopLong f s
  | .braShort f => Sys2Proof.Machine.execBraShort f s
  | .braLong f => Sys2Proof.Machine.execBraLong f s
  | .brxShort f => Sys2Proof.Machine.execBrxShort f s
  | .brxLong f => Sys2Proof.Machine.execBrxLong f s
  | .callShort f => Sys2Proof.Machine.execCallShort f s
  | .callLong f => Sys2Proof.Machine.execCallLong f s
  | .retShort f => Sys2Proof.Machine.execRetShort f s
  | .retLong f => Sys2Proof.Machine.execRetLong f s
  | .banyShort f => Sys2Proof.Machine.execBanyShort f s
  | .banyLong f => Sys2Proof.Machine.execBanyLong f s
  | .ballShort f => Sys2Proof.Machine.execBallShort f s
  | .ballLong f => Sys2Proof.Machine.execBallLong f s
  | .bnoneShort f => Sys2Proof.Machine.execBnoneShort f s
  | .bnoneLong f => Sys2Proof.Machine.execBnoneLong f s
  | .emsetShort f => Sys2Proof.Machine.execEmsetShort f s
  | .emsetLong f => Sys2Proof.Machine.execEmsetLong f s
  | .emandShort f => Sys2Proof.Machine.execEmandShort f s
  | .emandLong f => Sys2Proof.Machine.execEmandLong f s
  | .emorShort f => Sys2Proof.Machine.execEmorShort f s
  | .emorLong f => Sys2Proof.Machine.execEmorLong f s
  | .emnotShort f => Sys2Proof.Machine.execEmnotShort f s
  | .emnotLong f => Sys2Proof.Machine.execEmnotLong f s
  | .yieldShort f => Sys2Proof.Machine.execYieldShort f s
  | .yieldLong f => Sys2Proof.Machine.execYieldLong f s
  | .barShort f => Sys2Proof.Machine.execBarShort f s
  | .barLong f => Sys2Proof.Machine.execBarLong f s
  | .barArriveShort f => Sys2Proof.Machine.execBarArriveShort f s
  | .barArriveLong f => Sys2Proof.Machine.execBarArriveLong f s
  | .barWaitShort f => Sys2Proof.Machine.execBarWaitShort f s
  | .barWaitLong f => Sys2Proof.Machine.execBarWaitLong f s
  | .waitbAllShort f => Sys2Proof.Machine.execWaitbAllShort f s
  | .waitbAllLong f => Sys2Proof.Machine.execWaitbAllLong f s
  | .waitbAnyShort f => Sys2Proof.Machine.execWaitbAnyShort f s
  | .waitbAnyLong f => Sys2Proof.Machine.execWaitbAnyLong f s
  | .ffbShort f => Sys2Proof.Machine.execFfbShort f s
  | .ffbLong f => Sys2Proof.Machine.execFfbLong f s
  | .bclrShort f => Sys2Proof.Machine.execBclrShort f s
  | .bclrLong f => Sys2Proof.Machine.execBclrLong f s
  | .trapShort f => Sys2Proof.Machine.execTrapShort f s
  | .trapLong f => Sys2Proof.Machine.execTrapLong f s
  | .tretShort f => Sys2Proof.Machine.execTretShort f s
  | .tretLong f => Sys2Proof.Machine.execTretLong f s
  | .tretKill f => Sys2Proof.Machine.execTretKill f s
  | .svcShort f => Sys2Proof.Machine.execSvcShort f s
  | .svcLong f => Sys2Proof.Machine.execSvcLong f s
  | .exitShort f => Sys2Proof.Machine.execExitShort f s
  | .exitLong f => Sys2Proof.Machine.execExitLong f s
  | .sleepShort f => Sys2Proof.Machine.execSleepShort f s
  | .sleepLong f => Sys2Proof.Machine.execSleepLong f s
  | .msrShort f => Sys2Proof.Machine.execMsrShort f s
  | .msrLong f => Sys2Proof.Machine.execMsrLong f s
  | .mrsShort f => Sys2Proof.Machine.execMrsShort f s
  | .mrsLong f => Sys2Proof.Machine.execMrsLong f s
  | .brkShort f => Sys2Proof.Machine.execBrkShort f s
  | .brkLong f => Sys2Proof.Machine.execBrkLong f s
  | .movShort f => Sys2Proof.Machine.execMovShort f s
  | .movLong f => Sys2Proof.Machine.execMovLong f s
  | .movxShort f => Sys2Proof.Machine.execMovxShort f s
  | .movxLong f => Sys2Proof.Machine.execMovxLong f s
  | .movxwShort f => Sys2Proof.Machine.execMovxwShort f s
  | .movxwLong f => Sys2Proof.Machine.execMovxwLong f s
  | .xredShort f => Sys2Proof.Machine.execXredShort f s
  | .xredLong f => Sys2Proof.Machine.execXredLong f s
  | .xscanShort f => Sys2Proof.Machine.execXscanShort f s
  | .xscanLong f => Sys2Proof.Machine.execXscanLong f s
  | .xshfShort f => Sys2Proof.Machine.execXshfShort f s
  | .xshfLong f => Sys2Proof.Machine.execXshfLong f s
  | .xbalShort f => Sys2Proof.Machine.execXbalShort f s
  | .xbalLong f => Sys2Proof.Machine.execXbalLong f s
  | .xreadShort f => Sys2Proof.Machine.execXreadShort f s
  | .xreadLong f => Sys2Proof.Machine.execXreadLong f s
  | .killShort f => Sys2Proof.Machine.execKillShort f s
  | .killLong f => Sys2Proof.Machine.execKillLong f s
  | .footShort f => Sys2Proof.Machine.execFootShort f s
  | .footLong f => Sys2Proof.Machine.execFootLong f s
  | .xwriteShort f => Sys2Proof.Machine.execXwriteShort f s
  | .xwriteLong f => Sys2Proof.Machine.execXwriteLong f s
  | .movpShort f => Sys2Proof.Machine.execMovpShort f s
  | .movpLong f => Sys2Proof.Machine.execMovpLong f s
  | .xmatchShort f => Sys2Proof.Machine.execXmatchShort f s
  | .xmatchLong f => Sys2Proof.Machine.execXmatchLong f s
  | .xrotShort f => Sys2Proof.Machine.execXrotShort f s
  | .xrotLong f => Sys2Proof.Machine.execXrotLong f s
  | .xfirstShort f => Sys2Proof.Machine.execXfirstShort f s
  | .xfirstLong f => Sys2Proof.Machine.execXfirstLong f s
  | .movwShort f => Sys2Proof.Machine.execMovwShort f s
  | .movwLong f => Sys2Proof.Machine.execMovwLong f s
  | .iaddShort f => Sys2Proof.Machine.execIaddShort f s
  | .iaddLong f => Sys2Proof.Machine.execIaddLong f s
  | .isubShort f => Sys2Proof.Machine.execIsubShort f s
  | .isubLong f => Sys2Proof.Machine.execIsubLong f s
  | .imulShort f => Sys2Proof.Machine.execImulShort f s
  | .imulLong f => Sys2Proof.Machine.execImulLong f s
  | .imadShort f => Sys2Proof.Machine.execImadShort f s
  | .imadLong f => Sys2Proof.Machine.execImadLong f s
  | .iminShort f => Sys2Proof.Machine.execIminShort f s
  | .iminLong f => Sys2Proof.Machine.execIminLong f s
  | .imaxShort f => Sys2Proof.Machine.execImaxShort f s
  | .imaxLong f => Sys2Proof.Machine.execImaxLong f s
  | .iabsShort f => Sys2Proof.Machine.execIabsShort f s
  | .iabsLong f => Sys2Proof.Machine.execIabsLong f s
  | .inegShort f => Sys2Proof.Machine.execInegShort f s
  | .inegLong f => Sys2Proof.Machine.execInegLong f s
  | .andShort f => Sys2Proof.Machine.execAndShort f s
  | .andLong f => Sys2Proof.Machine.execAndLong f s
  | .orShort f => Sys2Proof.Machine.execOrShort f s
  | .orLong f => Sys2Proof.Machine.execOrLong f s
  | .xorShort f => Sys2Proof.Machine.execXorShort f s
  | .xorLong f => Sys2Proof.Machine.execXorLong f s
  | .notShort f => Sys2Proof.Machine.execNotShort f s
  | .notLong f => Sys2Proof.Machine.execNotLong f s
  | .shlShort f => Sys2Proof.Machine.execShlShort f s
  | .shlLong f => Sys2Proof.Machine.execShlLong f s
  | .shrShort f => Sys2Proof.Machine.execShrShort f s
  | .shrLong f => Sys2Proof.Machine.execShrLong f s
  | .sarShort f => Sys2Proof.Machine.execSarShort f s
  | .sarLong f => Sys2Proof.Machine.execSarLong f s
  | .rotShort f => Sys2Proof.Machine.execRotShort f s
  | .rotLong f => Sys2Proof.Machine.execRotLong f s
  | .bfeShort f => Sys2Proof.Machine.execBfeShort f s
  | .bfeLong f => Sys2Proof.Machine.execBfeLong f s
  | .bfiShort f => Sys2Proof.Machine.execBfiShort f s
  | .bfiLong f => Sys2Proof.Machine.execBfiLong f s
  | .popcShort f => Sys2Proof.Machine.execPopcShort f s
  | .popcLong f => Sys2Proof.Machine.execPopcLong f s
  | .clzShort f => Sys2Proof.Machine.execClzShort f s
  | .clzLong f => Sys2Proof.Machine.execClzLong f s
  | .brevShort f => Sys2Proof.Machine.execBrevShort f s
  | .brevLong f => Sys2Proof.Machine.execBrevLong f s
  | .icmpShort f => Sys2Proof.Machine.execIcmpShort f s
  | .icmpLong f => Sys2Proof.Machine.execIcmpLong f s
  | .faddShort f => Sys2Proof.Machine.execFaddShort f s
  | .faddLong f => Sys2Proof.Machine.execFaddLong f s
  | .fsubShort f => Sys2Proof.Machine.execFsubShort f s
  | .fsubLong f => Sys2Proof.Machine.execFsubLong f s
  | .fmulShort f => Sys2Proof.Machine.execFmulShort f s
  | .fmulLong f => Sys2Proof.Machine.execFmulLong f s
  | .ffmaShort f => Sys2Proof.Machine.execFfmaShort f s
  | .ffmaLong f => Sys2Proof.Machine.execFfmaLong f s
  | .fminShort f => Sys2Proof.Machine.execFminShort f s
  | .fminLong f => Sys2Proof.Machine.execFminLong f s
  | .fmaxShort f => Sys2Proof.Machine.execFmaxShort f s
  | .fmaxLong f => Sys2Proof.Machine.execFmaxLong f s
  | .frcpShort f => Sys2Proof.Machine.execFrcpShort f s
  | .frcpLong f => Sys2Proof.Machine.execFrcpLong f s
  | .frsqShort f => Sys2Proof.Machine.execFrsqShort f s
  | .frsqLong f => Sys2Proof.Machine.execFrsqLong f s
  | .fsqrtShort f => Sys2Proof.Machine.execFsqrtShort f s
  | .fsqrtLong f => Sys2Proof.Machine.execFsqrtLong f s
  | .fdivShort f => Sys2Proof.Machine.execFdivShort f s
  | .fdivLong f => Sys2Proof.Machine.execFdivLong f s
  | .fexp2Short f => Sys2Proof.Machine.execFexp2Short f s
  | .fexp2Long f => Sys2Proof.Machine.execFexp2Long f s
  | .flog2Short f => Sys2Proof.Machine.execFlog2Short f s
  | .flog2Long f => Sys2Proof.Machine.execFlog2Long f s
  | .fsinShort f => Sys2Proof.Machine.execFsinShort f s
  | .fsinLong f => Sys2Proof.Machine.execFsinLong f s
  | .fcosShort f => Sys2Proof.Machine.execFcosShort f s
  | .fcosLong f => Sys2Proof.Machine.execFcosLong f s
  | .frndShort f => Sys2Proof.Machine.execFrndShort f s
  | .frndLong f => Sys2Proof.Machine.execFrndLong f s
  | .fcmpShort f => Sys2Proof.Machine.execFcmpShort f s
  | .fcmpLong f => Sys2Proof.Machine.execFcmpLong f s
  | .fclassShort f => Sys2Proof.Machine.execFclassShort f s
  | .fclassLong f => Sys2Proof.Machine.execFclassLong f s
  | .fabsShort f => Sys2Proof.Machine.execFabsShort f s
  | .fabsLong f => Sys2Proof.Machine.execFabsLong f s
  | .fnegShort f => Sys2Proof.Machine.execFnegShort f s
  | .fnegLong f => Sys2Proof.Machine.execFnegLong f s
  | .fscaleShort f => Sys2Proof.Machine.execFscaleShort f s
  | .fscaleLong f => Sys2Proof.Machine.execFscaleLong f s
  | .cvtShort f => Sys2Proof.Machine.execCvtShort f s
  | .cvtLong f => Sys2Proof.Machine.execCvtLong f s
  | .cvtBfx f => Sys2Proof.Machine.execCvtBfx f s
  | .cvttShort f => Sys2Proof.Machine.execCvttShort f s
  | .cvttLong f => Sys2Proof.Machine.execCvttLong f s
  | .hadd2Short f => Sys2Proof.Machine.execHadd2Short f s
  | .hadd2Long f => Sys2Proof.Machine.execHadd2Long f s
  | .hmul2Short f => Sys2Proof.Machine.execHmul2Short f s
  | .hmul2Long f => Sys2Proof.Machine.execHmul2Long f s
  | .hfma2Short f => Sys2Proof.Machine.execHfma2Short f s
  | .hfma2Long f => Sys2Proof.Machine.execHfma2Long f s
  | .hmin2Short f => Sys2Proof.Machine.execHmin2Short f s
  | .hmin2Long f => Sys2Proof.Machine.execHmin2Long f s
  | .hmax2Short f => Sys2Proof.Machine.execHmax2Short f s
  | .hmax2Long f => Sys2Proof.Machine.execHmax2Long f s
  | .dot2Short f => Sys2Proof.Machine.execDot2Short f s
  | .dot2Long f => Sys2Proof.Machine.execDot2Long f s
  | .dot4Short f => Sys2Proof.Machine.execDot4Short f s
  | .dot4Long f => Sys2Proof.Machine.execDot4Long f s
  | .selShort f => Sys2Proof.Machine.execSelShort f s
  | .selLong f => Sys2Proof.Machine.execSelLong f s
  | .fpstClearShort f => Sys2Proof.Machine.execFpstClearShort f s
  | .fpstClearLong f => Sys2Proof.Machine.execFpstClearLong f s
  | .bpermShort f => Sys2Proof.Machine.execBpermShort f s
  | .bpermLong f => Sys2Proof.Machine.execBpermLong f s
  | .bool3Short f => Sys2Proof.Machine.execBool3Short f s
  | .bool3Long f => Sys2Proof.Machine.execBool3Long f s
  | .isadShort f => Sys2Proof.Machine.execIsadShort f s
  | .isadLong f => Sys2Proof.Machine.execIsadLong f s
  | .iclampShort f => Sys2Proof.Machine.execIclampShort f s
  | .iclampLong f => Sys2Proof.Machine.execIclampLong f s
  | .fclampShort f => Sys2Proof.Machine.execFclampShort f s
  | .fclampLong f => Sys2Proof.Machine.execFclampLong f s
  | .ldShort f => Sys2Proof.Machine.execLdShort f s
  | .ldLong f => Sys2Proof.Machine.execLdLong f s
  | .ldsShort f => Sys2Proof.Machine.execLdsShort f s
  | .ldsLong f => Sys2Proof.Machine.execLdsLong f s
  | .lduShort f => Sys2Proof.Machine.execLduShort f s
  | .lduLong f => Sys2Proof.Machine.execLduLong f s
  | .st f => Sys2Proof.Machine.execSt f s
  | .sts f => Sys2Proof.Machine.execSts f s
  | .ldw f => Sys2Proof.Machine.execLdw f s
  | .stw f => Sys2Proof.Machine.execStw f s
  | .atom f => Sys2Proof.Machine.execAtom f s
  | .atoms f => Sys2Proof.Machine.execAtoms f s
  | .red f => Sys2Proof.Machine.execRed f s
  | .reds f => Sys2Proof.Machine.execReds f s
  | .fence f => Sys2Proof.Machine.execFence f s
  | .pref f => Sys2Proof.Machine.execPref f s
  | .frameEnter f => Sys2Proof.Machine.execFrameEnter f s
  | .frameLeave f => Sys2Proof.Machine.execFrameLeave f s
  | .icinv f => Sys2Proof.Machine.execIcinv f s
  | .cctl f => Sys2Proof.Machine.execCctl f s
  | .ldl f => Sys2Proof.Machine.execLdl f s
  | .stl f => Sys2Proof.Machine.execStl f s
  | .stm f => Sys2Proof.Machine.execStm f s
  | .crnLd f => Sys2Proof.Machine.execCrnLd f s
  | .crnSt f => Sys2Proof.Machine.execCrnSt f s
  | .crnCp f => Sys2Proof.Machine.execCrnCp f s
  | .crnSet f => Sys2Proof.Machine.execCrnSet f s
  | .crnGather f => Sys2Proof.Machine.execCrnGather f s
  | .crnChain f => Sys2Proof.Machine.execCrnChain f s
  | .crnFence f => Sys2Proof.Machine.execCrnFence f s
  | .crnMode f => Sys2Proof.Machine.execCrnMode f s
  | .ringDecl f => Sys2Proof.Machine.execRingDecl f s
  | .ringAdv f => Sys2Proof.Machine.execRingAdv f s
  | .ringStat f => Sys2Proof.Machine.execRingStat f s
  | .mxbTake f => Sys2Proof.Machine.execMxbTake f s
  | .mxbPass f => Sys2Proof.Machine.execMxbPass f s
  | .mxbQuery f => Sys2Proof.Machine.execMxbQuery f s
  | .mma f => Sys2Proof.Machine.execMma f s
  | .mzero f => Sys2Proof.Machine.execMzero f s
  | .mlda f => Sys2Proof.Machine.execMlda f s
  | .bld f => Sys2Proof.Machine.execBld f s
  | .mwait f => Sys2Proof.Machine.execMwait f s
  | .mdrain f => Sys2Proof.Machine.execMdrain f s
  | .mdrainLoad f => Sys2Proof.Machine.execMdrainLoad f s
  | .mdrainConst f => Sys2Proof.Machine.execMdrainConst f s
  | .mdresume f => Sys2Proof.Machine.execMdresume f s
  | .srgOpen f => Sys2Proof.Machine.execSrgOpen f s
  | .srgClose f => Sys2Proof.Machine.execSrgClose f s
  | .srgLoad f => Sys2Proof.Machine.execSrgLoad f s
  | .srgBound f => Sys2Proof.Machine.execSrgBound f s
  | .srgEnable f => Sys2Proof.Machine.execSrgEnable f s
  | .srgEvict f => Sys2Proof.Machine.execSrgEvict f s
  | .srgStat f => Sys2Proof.Machine.execSrgStat f s
  | .liftPush f => Sys2Proof.Machine.execLiftPush f s
  | .liftPushBulk f => Sys2Proof.Machine.execLiftPushBulk f s
  | .liftPop f => Sys2Proof.Machine.execLiftPop f s
  | .liftFree f => Sys2Proof.Machine.execLiftFree f s
  | .liftWait f => Sys2Proof.Machine.execLiftWait f s
  | .enq f => Sys2Proof.Machine.execEnq f s
  | .spawn f => Sys2Proof.Machine.execSpawn f s
  | .phase f => Sys2Proof.Machine.execPhase f s
  | .retire f => Sys2Proof.Machine.execRetire f s
  | .depInc f => Sys2Proof.Machine.execDepInc f s
  | .depDec f => Sys2Proof.Machine.execDepDec f s
  | .depWait f => Sys2Proof.Machine.execDepWait f s
  | .qstatQaddr f => Sys2Proof.Machine.execQstatQaddr f s
  | .qstatOcc f => Sys2Proof.Machine.execQstatOcc f s
  | .qstatRoom f => Sys2Proof.Machine.execQstatRoom f s
  | .qstatTree f => Sys2Proof.Machine.execQstatTree f s
  | .probe f => Sys2Proof.Machine.execProbe f s
  | .mapp f => Sys2Proof.Machine.execMapp f s
  | .mappFrame f => Sys2Proof.Machine.execMappFrame f s
  | .tlbiLocal f => Sys2Proof.Machine.execTlbiLocal f s
  | .unmap f => Sys2Proof.Machine.execUnmap f s
  | .tlbiPage f => Sys2Proof.Machine.execTlbiPage f s
  | .mapstat f => Sys2Proof.Machine.execMapstat f s

end Sys2Proof.Machine
end

