-- ==== Sys2Proof/Machine/Run.lean ====
section
/-! DEFINITION. The meaning of a decoded form without the instruction that it builds, for which alone the compiler has no
constructor; `execForm_direct` proves the two equal. -/

namespace Sys2Proof.Machine

/-- The meaning of the instruction that a form builds. -/
noncomputable def execForm (op : Op) (form : Form) (s : State) : Host.Outcome State Fault Refusal :=
  match op.build form with
  | some i => exec i s
  | none => .next s

/-- The meaning of words with an opcode that is not assigned (03 R83). -/
def runIllegal (ws : List Word) (s : State) : Host.Outcome State Fault Refusal := exec (.illegalInstruction ws) s

/-- The meaning of a short form of an opcode. -/
def runShort (op : Op) (f : ShortFields) (s : State) : Host.Outcome State Fault Refusal :=
  match op with
  | .nop => Sys2Proof.Machine.execNopShort f s
  | .bra => Sys2Proof.Machine.execBraShort f s
  | .brx => Sys2Proof.Machine.execBrxShort f s
  | .call => Sys2Proof.Machine.execCallShort f s
  | .ret => Sys2Proof.Machine.execRetShort f s
  | .bany => Sys2Proof.Machine.execBanyShort f s
  | .ball => Sys2Proof.Machine.execBallShort f s
  | .bnone => Sys2Proof.Machine.execBnoneShort f s
  | .emset => Sys2Proof.Machine.execEmsetShort f s
  | .emand => Sys2Proof.Machine.execEmandShort f s
  | .emor => Sys2Proof.Machine.execEmorShort f s
  | .emnot => Sys2Proof.Machine.execEmnotShort f s
  | .yield => Sys2Proof.Machine.execYieldShort f s
  | .bar => Sys2Proof.Machine.execBarShort f s
  | .barArrive => Sys2Proof.Machine.execBarArriveShort f s
  | .barWait => Sys2Proof.Machine.execBarWaitShort f s
  | .waitbAll => Sys2Proof.Machine.execWaitbAllShort f s
  | .waitbAny => Sys2Proof.Machine.execWaitbAnyShort f s
  | .ffb => Sys2Proof.Machine.execFfbShort f s
  | .bclr => Sys2Proof.Machine.execBclrShort f s
  | .trap => Sys2Proof.Machine.execTrapShort f s
  | .tret => Sys2Proof.Machine.execTretShort f s
  | .svc => Sys2Proof.Machine.execSvcShort f s
  | .exit => Sys2Proof.Machine.execExitShort f s
  | .sleep => Sys2Proof.Machine.execSleepShort f s
  | .msr => Sys2Proof.Machine.execMsrShort f s
  | .mrs => Sys2Proof.Machine.execMrsShort f s
  | .brk => Sys2Proof.Machine.execBrkShort f s
  | .mov => Sys2Proof.Machine.execMovShort f s
  | .movx => Sys2Proof.Machine.execMovxShort f s
  | .movxw => Sys2Proof.Machine.execMovxwShort f s
  | .xred => Sys2Proof.Machine.execXredShort f s
  | .xscan => Sys2Proof.Machine.execXscanShort f s
  | .xshf => Sys2Proof.Machine.execXshfShort f s
  | .xbal => Sys2Proof.Machine.execXbalShort f s
  | .xread => Sys2Proof.Machine.execXreadShort f s
  | .kill => Sys2Proof.Machine.execKillShort f s
  | .foot => Sys2Proof.Machine.execFootShort f s
  | .xwrite => Sys2Proof.Machine.execXwriteShort f s
  | .movp => Sys2Proof.Machine.execMovpShort f s
  | .xmatch => Sys2Proof.Machine.execXmatchShort f s
  | .xrot => Sys2Proof.Machine.execXrotShort f s
  | .xfirst => Sys2Proof.Machine.execXfirstShort f s
  | .movw => Sys2Proof.Machine.execMovwShort f s
  | .iadd => Sys2Proof.Machine.execIaddShort f s
  | .isub => Sys2Proof.Machine.execIsubShort f s
  | .imul => Sys2Proof.Machine.execImulShort f s
  | .imad => Sys2Proof.Machine.execImadShort f s
  | .imin => Sys2Proof.Machine.execIminShort f s
  | .imax => Sys2Proof.Machine.execImaxShort f s
  | .iabs => Sys2Proof.Machine.execIabsShort f s
  | .ineg => Sys2Proof.Machine.execInegShort f s
  | .and => Sys2Proof.Machine.execAndShort f s
  | .or => Sys2Proof.Machine.execOrShort f s
  | .xor => Sys2Proof.Machine.execXorShort f s
  | .not => Sys2Proof.Machine.execNotShort f s
  | .shl => Sys2Proof.Machine.execShlShort f s
  | .shr => Sys2Proof.Machine.execShrShort f s
  | .sar => Sys2Proof.Machine.execSarShort f s
  | .rot => Sys2Proof.Machine.execRotShort f s
  | .bfe => Sys2Proof.Machine.execBfeShort f s
  | .bfi => Sys2Proof.Machine.execBfiShort f s
  | .popc => Sys2Proof.Machine.execPopcShort f s
  | .clz => Sys2Proof.Machine.execClzShort f s
  | .brev => Sys2Proof.Machine.execBrevShort f s
  | .icmp => Sys2Proof.Machine.execIcmpShort f s
  | .fadd => Sys2Proof.Machine.execFaddShort f s
  | .fsub => Sys2Proof.Machine.execFsubShort f s
  | .fmul => Sys2Proof.Machine.execFmulShort f s
  | .ffma => Sys2Proof.Machine.execFfmaShort f s
  | .fmin => Sys2Proof.Machine.execFminShort f s
  | .fmax => Sys2Proof.Machine.execFmaxShort f s
  | .frcp => Sys2Proof.Machine.execFrcpShort f s
  | .frsq => Sys2Proof.Machine.execFrsqShort f s
  | .fsqrt => Sys2Proof.Machine.execFsqrtShort f s
  | .fdiv => Sys2Proof.Machine.execFdivShort f s
  | .fexp2 => Sys2Proof.Machine.execFexp2Short f s
  | .flog2 => Sys2Proof.Machine.execFlog2Short f s
  | .fsin => Sys2Proof.Machine.execFsinShort f s
  | .fcos => Sys2Proof.Machine.execFcosShort f s
  | .frnd => Sys2Proof.Machine.execFrndShort f s
  | .fcmp => Sys2Proof.Machine.execFcmpShort f s
  | .fclass => Sys2Proof.Machine.execFclassShort f s
  | .fabs => Sys2Proof.Machine.execFabsShort f s
  | .fneg => Sys2Proof.Machine.execFnegShort f s
  | .fscale => Sys2Proof.Machine.execFscaleShort f s
  | .cvt => Sys2Proof.Machine.execCvtShort f s
  | .cvtt => Sys2Proof.Machine.execCvttShort f s
  | .hadd2 => Sys2Proof.Machine.execHadd2Short f s
  | .hmul2 => Sys2Proof.Machine.execHmul2Short f s
  | .hfma2 => Sys2Proof.Machine.execHfma2Short f s
  | .hmin2 => Sys2Proof.Machine.execHmin2Short f s
  | .hmax2 => Sys2Proof.Machine.execHmax2Short f s
  | .dot2 => Sys2Proof.Machine.execDot2Short f s
  | .dot4 => Sys2Proof.Machine.execDot4Short f s
  | .sel => Sys2Proof.Machine.execSelShort f s
  | .fpstClear => Sys2Proof.Machine.execFpstClearShort f s
  | .bperm => Sys2Proof.Machine.execBpermShort f s
  | .bool3 => Sys2Proof.Machine.execBool3Short f s
  | .isad => Sys2Proof.Machine.execIsadShort f s
  | .iclamp => Sys2Proof.Machine.execIclampShort f s
  | .fclamp => Sys2Proof.Machine.execFclampShort f s
  | .ld => Sys2Proof.Machine.execLdShort f s
  | .lds => Sys2Proof.Machine.execLdsShort f s
  | .ldu => Sys2Proof.Machine.execLduShort f s
  | _ => .next s

/-- The meaning of a long form of an opcode. -/
def runLong (op : Op) (f : LongFields) (s : State) : Host.Outcome State Fault Refusal :=
  match op with
  | .nop => Sys2Proof.Machine.execNopLong f s
  | .bra => Sys2Proof.Machine.execBraLong f s
  | .brx => Sys2Proof.Machine.execBrxLong f s
  | .call => Sys2Proof.Machine.execCallLong f s
  | .ret => Sys2Proof.Machine.execRetLong f s
  | .bany => Sys2Proof.Machine.execBanyLong f s
  | .ball => Sys2Proof.Machine.execBallLong f s
  | .bnone => Sys2Proof.Machine.execBnoneLong f s
  | .emset => Sys2Proof.Machine.execEmsetLong f s
  | .emand => Sys2Proof.Machine.execEmandLong f s
  | .emor => Sys2Proof.Machine.execEmorLong f s
  | .emnot => Sys2Proof.Machine.execEmnotLong f s
  | .yield => Sys2Proof.Machine.execYieldLong f s
  | .bar => Sys2Proof.Machine.execBarLong f s
  | .barArrive => Sys2Proof.Machine.execBarArriveLong f s
  | .barWait => Sys2Proof.Machine.execBarWaitLong f s
  | .waitbAll => Sys2Proof.Machine.execWaitbAllLong f s
  | .waitbAny => Sys2Proof.Machine.execWaitbAnyLong f s
  | .ffb => Sys2Proof.Machine.execFfbLong f s
  | .bclr => Sys2Proof.Machine.execBclrLong f s
  | .trap => Sys2Proof.Machine.execTrapLong f s
  | .svc => Sys2Proof.Machine.execSvcLong f s
  | .exit => Sys2Proof.Machine.execExitLong f s
  | .sleep => Sys2Proof.Machine.execSleepLong f s
  | .msr => Sys2Proof.Machine.execMsrLong f s
  | .mrs => Sys2Proof.Machine.execMrsLong f s
  | .brk => Sys2Proof.Machine.execBrkLong f s
  | .mov => Sys2Proof.Machine.execMovLong f s
  | .movx => Sys2Proof.Machine.execMovxLong f s
  | .movxw => Sys2Proof.Machine.execMovxwLong f s
  | .xred => Sys2Proof.Machine.execXredLong f s
  | .xscan => Sys2Proof.Machine.execXscanLong f s
  | .xshf => Sys2Proof.Machine.execXshfLong f s
  | .xbal => Sys2Proof.Machine.execXbalLong f s
  | .xread => Sys2Proof.Machine.execXreadLong f s
  | .kill => Sys2Proof.Machine.execKillLong f s
  | .foot => Sys2Proof.Machine.execFootLong f s
  | .xwrite => Sys2Proof.Machine.execXwriteLong f s
  | .movp => Sys2Proof.Machine.execMovpLong f s
  | .xmatch => Sys2Proof.Machine.execXmatchLong f s
  | .xrot => Sys2Proof.Machine.execXrotLong f s
  | .xfirst => Sys2Proof.Machine.execXfirstLong f s
  | .movw => Sys2Proof.Machine.execMovwLong f s
  | .iadd => Sys2Proof.Machine.execIaddLong f s
  | .isub => Sys2Proof.Machine.execIsubLong f s
  | .imul => Sys2Proof.Machine.execImulLong f s
  | .imad => Sys2Proof.Machine.execImadLong f s
  | .imin => Sys2Proof.Machine.execIminLong f s
  | .imax => Sys2Proof.Machine.execImaxLong f s
  | .iabs => Sys2Proof.Machine.execIabsLong f s
  | .ineg => Sys2Proof.Machine.execInegLong f s
  | .and => Sys2Proof.Machine.execAndLong f s
  | .or => Sys2Proof.Machine.execOrLong f s
  | .xor => Sys2Proof.Machine.execXorLong f s
  | .not => Sys2Proof.Machine.execNotLong f s
  | .shl => Sys2Proof.Machine.execShlLong f s
  | .shr => Sys2Proof.Machine.execShrLong f s
  | .sar => Sys2Proof.Machine.execSarLong f s
  | .rot => Sys2Proof.Machine.execRotLong f s
  | .bfe => Sys2Proof.Machine.execBfeLong f s
  | .bfi => Sys2Proof.Machine.execBfiLong f s
  | .popc => Sys2Proof.Machine.execPopcLong f s
  | .clz => Sys2Proof.Machine.execClzLong f s
  | .brev => Sys2Proof.Machine.execBrevLong f s
  | .icmp => Sys2Proof.Machine.execIcmpLong f s
  | .fadd => Sys2Proof.Machine.execFaddLong f s
  | .fsub => Sys2Proof.Machine.execFsubLong f s
  | .fmul => Sys2Proof.Machine.execFmulLong f s
  | .ffma => Sys2Proof.Machine.execFfmaLong f s
  | .fmin => Sys2Proof.Machine.execFminLong f s
  | .fmax => Sys2Proof.Machine.execFmaxLong f s
  | .frcp => Sys2Proof.Machine.execFrcpLong f s
  | .frsq => Sys2Proof.Machine.execFrsqLong f s
  | .fsqrt => Sys2Proof.Machine.execFsqrtLong f s
  | .fdiv => Sys2Proof.Machine.execFdivLong f s
  | .fexp2 => Sys2Proof.Machine.execFexp2Long f s
  | .flog2 => Sys2Proof.Machine.execFlog2Long f s
  | .fsin => Sys2Proof.Machine.execFsinLong f s
  | .fcos => Sys2Proof.Machine.execFcosLong f s
  | .frnd => Sys2Proof.Machine.execFrndLong f s
  | .fcmp => Sys2Proof.Machine.execFcmpLong f s
  | .fclass => Sys2Proof.Machine.execFclassLong f s
  | .fabs => Sys2Proof.Machine.execFabsLong f s
  | .fneg => Sys2Proof.Machine.execFnegLong f s
  | .fscale => Sys2Proof.Machine.execFscaleLong f s
  | .cvt => Sys2Proof.Machine.execCvtLong f s
  | .cvtBfx => Sys2Proof.Machine.execCvtBfx f s
  | .cvtt => Sys2Proof.Machine.execCvttLong f s
  | .hadd2 => Sys2Proof.Machine.execHadd2Long f s
  | .hmul2 => Sys2Proof.Machine.execHmul2Long f s
  | .hfma2 => Sys2Proof.Machine.execHfma2Long f s
  | .hmin2 => Sys2Proof.Machine.execHmin2Long f s
  | .hmax2 => Sys2Proof.Machine.execHmax2Long f s
  | .dot2 => Sys2Proof.Machine.execDot2Long f s
  | .dot4 => Sys2Proof.Machine.execDot4Long f s
  | .sel => Sys2Proof.Machine.execSelLong f s
  | .fpstClear => Sys2Proof.Machine.execFpstClearLong f s
  | .bperm => Sys2Proof.Machine.execBpermLong f s
  | .bool3 => Sys2Proof.Machine.execBool3Long f s
  | .isad => Sys2Proof.Machine.execIsadLong f s
  | .iclamp => Sys2Proof.Machine.execIclampLong f s
  | .fclamp => Sys2Proof.Machine.execFclampLong f s
  | .ld => Sys2Proof.Machine.execLdLong f s
  | .lds => Sys2Proof.Machine.execLdsLong f s
  | .ldu => Sys2Proof.Machine.execLduLong f s
  | .st => Sys2Proof.Machine.execSt f s
  | .sts => Sys2Proof.Machine.execSts f s
  | .ldw => Sys2Proof.Machine.execLdw f s
  | .stw => Sys2Proof.Machine.execStw f s
  | .atom => Sys2Proof.Machine.execAtom f s
  | .atoms => Sys2Proof.Machine.execAtoms f s
  | .red => Sys2Proof.Machine.execRed f s
  | .reds => Sys2Proof.Machine.execReds f s
  | .fence => Sys2Proof.Machine.execFence f s
  | .pref => Sys2Proof.Machine.execPref f s
  | .frameEnter => Sys2Proof.Machine.execFrameEnter f s
  | .frameLeave => Sys2Proof.Machine.execFrameLeave f s
  | .icinv => Sys2Proof.Machine.execIcinv f s
  | .cctl => Sys2Proof.Machine.execCctl f s
  | .ldl => Sys2Proof.Machine.execLdl f s
  | .stl => Sys2Proof.Machine.execStl f s
  | .stm => Sys2Proof.Machine.execStm f s
  | .crnLd => Sys2Proof.Machine.execCrnLd f s
  | .crnSt => Sys2Proof.Machine.execCrnSt f s
  | .crnCp => Sys2Proof.Machine.execCrnCp f s
  | .crnSet => Sys2Proof.Machine.execCrnSet f s
  | .crnGather => Sys2Proof.Machine.execCrnGather f s
  | .crnChain => Sys2Proof.Machine.execCrnChain f s
  | .crnFence => Sys2Proof.Machine.execCrnFence f s
  | .crnMode => Sys2Proof.Machine.execCrnMode f s
  | .ringDecl => Sys2Proof.Machine.execRingDecl f s
  | .ringAdv => Sys2Proof.Machine.execRingAdv f s
  | .ringStat => Sys2Proof.Machine.execRingStat f s
  | .mma => Sys2Proof.Machine.execMma f s
  | .mzero => Sys2Proof.Machine.execMzero f s
  | .mlda => Sys2Proof.Machine.execMlda f s
  | .bld => Sys2Proof.Machine.execBld f s
  | .mwait => Sys2Proof.Machine.execMwait f s
  | .mdresume => Sys2Proof.Machine.execMdresume f s
  | .srgOpen => Sys2Proof.Machine.execSrgOpen f s
  | .srgClose => Sys2Proof.Machine.execSrgClose f s
  | .srgStat => Sys2Proof.Machine.execSrgStat f s
  | .liftPop => Sys2Proof.Machine.execLiftPop f s
  | .liftFree => Sys2Proof.Machine.execLiftFree f s
  | .liftWait => Sys2Proof.Machine.execLiftWait f s
  | .enq => Sys2Proof.Machine.execEnq f s
  | .spawn => Sys2Proof.Machine.execSpawn f s
  | .phase => Sys2Proof.Machine.execPhase f s
  | .retire => Sys2Proof.Machine.execRetire f s
  | .depInc => Sys2Proof.Machine.execDepInc f s
  | .depDec => Sys2Proof.Machine.execDepDec f s
  | .depWait => Sys2Proof.Machine.execDepWait f s
  | .probe => Sys2Proof.Machine.execProbe f s
  | .tlbiLocal => Sys2Proof.Machine.execTlbiLocal f s
  | .unmap => Sys2Proof.Machine.execUnmap f s
  | .tlbiPage => Sys2Proof.Machine.execTlbiPage f s
  | .mapstat => Sys2Proof.Machine.execMapstat f s
  | .tret =>
    match f.modBits 17 17 with
    | 0 => Sys2Proof.Machine.execTretLong f s
    | _ => Sys2Proof.Machine.execTretKill f s
  | .mxb =>
    match f.modBits 14 11 with
    | 0 => Sys2Proof.Machine.execMxbTake f s
    | 1 => Sys2Proof.Machine.execMxbPass f s
    | 2 => Sys2Proof.Machine.execMxbQuery f s
    | _ => .next s
  | .mdrain =>
    match f.modBits 14 11 with
    | 0 => Sys2Proof.Machine.execMdrain f s
    | 1 => Sys2Proof.Machine.execMdrainLoad f s
    | 2 => Sys2Proof.Machine.execMdrainConst f s
    | _ => .next s
  | .srg =>
    match f.modBits 14 11 with
    | 0 => Sys2Proof.Machine.execSrgLoad f s
    | 1 => Sys2Proof.Machine.execSrgBound f s
    | 2 => Sys2Proof.Machine.execSrgEnable f s
    | 3 => Sys2Proof.Machine.execSrgEvict f s
    | _ => .next s
  | .liftPush =>
    match f.modBits 11 11 with
    | 0 => Sys2Proof.Machine.execLiftPush f s
    | _ => Sys2Proof.Machine.execLiftPushBulk f s
  | .qstat =>
    match f.modBits 13 11 with
    | 0 => Sys2Proof.Machine.execQstatQaddr f s
    | 1 => Sys2Proof.Machine.execQstatOcc f s
    | 2 => Sys2Proof.Machine.execQstatRoom f s
    | 3 => Sys2Proof.Machine.execQstatTree f s
    | _ => .next s
  | .mapp =>
    match f.modBits 12 11 with
    | 0 => Sys2Proof.Machine.execMapp f s
    | 1 => Sys2Proof.Machine.execMappFrame f s
    | _ => .next s

/-- The meaning of a form. -/
def runForm (op : Op) (form : Form) (s : State) : Host.Outcome State Fault Refusal :=
  match form with
  | .short f => runShort op f s
  | .long f => runLong op f s

/-- A form has the meaning of the instruction that it builds. -/
@[csimp] theorem execForm_direct : @execForm = @runForm := by
  funext op form s
  cases form with
  | short f => cases op <;> rfl
  | long f =>
    cases op <;> try rfl
    all_goals
      simp only [execForm, Op.build, Op.long, runForm, runLong]
      generalize LongFields.modBits f _ _ = n
      rcases n with _ | _ | _ | _ | _ <;> rfl

end Sys2Proof.Machine
end

