-- ==== Sys2Proof/Machine/Barrel.lean ====
section
/-! DEFINITION. The barrel: what a sub-core does in a cycle (02 R44-R50, R57; 03 R83; 10 R261). -/

namespace Sys2Proof.Machine

/-- Where a meaning goes on from its outcome; a stop keeps the outcome. -/
def andThen (x : Host.Outcome State Fault Refusal) (f : State → Host.Outcome State Fault Refusal) :
    Host.Outcome State Fault Refusal :=
  match x with
  | .next s => f s
  | .fault e => .fault e
  | .refused e => .refused e

/-- The stalled turn of a group (02 R49). A fetch that begins to wait makes the arrival of its words due. -/
def State.stallTurn (s : State) (r : GroupRef) (h : Hold) : State :=
  let first := h = .fetch && (s.group r).hold ≠ .fetch
  let s := s.modGroup r (fun g => g.stalled s.cycle h)
  if first then s.due [Instr.instructionFetch r] else s

/-- What stops a turn of a group before its instruction is decoded, with the words that had been fetched (10 R256). -/
def State.turnStopped (s : State) (r : GroupRef) (ws : List Word) (x : Stop) : State :=
  let s := s.modGroup r (fun g => { g with ir := ws })
  match x with
  | .trap t => s.trap r t
  | .stall h => s.stallTurn r h
  | .hostPath page => s.holdForHost r page

/-- The trap of words that are no instruction (03 R83). -/
def rejectTrap (e : Reject) : Trap :=
  match e with
  | .illegalOperand => Trap.plain .illegalOperand
  | .neverAssigned => { Trap.plain .illegalInstruction with reason := 2 }
  | .laterLevel => { Trap.plain .illegalInstruction with reason := 1 }
  | _ => { Trap.plain .illegalInstruction with reason := 3 }

/-- The fields of a form, a short one as R65 widens it. -/
def formFields (op : Op) (form : Form) : LongFields :=
  match form with
  | .short f => f.widen op
  | .long f => f

/-- The turn of a group whose instruction words are there: the instruction is decoded, waits, takes a penalised turn, or
issues. -/
def State.turnWith (s : State) (r : GroupRef) (ws : List Word) : Host.Outcome State Fault Refusal :=
  let s := s.modGroup r (fun g => { g with ir := ws })
  match parse (s.attrs r).decode ws with
  | .error .neverAssigned => runIllegal ws { s with issuing := r }
  | .error .laterLevel => runIllegal ws { s with issuing := r }
  | .error e => .next (s.trap r (rejectTrap e))
  | .ok (op, form) =>
    match s.turnKind r op (formFields op form) with
    | .stall regs => .next (s.stallTurn r (.pending regs))
    | .interlock e => .next (s.modGroup r (fun g => { g with holdUntil := e }))
    | .wait h => .next (s.stallTurn r h)
    | .penalty => .next (s.modGroup r (fun g => { g with paid := g.paid + 1 }))
    | .issue => execForm op form { s with issuing := r }

/-- One turn of a barrel slot that a group holds. -/
def State.groupTurn (s : State) (r : GroupRef) : Host.Outcome State Fault Refusal :=
  let s := s.settle r
  let g := s.group r
  if s.cycle < g.holdUntil then .next s
  else if g.owed ≠ 0 then .next (s.modGroup r (fun g => { g with owed := g.owed - 1 }))
  else
    match s.fetch r false with
    | (s', ws, some e) => .next (s'.turnStopped r ws e)
    | (s', ws, none) => s'.turnWith r ws

/-! ### After a turn -/

/-- Has the group issued an instruction, or taken a trap, in the turn that found it as `g`? -/
def Group.moved (now g : Group) : Bool :=
  match now.status with
  | .hostHeld _ => false
  | _ => now.hold = .none && (now.pc ≠ g.pc || now.run ≠ g.run || now.sup ≠ g.sup || now.status ≠ g.status)

/-- The end of a turn: the 64th instruction ends the run (02 R46), a long stall swaps the group out (02 R49), and a group
in its skid or in a step stops (02 R57; 10 R261). -/
def State.afterTurn (s : State) (r : GroupRef) (before : Group) : Host.Outcome State Fault Refusal :=
  let g := s.group r
  let th := (s.core r.core).swapth
  let x :=
    if g.status = .running && 64 ≤ g.run then exec (.runLimit r) s
    else if g.status = .running && th ≠ 0 && swapLimit th < g.stall then exec (.transparentSwap r) s
    else .next s
  andThen x (fun s =>
    let s := s.skidEnds r
    .next (if (s.group r).moved before then s.stepEnds r else s))

/-- The heads of a sub-core's ready queue that are ready by now take its free barrel slots, the lowest first (02 R48). A slot
freed in this cycle is free from the next one on, and a group ready from a cycle issues two cycles later or after that. -/
def Core.grant (k : Core) (cycle sub : Nat) (freed : Option Nat) : Core :=
  ((List.range 4).filter (fun j => some j ≠ freed)).foldl (fun k j =>
    match k.barrel.getD (4 * sub + j) none, k.ready.getD sub [] with
    | none, e :: rest =>
      if e.1 ≤ cycle then
        { k with
          barrel := k.barrel.set (4 * sub + j) (some e.2), ready := k.ready.set sub rest
          groups := Table.modify k.groups e.2 (fun g => { g with holdUntil := max g.holdUntil (e.1 + 2) }) }
      else k
    | _, _ => k) k

/-- The group in a sub-core's barrel slot of this cycle. -/
def State.turnOwner (s : State) (core sub : Nat) : Option GroupRef :=
  ((s.core core).barrel.getD (4 * sub + s.cycle % 4) none).map (fun slot => ⟨core, slot⟩)

/-- One cycle of a sub-core (02 R44): the turn of its barrel slot, then the grants. A core without power does nothing (16
R384). -/
def State.subCycle (s : State) (core sub : Nat) : Host.Outcome State Fault Refusal :=
  if s.isGated core then .next s
  else
    let owner := s.turnOwner core sub
    let turn :=
      match owner with
      | none => .next s
      | some r => andThen (s.groupTurn r) (fun t => t.afterTurn r (s.group r))
    andThen turn (fun s => .next (s.modCore core (fun k => k.grant s.cycle sub (owner.map (fun _ => s.cycle % 4)))))

/-! ### The order of a core's sub-cores in a cycle (01 R18, R21; 02 R51; 13 R308, R310; 17 R399) -/

/-- Does an instruction go before the commands of its cycle: a wait that consumes berth bits, a consumer's ring advance, or what
passes the baton? -/
def goesFirst (op : Op) (f : LongFields) : Bool :=
  match op with
  | .waitbAll | .ffb => LongFields.consumes f
  | .bclr | .exit => true
  | .mwait | .ringAdv => f.modBits 11 11 = 1
  | .mxb => f.modBits 14 11 = 1
  | _ => false

/-- The engine that an instruction goes to, for the arbitration. -/
def engineOf (op : Op) : Nat :=
  match op with
  | .crnLd | .crnSt | .crnCp | .crnSet | .crnGather | .crnChain => arbCrane
  | .mma | .mzero | .mlda | .bld => arbMatrix
  | .mdrain => arbDrain
  | .srgOpen | .srg => arbSurrogate
  | _ => 0

/-- The place of a sub-core among those whose turns this cycle has, the lowest first: what goes first, then the commands as
round robin grants them, a team's groups at `phase` by their numbers. -/
def State.subRank (s : State) (core sub : Nat) : Nat :=
  let k := s.core core
  let plain := 16 * (32 + k.turnOf 0 sub)
  match s.turnOwner core sub with
  | none => plain
  | some r =>
    let s := s.settle r
    match s.fetch r false with
    | (_, _, some _) => plain
    | (_, ws, none) =>
      match parse (s.attrs r).decode ws with
      | .error _ => plain
      | .ok (op, form) =>
        if goesFirst op (formFields op form) then k.turnOf 0 sub
        else if op = .phase then 16 * (64 + (s.group r).number)
        else 16 * (32 + k.turnOf (engineOf op) sub) + k.turnOf 0 sub

/-- Puts a number into a list ordered by rank. -/
def insertBy (rank : Nat → Nat) (x : Nat) (l : List Nat) : List Nat :=
  match l with
  | [] => [x]
  | y :: rest => if rank x ≤ rank y then x :: y :: rest else y :: insertBy rank x rest

/-- The order of a core's sub-cores in this cycle (DESIGN CHOICE where no rule orders two of them, log entry 84). It matters
only where at least two have a turn. -/
def State.subOrder (s : State) (core : Nat) : List Nat :=
  let subs := List.range 4
  if (subs.filter (fun j => (s.turnOwner core j).isSome)).length < 2 then subs
  else
    let ranks := subs.map (s.subRank core)
    subs.foldr (insertBy (fun j => ranks.getD j 0)) []

/-- The order of a core's sub-cores, and the state in which the one that has gone first is the last to go again. -/
def State.arbitrate (s : State) (core : Nat) : State × List Nat :=
  let order := s.subOrder core
  let contenders := order.filter (fun j => (s.turnOwner core j).isSome)
  match contenders with
  | j :: _ :: _ => (s.modCore core (fun k => { k with arb := Table.set k.arb 0 j }), order)
  | _ => (s, order)

/-! ### Waiting and swapped-out groups -/

/-- May an engine take what waits for it? -/
def State.taken (s : State) (r : GroupRef) (x : Awaited) : Bool :=
  let k := s.core r.core
  match x with
  | .ats page =>
    let c := s.context (s.attrs r).ctx
    c.ats.any (fun e => e.page = page) || c.hostRequests.any (fun h => h.page = page)
  | .ring n => !s.ringNamed r.core n
  | .ringIdle n => (s.ring? r.core n).all (fun x => x.reserved = [])
  | .baton => s.holdsBaton r
  | .lift n => n ≤ s.liftFree r.core && k.bulk = []
  | .bulk => k.bulk.length < 4
  | .berth n => (k.berth n).state = .ready || (k.berth n).fault.isSome
  | .liftWait n => n ≤ s.liftFree r.core
  | .stores => (s.group r).predicted = []
  | x => s.accepts r x

/-- A swapped-out group joins the ready queue once what it waits for is there (02 R49). A sleep and a shootdown end at the
group's next issue. -/
def State.pollSwapped (s : State) (r : GroupRef) : State :=
  let g := s.group r
  match g.hold with
  | .none => s.wake r
  | .pending regs => if regs.any g.isPending then s else s.wake r
  | .fetch => s
  | .sleep t => if t ≤ s.time then s.due [Instr.sleepExpiry r] else s
  | .accept x => if s.taken r x then s.wakeAsking r else s
  | .shootdown id =>
    if s.shootdowns.any (fun x => x.id = id) then s
    else (s.modGroup r (fun g => { g with status := .running })).joinReady r (s.cycle + 1)

/-- A waiting group as a cycle ends. A lift.pop is evaluated afresh when enough entries are present, or when the partner
core has left the context (16 R379). A group at srg.close goes on as soon as its call lets it (15 R358, R359). -/
def State.pollGroup (s : State) (r : GroupRef) : State :=
  match (s.group r).status with
  | .waiting (.liftPop n) => if n ≤ (s.core r.core).avail || !s.partnerOk r then s.wake r else s
  | .waiting .srgClose => s.closeWaiting r
  | .waiting w => s.pollWait r w
  | .swapped => s.pollSwapped r
  | _ => s

/-! ### The end of a cycle -/

/-- Has a team's clock reached a limit since the watchdog last looked at it (18 R426)? -/
def State.clockCrosses (s : State) (team : Team) (limit : Nat) : Bool :=
  s.clockReached team limit && team.clockSeen < limit * 1000

/-- The watchdog has looked at a team's clock. -/
def State.seeClock (s : State) (t : TeamRef) : State := s.modTeam t (fun x => { x with clockSeen := s.teamClock x })

/-- The watchdog's steps that fall due for a team (18 R426). -/
def State.watchTeam (s : State) (t : TeamRef) : List Instr :=
  match s.team? t with
  | none => []
  | some team =>
    match s.launch? team.launch with
    | none => []
    | some l =>
      (if s.clockCrosses team l.t1 then [Instr.watchdogT1 t] else [])
        ++ (if s.clockCrosses team l.t2 then [Instr.watchdogT2 t] else [])
        ++ (if s.clockCrosses team l.t3 then [Instr.watchdogT3 t] else [])

/-- The eviction of a team that has been asked for, once the team is at a pre-emption point (02 R53, R55). -/
def State.evictTeam (s : State) (t : TeamRef) : List Instr :=
  match s.team? t with
  | none => []
  | some team => if team.preempt && s.atPoint t team then [Instr.eviction t] else []

/-- The resident teams. -/
def State.teamRefs (s : State) : List TeamRef := s.cores.flatMap (fun e => e.2.teams.map (fun t => ⟨e.1, t.1⟩))

/-- What a group's cycle ends with: its moored writes land (07 R172), the registers whose results came back in it are pending
no more (02 R49), and its held accesses are tried (11 R273). -/
def State.groupTick (s : State) (r : GroupRef) : State :=
  ((s.settleMoored r).retryHeld r).modGroup r (fun g => { g with landed := [] })

/-- A core as a cycle ends: ring advances that have arrived are applied (01 R21), its waiting groups and its teams are looked
at, its array makes a step, and what falls due is due. -/
def State.coreTick (s : State) (core : Nat) : State :=
  let slots := (s.core core).groups.map (·.1)
  let s := slots.foldl (fun s n => s.groupTick ⟨core, n⟩) s
  let s := s.modCore core (fun k => { k with rings := k.rings.map (fun e => (e.1, e.2.settle)) })
  let s := slots.foldl (fun s n => s.pollGroup ⟨core, n⟩) s
  let s := (s.core core).teams.foldl (fun s e => s.teamEnds ⟨core, e.1⟩) s
  let s := if s.recoveryDue core then s.due [Instr.recoveryGroupFormation (Fin.ofNat 384 core)] else s
  let s := s.gateTick core
  let s := if s.isGated core then s else s.modCore core (fun k => { k with matrix := k.matrix.cycle })
  let s : State :=
    match (s.core core).matrix.queue with
    | c :: _ => if c.fired && c.steps = 0 then s.due [Instr.arrayPhaseEnd (Fin.ofNat 384 core)] else s
    | [] => s
  if (s.cycle + 1) % 1024 = 0 then s.due [Instr.governorWindow (Fin.ofNat 384 core)] else s

/-- Do the cores run: not in SAFE (20 R445)? -/
def State.awake (s : State) : Bool := s.security.powered && s.security.state ≠ .safe

/-- Is an event an eviction? -/
def isEviction (i : Instr) : Bool :=
  match i with
  | .eviction _ => true
  | _ => false

/-- The end of a cycle. The watchdogs and then the evictions of the next one come before its other events (18 R427): an
eviction that is due takes place there while its team is at a pre-emption point (02 R55). -/
def State.tick (s : State) : State :=
  let s :=
    if s.awake then
      let t := (s.cores.foldl (fun s e => s.coreTick e.1) s.retryHalts.retryAreas.retryEvicted).enterRelaunches
      let t := t.teamRefs.foldl State.seeClock t
      { t with agenda := s.teamRefs.flatMap s.watchTeam ++ t.teamRefs.flatMap t.evictTeam
        ++ t.agenda.filter (fun i => !isEviction i) }.auditTick
    else s
  { s with cycle := s.cycle + 1, turn := .event s.agenda.length, cursor := 0, order := [] }

/-! ### One step -/

/-- Does an event take place in the module's state? In SAFE only MBOX and SECSTAT respond (20 R445), and without power only
a cold start is possible (20 R453). -/
def State.responds (s : State) (i : Instr) : Bool :=
  match i with
  | .coldStart _ => true
  | .mboxWrite _ _ => s.security.powered
  | .thermalTrip => true
  | .registerWrite _ _ _ => s.security.powered
  | _ => s.awake

/-- The groups that wait for berths are looked at, after the completions of the cycle and before its issues (01 R18). -/
def State.pollBerths (s : State) : State :=
  (s.cores.flatMap (fun e => e.2.groups.map (fun g => (⟨e.1, g.1⟩ : GroupRef)))).foldl (fun s r =>
    match (s.group r).status with
    | .waiting (.berthsAll m c) => s.pollWait r (.berthsAll m c)
    | .waiting (.berthsAny m) => s.pollWait r (.berthsAny m)
    | _ => s) s

/-- The oldest due event, if one of this cycle's is left; after them the sub-cores' turns. -/
def State.eventStep (s : State) (left : Nat) : Host.Outcome State Fault Refusal :=
  match left, s.agenda with
  | n + 1, i :: rest =>
    let t := { s with agenda := rest, turn := .event n }
    if s.responds i then exec i t else .next t
  | _, _ => .next { (if s.awake then s.pollBerths else s) with turn := .sub, cursor := 0, order := [] }

/-- The core whose sub-cores run next, from a core on. -/
def State.coreFrom (s : State) (core : Nat) : Option Nat := (s.cores.find? (fun e => core ≤ e.1)).map (·.1)

/-- One cycle of the first sub-core in an order; with the last, the core's turns are over. -/
def State.subTurn (s : State) (core : Nat) (order : List Nat) : Host.Outcome State Fault Refusal :=
  let rest := order.drop 1
  andThen (s.subCycle core (order.headD 0)) (fun t =>
    .next { t with order := rest, cursor := if rest = [] then core + 1 else core })

/-- The next sub-core's cycle: of the core at the cursor, else of the next core; after the last core the cycle ends. -/
def State.subStep (s : State) : Host.Outcome State Fault Refusal :=
  if !s.awake then .next { s with turn := .tick }
  else if s.order ≠ [] then s.subTurn s.cursor s.order
  else
    match s.coreFrom s.cursor with
    | none => .next { s with turn := .tick }
    | some core =>
      let x := s.arbitrate core
      x.1.subTurn core x.2

/-- One step of the device (log entry 4). -/
def State.oneStep (s : State) : Host.Outcome State Fault Refusal :=
  if !s.security.powered && !s.agenda.any (fun i => match i with | .coldStart _ => true | _ => false) then
    .fault .unpowered
  else
    match s.turn with
    | .sub => s.subStep
    | .event left => s.eventStep left
    | .tick => .next s.tick

end Sys2Proof.Machine
end

