-- ==== Sys2Proof/Machine/Placing.lean ====
section
/-! DEFINITION. A state whose next step fetches and runs a given instruction (log entry 6). -/

namespace Sys2Proof.Machine

/-- Where the instruction stands, and the tables that map it: a level-3 entry and a level-2 leaf for the first 64 GiB. -/
def placedText : Nat := 0x8000
def placedRoot : Nat := 0x2000
def placedTable : Nat := 0x4000

/-- A group as placement leaves it, at the instruction. -/
def placedGroup : Group := { Group.blank with pc := BitVec.ofNat 64 (0xFF00000000000000 + placedText) }

/-- Its team: one group, with the largest footprint and every moored register. -/
def placedTeam : Team :=
  { launch := 0, ctx := 0, stage := 0, variant := 0, tx := 0, ty := 0, tz := 0, size := 0, user := 0, dep := 0
    parent := BitVec.allOnes 64, retry := 0, origin := .seed, copy := none, slots := [0], foot := 60, moored := 16
    strict := false, decode := 9, scratchBase := 0, scratchBytes := 0, berthBase := 0, berthCount := 0, ringBase := 0
    ringCount := 0, barriers := [], batonHolder := none, batonQueue := [], batonFrom := 0, phaseSize := 0, phaseStage := 0
    phaseArrived := [], clockStart := 0, clockFrozen := 0, frozenAt := none, clockSeen := 0, preempt := false
    ending := .no }

/-- The bytes of the instruction: its bits, with the bits above them 0, up to the longest instruction. -/
def placedBytes (nbits w : Nat) : List Byte := bytesOfNum 20 (w % 2 ^ nbits)

/-- Core 0 with the group in the barrel slot whose turn it is, and the line of the instruction in the instruction cache. -/
def placedCore (cycle : Nat) (bytes : List Byte) : Core :=
  { Core.cold with
    ctx := some 0, clean := false, groups := [(0, placedGroup)], teams := [(0, placedTeam)]
    barrel := (List.replicate 16 none).set (cycle % 4) (some 0)
    icache := [{ line := placedText / 128, words := wordsOfBytes (bytes ++ List.replicate 108 0) }] }

/-- The state with an instruction where the next step fetches one: in the text of a team of context 0 on core 0. -/
def State.placeWord (s : State) (nbits w : Nat) : State :=
  let bytes := placedBytes nbits w
  let mem := Memory.writeNum (Memory.writeNum s.mem placedRoot 8 (placedTable + 1)) placedTable 8 0x177
  { s with
    turn := .sub, cursor := 0, order := [0], mem := Memory.writeBytes mem placedText bytes
    cores := Table.set s.cores 0 (placedCore s.cycle bytes)
    contexts := Table.set s.contexts 0 { Context.cold with root := placedRoot, valid := true }
    dieTlb := Table.erase s.dieTlb 0
    security := { s.security with state := .running, powered := true } }

end Sys2Proof.Machine
end

