-- ==== Sys2Proof/Machine/Step.lean ====
section
/-! DEFINITION. One step of the device, and where the next one fetches its instruction. -/

namespace Sys2Proof.Machine

/-- One step of the device (log entry 4): one cycle of a sub-core, one due event, or the end of a cycle. -/
def step (s : State) : Host.Outcome State Fault Refusal := s.oneStep

/-- The state with an instruction of `nbits` bits where `step` fetches the next one (log entry 6). -/
def State.withFetchWord (s : State) (nbits w : Nat) : State := s.placeWord nbits w

end Sys2Proof.Machine
end

