-- ==== Sys2Proof/Safety.lean ====
section
/-! DEFINITION. The vocabulary of the claims: what it is for an instruction to be ready, to change one group only, and to
leave memory in its canonical form. -/

namespace Sys2Proof

/-- `i` is the opcode `op` in one of its forms, with `f` the long form's fields that it acts with (03 R65). -/
def Instr.Has (i : Instr) (op : Op) (f : LongFields) : Prop :=
  ∃ form : Form, op.build form = some i ∧ Machine.formFields op form = f

namespace Machine

/-- The issuing group is resident, and the operand engine accepts the instruction and supplies `x` (07 R179). -/
def State.Ready (s : State) (op : Op) (f : LongFields) (x : Issue) : Prop :=
  (s.group? s.issuing).isSome = true ∧ s.prepare op f = .ok x

/-- As `Ready`, for an instruction whose chapter makes checks of its own, `mid` (12 R293 and elsewhere); it acts. -/
def State.ReadyWith (s : State) (op : Op) (f : LongFields) (idle : Idle) (mid : Issue → Attempt Unit) (x : Issue) :
    Prop :=
  (s.group? s.issuing).isSome = true ∧ s.prepareWith op f idle mid = .ok x ∧ x.acts = true

/-- `t` differs from `s` in the record of one group at most. -/
def State.OnlyGroup (s t : State) (r : GroupRef) : Prop := ∃ φ : Group → Group, t = s.modGroup r φ

/-- The issuing group as an instruction finds it: with the writes performed whose cycle is past (07 R163). -/
def State.settledSelf (s : State) : Group := (s.settle s.issuing).group s.issuing

/-- Every byte memory of the device is in its canonical form. -/
def State.memoryCanonical (s : State) : Bool := s.mem.wf && s.hostMem.all (fun e => Memory.wf e.2)

/-- `t` holds the bytes of `s` in device memory and in the host's half. -/
def State.SameMemory (s t : State) : Prop :=
  (∀ a, Memory.read t.mem a = Memory.read s.mem a)
    ∧ (∀ fn a, Memory.read (Table.get t.hostMem [] fn) a = Memory.read (Table.get s.hostMem [] fn) a)

/-- `t` holds the bytes of `s` in every on-chip window. -/
def State.SameWindows (s t : State) : Prop := ∀ c a, Memory.read (t.core c).win a = Memory.read (s.core c).win a

/-! ### What an issued instruction leaves -/

/-- The issuing group has issued an instruction and is at `pc`: its marked sources are free, and the registers that are not
marked and not in `dests` are as they were, with the uniform registers, the stack pointer and its limit, the privilege, the
call and the status. -/
structure Issue.SelfAdvances (x : Issue) (pc : DWord) (dests : List Reg) (t : State) : Prop where
  pc : t.self.pc = pc
  kept : ∀ n, n ∉ x.marked → Reg.v n ∉ dests → Table.find t.self.v n = Table.find x.s.self.v n
  freed : ∀ n ∈ x.marked, Reg.v n ∉ dests → Table.find t.self.v n = none
  s : t.self.s = x.s.self.s
  k : t.self.k = x.s.self.k
  sp : t.self.sp = x.s.self.sp
  limit : t.self.limit = x.s.self.limit
  sup : t.self.sup = x.s.self.sup
  call : t.self.call = x.s.self.call
  status : t.self.status = x.s.self.status

/-- As `SelfAdvances`, with nothing else of the state changed but the group's own record, and its stack as it was. -/
def Issue.AdvancesTo (x : Issue) (pc : DWord) (dests : List Reg) (t : State) : Prop :=
  x.s.OnlyGroup t x.s.issuing ∧ x.SelfAdvances pc dests t ∧ t.self.stack = x.s.self.stack

/-- As `AdvancesTo`, past the instruction. -/
def Issue.Advances (x : Issue) (dests : List Reg) (t : State) : Prop := x.AdvancesTo x.s.self.nextPc dests t

/-- The group has issued a deschedule instruction whose condition holds (02 R46-R48): its run has ended, its latches and
operand cache are empty, and it is ready from the next cycle, after the instruction. -/
structure Issue.Yields (x : Issue) (t : State) : Prop where
  pc : t.self.pc = x.s.self.nextPc
  status : t.self.status = .running
  run : t.self.run = 0
  latches : t.self.history = []
  cache : t.self.cache = List.replicate 8 none
  em : t.self.em = x.s.self.em
  preds : t.self.preds = x.s.self.preds
  barrel : some x.s.issuing.slot ∉ (t.core x.s.issuing.core).barrel
  ready : x.s.issuing.slot / 16 < (x.s.selfCore).ready.length →
    (x.s.cycle + 1, x.s.issuing.slot) ∈ (t.core x.s.issuing.core).ready.getD (x.s.issuing.slot / 16) []

/-- The group waits at a deschedule instruction (02 R47): its run has ended, and it is in no barrel slot and in no ready
queue. -/
structure Issue.Blocks (x : Issue) (w : Wait) (t : State) : Prop where
  pc : t.self.pc = x.s.self.pc
  status : t.self.status = .waiting w
  run : t.self.run = 0
  latches : t.self.history = []
  cache : t.self.cache = List.replicate 8 none
  em : t.self.em = x.s.self.em
  preds : t.self.preds = x.s.self.preds
  barrel : some x.s.issuing.slot ∉ (t.core x.s.issuing.core).barrel
  ready : ∀ q ∈ (t.core x.s.issuing.core).ready, ∀ e ∈ q, e.2 ≠ x.s.issuing.slot

/-- The group's tables of predicates and uniform registers have the places that R32 and R69 give them. -/
def Group.formed (g : Group) : Bool := g.preds.length = 7 && g.s.length = 64 && g.k.length = 16 && g.fpst.length = 32

/-- The masks and the predicates of the issuing group are as they were. -/
def Issue.SameMasks (x : Issue) (t : State) : Prop := t.self.em = x.s.self.em ∧ t.self.preds = x.s.self.preds

/-- A result of fixed latency (07 R163, R168): for each word `k` of the result, the file write of `val k l` to lane `l` is
in flight, in the lanes of the destination, for the cycle that the class gives; with no lane to write, no write is added. -/
structure Issue.Delivers (x : Issue) (op : Op) (f : LongFields) (val : Nat → Nat → Word) (t : State) : Prop where
  advances : x.Advances (if x.dest.mask = 0 then [] else x.dest.regs) t
  write : x.dest.mask ≠ 0 → ∀ k reg, k < resultWords op f → x.dest.regs[k]? = some reg →
    ∃ e ∈ t.self.inflight, e.reg = reg ∧ e.due = x.s.cycle + 4 * fixedClass (shape op f) ∧ e.mask = x.dest.mask
      ∧ ∀ l < 32, e.vals.at' l = val k l
  silent : x.dest.mask = 0 → ∀ e ∈ t.self.inflight, e ∈ x.s.self.inflight
  outstanding : t.self.outstanding = x.s.self.outstanding

/-- No register result: nothing is added to the writes in flight or to the results awaited. -/
structure Issue.Passes (x : Issue) (t : State) : Prop where
  advances : x.Advances [] t
  silent : ∀ e ∈ t.self.inflight, e ∈ x.s.self.inflight
  outstanding : t.self.outstanding = x.s.self.outstanding

/-- A result of variable latency (07 R165, R177): for each word `k` of the result the register awaits `val k l` in lane `l`, in the
lanes of the destination, and the return is due; with nothing to write, nothing is awaited. -/
structure Issue.Awaits (x : Issue) (words : Nat) (val : Nat → Nat → Word) (t : State) : Prop where
  advances : x.SelfAdvances x.s.self.nextPc (if x.dest.mask = 0 then [] else x.dest.regs) t
  pending : x.dest.mask ≠ 0 → x.dest.regs ≠ [] → ∃ o ∈ t.self.outstanding, o.mask = x.dest.mask
    ∧ Instr.loadReturn x.s.issuing o.id ∈ t.agenda
    ∧ ∀ k reg, k < words → x.dest.regs[k]? = some reg → ∃ vals, o.regs[k]? = some (reg, vals)
        ∧ ∀ l < 32, x.dest.mask.lane l = true → vals.at' l = val k l
  nothing : x.dest.mask = 0 ∨ x.dest.regs = [] → t.self.outstanding = x.s.self.outstanding
  inflight : ∀ e ∈ t.self.inflight, e ∈ x.s.self.inflight

/-- An instruction without a register result has issued, and what it does lies outside the group: the group goes on with its masks,
its flags and its writes in flight, and no byte of memory or of a window is written. -/
structure Issue.Goes (x : Issue) (s t : State) : Prop where
  advances : x.SelfAdvances x.s.self.nextPc [] t
  masks : x.SameMasks t
  fpst : t.self.fpst = x.s.self.fpst
  inflight : ∀ e ∈ t.self.inflight, e ∈ x.s.self.inflight
  outstanding : t.self.outstanding = x.s.self.outstanding
  memory : s.SameMemory t
  windows : x.s.SameWindows t

/-- The lane whose address and value make the result of lane `l` of an access: its only lane under U = 1 and for ldu. -/
def Issue.accessLane (x : Issue) (op : Op) (f : LongFields) (l : Nat) : Nat :=
  if f.u || op = .ldu then (x.accessLanes op f).headD 0 else l

/-- A lane's offset in the team's scratchpad (09 R217). -/
def Issue.scratchOffset (x : Issue) (f : LongFields) (l : Nat) : Nat :=
  ((intOf 32 false (laneVal x.a l) + scaledIndex f (laneVal x.b l) + dispOf f) % (2 ^ 32 : Nat)).toNat

/-- The last of some bytes that goes to a place, or what the place held. -/
def lastByte (bytes : List (Spot × Byte)) (p : Spot) (old : Byte) : Byte :=
  ((bytes.reverse.find? (fun e => e.1 = p)).map (·.2)).getD old

/-- The lane whose operands make the result of lane `l`: the gate lane under U = 1 (07 R173). -/
def Issue.operandLane (x : Issue) (f : LongFields) (l : Nat) : Nat := if f.u then x.s.self.gateLane else l

/-- Word `k` of a number of up to 64 bits. -/
def wordPart (v : DWord) (k : Nat) : Word := v.extractLsb' (32 * k) 32

/-- The flags of R129: `flags l` is ORed into sr.fpst of lane `l`, where the instruction acts and takes flags. -/
def Issue.FlagsOred (x : Issue) (flags : Nat → Flags) (t : State) : Prop :=
  ∀ l < 32, t.self.fpst.at' l =
    if x.acts && x.flagLanes.lane l then x.s.self.fpst.at' l ||| (flags l).setWidth 32 else x.s.self.fpst.at' l

/-! ### Exact results and their rounding (05 R114, R115, R120, R121) -/

/-- Do bits stand for a finite number of a format? -/
def FloatFormat.finite (k : FloatFormat) (bits : Nat) : Bool :=
  bits < 2 * k.signBit && bits / 2 ^ k.fbits % 2 ^ k.ebits ≠ 2 ^ k.ebits - 1

/-- Do they stand for a NaN, and for a signalling one? -/
def FloatFormat.isNaN (k : FloatFormat) (bits : Nat) : Bool :=
  bits / 2 ^ k.fbits % 2 ^ k.ebits = 2 ^ k.ebits - 1 && bits % 2 ^ k.fbits ≠ 0
def FloatFormat.signals (k : FloatFormat) (bits : Nat) : Bool := k.isNaN bits && !bits.testBit (k.fbits - 1)

/-- The sign bit of a number. -/
def FloatFormat.neg (k : FloatFormat) (bits : Nat) : Bool := bits.testBit (k.ebits + k.fbits)

/-- A finite number as a multiple of the format's smallest subnormal (05 R114). -/
def FloatFormat.units (k : FloatFormat) (bits : Nat) : Int :=
  let m := bits % 2 ^ k.fbits
  let e := bits / 2 ^ k.fbits % 2 ^ k.ebits
  let n : Nat := if e = 0 then m else (m + 2 ^ k.fbits) * 2 ^ (e - 1)
  if k.neg bits then -(n : Int) else n

/-- 1.0 in those units. -/
def FloatFormat.one (k : FloatFormat) : Nat := 2 ^ (k.bias + k.fbits - 1)

/-- The place of a number that is no NaN in the order that has −0 below +0 (08 R203). -/
def FloatFormat.place (k : FloatFormat) (bits : Nat) : Int :=
  if k.neg bits then -1 - ((bits % k.signBit : Nat) : Int) else (bits : Int)

/-- An exact real number, given by the fractions that it is at least, and at most. -/
structure Exact where
  atLeast : Int → Nat → Bool
  atMost : Int → Nat → Bool

/-- p / q. -/
def Exact.ratio (p : Int) (q : Nat) : Exact := ⟨fun n d => n * q ≤ p * d, fun n d => p * d ≤ n * q⟩

/-- √(p / q). -/
def Exact.root (p q : Nat) : Exact :=
  ⟨fun n d => n ≤ 0 || n * n * q ≤ ((p * d * d : Nat) : Int), fun n d => 0 ≤ n && ((p * d * d : Nat) : Int) ≤ n * n * q⟩

/-- Does an exact number, in the units of a format, overflow upward or downward to an infinity by RND (05 R121)? -/
def FloatFormat.toInf (k : FloatFormat) (rnd : Nat) (x : Exact) (down : Bool) : Bool :=
  let big := k.units (k.largest false)
  let ulp : Int := (2 ^ (2 ^ k.ebits - 3) : Nat)
  if down then if rnd = 0 then x.atMost (-(2 * big + ulp)) 2 else rnd = 3 && !x.atLeast (-big) 1
  else if rnd = 0 then x.atLeast (2 * big + ulp) 2 else rnd = 2 && !x.atMost big 1

/-- Is `r` the nearest finite number to `x` by RND, as against `y`: of two that are as near, the even one (03 R79; 05 R120)? -/
def FloatFormat.nearer (k : FloatFormat) (rnd : Nat) (x : Exact) (r y : Nat) : Bool :=
  let u := k.units r
  let v := k.units y
  let up := x.atMost u 1 && (!x.atMost v 1 || u ≤ v)
  let down := x.atLeast u 1 && (!x.atLeast v 1 || v ≤ u)
  match rnd with
  | 0 =>
    u = v || ((if u < v then x.atMost (u + v) 2 else x.atLeast (u + v) 2)
      && (!(x.atMost (u + v) 2 && x.atLeast (u + v) 2) || r % 2 = 0))
  | 1 => if x.atLeast 0 1 then down else up
  | 2 => up
  | _ => down

/-- Is `r` the exact number `x`, in the units of the format, rounded once by RND (05 R120, R121)? -/
def FloatFormat.Rounds (k : FloatFormat) (rnd : Nat) (x : Exact) (r : Nat) : Prop :=
  if k.toInf rnd x false then r = k.inf false
  else if k.toInf rnd x true then r = k.inf true
  else k.finite r = true ∧ (∀ y, k.finite y = true → k.nearer rnd x r y = true)
    ∧ (x.atLeast 0 1 = false → k.neg r = true) ∧ (x.atMost 0 1 = false → k.neg r = false)

/-- Is the integer `n` the number p / q rounded by RND (03 R79)? -/
def wholeOf (rnd : Nat) (p : Int) (q : Nat) (n : Int) : Prop :=
  let up := p ≤ n * q ∧ (n - 1) * q < p
  let down := n * q ≤ p ∧ p < (n + 1) * q
  match rnd with
  | 0 => 2 * (p - n * q).natAbs ≤ q ∧ (2 * (p - n * q).natAbs = q → n % 2 = 0)
  | 1 => if 0 ≤ p then down else up
  | 2 => up
  | _ => down

/-- A non-zero result is delivered: the exact number rounded once, with the flags of R121. OF is raised where the number rounded
without a bound on its exponent passes the largest, NX where the result is not exact, and UF where it is tiny and inexact. -/
structure FloatFormat.Delivers (k : FloatFormat) (rnd : Nat) (x : Exact) (out : Nat × Flags) : Prop where
  value : k.Rounds rnd x out.1
  nv : out.2.getLsbD 4 = false
  dz : out.2.getLsbD 3 = false
  overflow : out.2.getLsbD 2 = true ↔
    let lim := k.units (k.largest false) + ((2 ^ (2 ^ k.ebits - 3) : Nat) : Int)
    k.toInf rnd x false = true ∨ k.toInf rnd x true = true
      ∨ (x.atLeast lim 1 = true ∧ rnd ≠ 0) ∨ (x.atMost (-lim) 1 = true ∧ rnd ≠ 0)
  inexact : out.2.getLsbD 0 = true ↔
    ¬ (k.finite out.1 = true ∧ x.atLeast (k.units out.1) 1 = true ∧ x.atMost (k.units out.1) 1 = true)
  underflow : out.2.getLsbD 1 = true →
    out.2.getLsbD 0 = true ∧ k.finite out.1 = true ∧ (k.units out.1).natAbs ≤ 2 ^ k.fbits
  tiny : k.finite out.1 = true → (k.units out.1).natAbs < 2 ^ k.fbits → out.2.getLsbD 0 = true → out.2.getLsbD 1 = true

/-- The integer instructions of the vector engine with the value of one lane (08 R196-R199). -/
def integerTable : List (Op × (LongFields → DWord → DWord → DWord → DWord)) :=
  [(.iadd, vecAdd), (.isub, vecSub), (.imul, vecMul), (.imad, vecMad), (.imin, vecMin), (.imax, vecMax),
   (.iabs, vecAbs), (.ineg, vecNeg), (.iclamp, vecIclamp), (.dot4, vecDot4), (.isad, vecIsad),
   (.and, fun _ a b _ => a &&& b), (.or, fun _ a b _ => a ||| b), (.xor, fun _ a b _ => a ^^^ b),
   (.not, fun _ a _ _ => ~~~a), (.shl, vecShl), (.shr, vecShr), (.sar, vecSar), (.rot, vecRot), (.bfe, vecBfe),
   (.bfi, vecBfi), (.popc, vecPopc), (.clz, vecClz), (.brev, vecBrev), (.bperm, vecBperm), (.bool3, vecBool3)]

/-- The floating-point instructions of the vector engine with the value and the flags of one lane (08 R202-R209). -/
def floatTable : List (Op × (LongFields → DWord → DWord → DWord → DWord × Flags)) :=
  [(.fadd, vecFadd), (.fsub, vecFsub), (.fmul, vecFmul), (.ffma, vecFfma), (.fmin, vecFmin), (.fmax, vecFmax),
   (.frcp, vecFrcp), (.frsq, vecFrsq), (.fsqrt, vecFsqrt), (.fdiv, vecFdiv), (.fexp2, vecSpecial .exp2),
   (.flog2, vecSpecial .log2), (.fsin, vecSpecial .sin), (.fcos, vecSpecial .cos), (.frnd, vecFrnd),
   (.fscale, vecFscale), (.cvt, vecCvt), (.cvtt, vecCvtt), (.hadd2, vecHadd2), (.hmul2, vecHmul2),
   (.hfma2, vecHfma2), (.hmin2, vecHmin2), (.hmax2, vecHmax2), (.dot2, vecDot2), (.fclamp, vecFclamp),
   (.fclass, fun f a b c => (vecFclass f a b c, 0)), (.fabs, fun f a b c => (vecFabs f a b c, 0)),
   (.fneg, fun f a b c => (vecFneg f a b c, 0))]

/-- The moves, the exchanges, foot and the predicate-free results of the operand engine: the value of a lane of the result
(07 R181-R184, R186). -/
def exchangeTable : List (Op × (LongFields → Issue → Nat → DWord)) :=
  [(.mov, fun f x l => laneVal x.a (x.operandLane f l)), (.movx, fun f x l => laneVal x.a (x.operandLane f l)),
   (.movxw, fun f x l => laneVal x.a (x.operandLane f l)), (.movw, fun _ x l => laneVal x.a l),
   (.xshf, fun f x l => x.xshf f.sub l), (.xrot, fun _ x l => laneVal x.a ((l + x.laneB l) % 32)),
   (.xread, fun _ x _ => laneVal x.a (x.laneB 0)), (.xfirst, fun f x _ => x.xfirst f.sub),
   (.xmatch, fun _ x l => x.xmatch l), (.xbal, fun f x _ => x.xbal f.sub), (.xwrite, fun _ x l => laneVal x.a l),
   (.foot, fun _ x _ => (x.s.footValue x.s.issuing).setWidth 64),
   (.sel, fun f x l =>
      if (x.s.self.pred f.pd).lane (x.operandLane f l) then laneVal x.a (x.operandLane f l)
      else laneVal x.b (x.operandLane f l))]

end Machine
end Sys2Proof
end

