-- ==== Sys2Proof/Certificates/Slice0/Obligations.lean ====
section
/-! DEFINITION. The claims about the machine, one definition each. -/

open Sys2Proof Sys2Proof.Machine

/-! ### The whole machine -/

/-- Decode of encode is the identity: every well-formed instruction that has an encoding, with every operand,
modifier, mark and literal that it can have. -/
def Obligations.DecodeOfEncode : Prop :=
  ∀ i : Instr, i.wellFormed = true → encode i ≠ [] → decode 9 (encode i) = .ok i

/-- Every step keeps the canonical form of device memory and of every function's half of host memory. -/
def Obligations.EveryStepKeepsMemoryCanonical : Prop :=
  ∀ s t : State, s.memoryCanonical = true → step s = .next t → t.memoryCanonical = true

/-- A turn of a barrel slot fetches the words at the group's PC, and where they decode to an instruction that may
issue, the step is `exec` of that instruction for that group, then what ends the turn, and then the grants to
ready groups. Words with an opcode that is not assigned run ILLEGAL_INSTRUCTION in the same way. The turn is that of
the first sub-core in the order of the core's cycle: the order is there already, or it is made as the core's turn
comes (`b` is the state with it). -/
def Obligations.StepRunsTheDecodedInstruction : Prop :=
  ∀ (s b s' : State) (core slot sub : Nat) (more : List Nat) (ws : List Word),
    let r : GroupRef := ⟨core, slot⟩
    let s0 := b.settle r
    let s1 := s'.modGroup r (fun g => { g with ir := ws })
    let rest := fun (x : Host.Outcome State Fault Refusal) =>
      andThen (andThen x (fun t => t.afterTurn r (b.group r))) (fun t =>
        .next { t.modCore core (fun k => k.grant t.cycle sub (some (b.cycle % 4))) with
          order := more, cursor := if more = [] then core + 1 else core })
    s.awake = true → s.turn = .sub →
    ((s.order = sub :: more ∧ s.cursor = core ∧ b = s)
      ∨ (s.order = [] ∧ s.coreFrom s.cursor = some core ∧ s.arbitrate core = (b, sub :: more))) →
    b.isGated core = false → (b.core core).barrel.getD (4 * sub + b.cycle % 4) none = some slot →
    (s0.group r).holdUntil ≤ s0.cycle → (s0.group r).owed = 0 → s0.fetch r false = (s', ws, none) →
    (∀ (op : Op) (form : Form) (i : Instr), parse (s1.attrs r).decode ws = .ok (op, form) → op.build form = some i →
      s1.turnKind r op (formFields op form) = .issue → step s = rest (exec i { s1 with issuing := r }))
    ∧ ((parse (s1.attrs r).decode ws = .error .neverAssigned ∨ parse (s1.attrs r).decode ws = .error .laterLevel) →
      step s = rest (exec (.illegalInstruction ws) { s1 with issuing := r }))

/-- Every instruction and every step of the device answers a next state, in every state; and a step of the machine
does so unless power has been removed from every die and no cold start is due (R453), which is the one fault
there is. R266-R278, R429-R434, R439-R454: and the events of the module, of the
contexts, of translation and of the links have their effects; what else each of them does and leaves is stated
apart. The model's choices in these clauses: the numbers that an error event gives registers (log entry 57); that a
host access reaches every device address with memory, where R429 gives 2 TiB (log entry 18); that a start reads its
image where MBOX points, in the host's memory, and that the vendor key comes with the start (log entry 74); that a
context being released takes no core (log entry 86). -/
def Obligations.EveryInstructionAnswersANextState : Prop :=
  (
  (∀ (i : Instr) (s : State), ∃ t, exec i s = .next t)
    ∧ (∀ s : State, s.security.powered = true → ∃ t, step s = .next t)
    ∧ (∀ s : State, s.security.powered = false →
        (∀ i ∈ s.agenda, ∀ inp, i ≠ .coldStart inp) → step s = .fault .unpowered))
  ∧ (∀ (s : State) (inp : StartInput) (val : DWord), let y := s.security
    let n := 16 + s.imageField 8 + s.imageField 12
    let good := fun m digest => s.imageField 0 = 0x4D575A47 ∧ m ≤ s.imageField 4 ∧ sha3 inp.vendorKey = digest
      ∧ mlDsaVerify inp.vendorKey (s.startImage 0 n) (s.startImage n 4627) = true
    (inp.trained = true → inp.selfTest = true → good inp.minSvn inp.vendorDigest →
      ∃ t, exec (.coldStart inp) s = .next t ∧ t.security.state = .starting ∧ t.security.warm = false ∧ t.cycle = 0)
    ∧ (y.powered = true → y.state ≠ .safe → good y.minSvn y.vendorDigest →
      ∃ t, exec (.warmStart inp) s = .next t ∧ t.security.state = .starting ∧ t.security.warm = true)
    ∧ (y.started = true → (∃ t, exec .startFailure s = .next t ∧ t.security.fails = min 3 (y.fails + 1))
      ∧ ∃ t, exec .ready s = .next t ∧ t.security.state = .running ∧ t.security.fails = 0)
    ∧ (y.state ≠ .safe → ∃ t, exec (.mboxWrite val inp) s = .next t ∧ t.security.mbox = val)
    ∧ (y.powered = true → ∃ t, exec .thermalTrip s = .next t ∧ t.security.powered = false)
    ∧ (∀ cmd : Word, cmd.toNat.testBit 8 = true → cmd.toNat % 8 = 5 → y.meas.length = 8 →
      ∃ t, exec (.measExtend cmd) s = .next t
        ∧ t.security.meas.getD 5 0 = sha3 (bytes512 (y.meas.getD 5 0) ++ bytes512 y.extData))
    ∧ (let a := val.toNat / 2 ^ 8 % 2 ^ 40 * 256
      val.getLsbD 0 = true → (∀ j < 0x1500, placeOf (a + j) = .mem (a + j)) → Memory.wf s.mem = true →
      ∃ t, exec (.attestationReport val) s = .next t ∧ Memory.readNum t.mem a 4 = 0x54415A47)
    ∧ (∀ (event : BitVec 16) (tug : Bool), 0x100 ≤ event.toNat → event.toNat ≤ 0x1FF →
      ∃ t, exec (.auditAppend event tug) s = .next t
        ∧ t.security.appends = y.appends ++ [(event.toNat, tug, y.append)])
    ∧ (∀ e, y.unspilled ≠ 0 → 9 ≤ y.spillM → y.spillM ≤ 24 → y.ring.find? (fun x => x.seq = y.nextSeq - y.unspilled) = some e →
      y.lostDue = 0 → ∃ t, exec .auditSpill s = .next t ∧ t.security.unspilled = y.unspilled - 1))
  ∧ (∀ (s : State) (ctx : Fin 64) (core : Fin 384) (va val : DWord), let c := s.context ctx
    let k := s.core core
    let free := s.security.releasing = none
    (free → c.valid = false → c.root ≠ 0 → c.func ≤ 64 → s.funcTaken ctx c.func = false →
      ∃ t, exec (.ctxCreate ctx) s = .next t ∧ (t.context ctx).valid = true)
    ∧ (free → c.valid = true → s.hasTeam ctx = false → s.hasMappedQueue ctx = false → c.debugger = false →
      (s.cores.map (·.1)).Nodup → s.scrubWaits ctx = false → (∀ e ∈ s.cores, s.isGated e.1 = false) → ∃ t, exec (.ctxRelease ctx) s = .next t ∧ t.context ctx = Context.cold)
    ∧ (val.toNat / 2 ^ 7 % 2 = 1 → val.toNat % 64 = ctx.val → k.scrubDue = none → k.occupied = false → c.valid = true →
      s.security.releasing ≠ some ctx.val → k.fenced = false → k.clean = true → ∃ t, exec (.corectxWrite core val) s = .next t ∧ (t.core core).ctx = some ctx.val)
    ∧ (let v := va.toNat % 2 ^ 56
      let w := walkChecked s.mem v 3 c.root
      c.valid = true → va.toNat / 2 ^ 56 = 0xFF → c.remoteOf va.toNat = none → w.result = .leaf →
      w.entry.testBit 2 = true → Memory.wf s.mem = true →
      ∃ t, exec (.pageWalkComplete core ctx va) s = .next t ∧ (t.core core).tlb = tlbEntryOf s.mem ctx w v :: k.tlb)
    ∧ (∀ h : HostRequest, c.hostRequests.find? (fun x => x.page = va) = some h → h.queues = [] → h.groups.Nodup →
      (∀ r ∈ h.groups, (s.group r).status = .hostHeld va ∧ (s.group? r).isSome = true) →
      ∀ i ∈ [Instr.hostPageResponse ctx va true, .priResponse ctx va true],
        ∃ t, exec i s = .next t ∧ ∀ r ∈ h.groups, (t.group r).status = .running)
    ∧ (c.valid = true → va.msb = false → s.queuesOf ctx = [] → ∀ r w : Bool, r = true ∨ w = true →
      ∃ t, exec (.atsCompletion ctx va r w) s = .next t ∧ (t.context ctx).ats.head? = some ⟨pageOf va, c.func, r, w⟩)
    ∧ (∃ t, exec (.atsInvalidateRequest ctx va) s = .next t ∧ ∀ x ∈ (t.context ctx).ats, x.page ≠ pageOf va)
    ∧ (∀ (id : Nat) (x : Shootdown), s.shootdowns.find? (fun y => y.id = id) = some x → x.packet = none →
      ∃ t, exec (.shootdownComplete id) s = .next t ∧ t.shootdowns = s.shootdowns.filter (fun y => y.id ≠ id))
    ∧ (∀ v : Word, (v - c.poolHead).toNat ≤ c.poolSize.toNat →
      ∃ t, exec (.pooltailWrite ctx v) s = .next t ∧ (t.context ctx).poolTail = v))
  ∧ (∀ (s : State) (addr : BitVec 48) (w : BitVec 128), (∀ j < 8, placeOf (addr.toNat + j) = .mem (addr.toNat + j)) →
    Memory.wf s.mem = true → ∃ t, exec (.hostBar2Access addr (.write 8 w)) s = .next t
      ∧ Memory.readNum t.mem addr.toNat 8 = w.toNat % 2 ^ 64)
  ∧ (∀ (s u : State) (ctx : Fin 64) (va v : DWord) (pa : Nat), (s.context ctx).valid = true →
    s.spotsAt true ctx .atomic va 8 = .ok ((List.range 8).map (fun j => Spot.device (.mem (pa + j)))) →
    u = (chunksOf va 8).foldl (fun y c => y.markDirtyHere ctx c.1) s → Memory.wf u.mem = true →
    ∃ t, exec (.remoteAccess ctx va (.swap 8 v)) s = .next t ∧ Memory.readNum t.mem pa 8 = v.toNat)
  ∧ (∀ (s : State) (link : Fin 18) (peer : BitVec 16) (v : DWord),
    (s.links.up.length = 18 → (∃ t, exec (.linkUp link peer) s = .next t ∧ t.links.up.getD link false = true)
      ∧ ∃ t, exec (.linkDown link) s = .next t ∧ t.links.up.getD link false = false)
    ∧ (s.security.state ≠ .safe → ∃ t, exec (.registerWrite 0x0FF000030000 2 v) s = .next t ∧ t.links.modId = v.setWidth 16))
  ∧ (∀ (s : State) (r : GroupRef) (n : Nat), n < 256 → (s.group? r).isSome = true → (s.group r).isPending (.v n) = false →
    ∃ t, exec (.uncorrectableError (.register r n)) s = .next t ∧ .v n ∈ (t.group r).poison)

/-! ### The vector engine, control and memory -/

/-- The integer instructions of the vector engine (R190, R196-R199), short and long, complete: iadd, isub, imul,
imad, imin, imax, iabs, ineg, iclamp, dot4, isad, and, or, xor, not, shl, shr, sar, rot, bfe, bfi, popc, clz,
brev, bperm and bool3. Each writes its value of the operands of a lane to that lane of D, in the cycle that
its class gives, and changes no flag, predicate, mask or other register. The values of R196-R199 on W bits, W
being 32 or 64: the exact result of R196, read by the signedness of the type, wraps modulo 2^W, or under SAT is
held to the range of the type, signed or not; the high half of a product; the 64-bit products of the wide forms;
the byte sums of dot4 and isad; and of the bit instructions every bit, or the number, that R198 and R199 give. -/
def Obligations.IntegerInstructionsComplete : Prop :=
  (
  ∀ (op : Op) (val : LongFields → DWord → DWord → DWord → DWord), (op, val) ∈ integerTable →
    ∀ (i : Instr) (f : LongFields) (s : State) (x : Issue), i.Has op f → s.Ready op f x →
      ∃ t, exec i s = .next t
        ∧ x.Delivers op f (fun k l =>
            let j := x.operandLane f l
            wordPart (val f (laneVal x.a j) (laneVal x.b j) (laneVal x.c j)) k) t
        ∧ x.SameMasks t ∧ (∀ l < 32, t.self.fpst.at' l = x.s.self.fpst.at' l)
        ∧ s.SameMemory t ∧ x.s.SameWindows t)
  ∧ (
  ∀ (f : LongFields) (a b c : DWord) (w : Nat), typeBits f.ty = w → (w = 32 ∨ w = 64) → a.toNat < 2 ^ w →
    let int := fun (n : Nat) (signed : Bool) (x : DWord) =>
      if signed then (BitVec.ofNat n x.toNat).toInt else ((x.toNat % 2 ^ n : Nat) : Int)
    let held := fun (n : Nat) (signed : Bool) (e : Int) =>
      let lo : Int := if signed then -((2 ^ (n - 1) : Nat) : Int) else 0
      let hi : Int := if signed then ((2 ^ (n - 1) : Nat) : Int) - 1 else ((2 ^ n : Nat) : Int) - 1
      ((if f.sat then max lo (min hi e) else e) % ((2 ^ n : Nat) : Int)).toNat
    let low := fun (n : Nat) (e : Int) => (e % ((2 ^ n : Nat) : Int)).toNat
    let sg := typeSigned f.ty
    let A := int w sg a
    let B := int w sg b
    let C := int w sg c
    (vecAdd f a b c).toNat = held w sg (A + B)
    ∧ (vecSub f a b c).toNat = held w sg (A - B)
    ∧ (vecMin f a b c).toNat = low w (if A ≤ B then A else B)
    ∧ (vecMax f a b c).toNat = low w (if A ≤ B then B else A)
    ∧ (vecAbs f a b c).toNat = held w sg (if A < 0 then -A else A)
    ∧ (vecNeg f a b c).toNat = held w sg (-A)
    ∧ (vecIclamp f a b c).toNat = low w (if C < (if A ≤ B then B else A) then C else if A ≤ B then B else A)
    ∧ (f.sub = 0 → (vecMul f a b c).toNat = held w sg (A * B) ∧ (vecMad f a b c).toNat = held w sg (A * B + C))
    ∧ (f.sub = 1 → (vecMul f a b c).toNat = low w (A * B / ((2 ^ w : Nat) : Int)))
    ∧ (f.sub = 2 → (vecMul f a b c).toNat = low 64 (A * B)
        ∧ (vecMad f a b c).toNat = held 64 sg (A * B + int 64 sg c))
    ∧ (f.ty ≠ 8 → (vecIsad f a b c).toNat = held w sg (C + (if A ≤ B then B - A else A - B)))
    ∧ (let n := b.toNat % 2 ^ 32
       (vecShl f a b c).toNat % 2 ^ w = (if w ≤ n then 0 else a.toNat * 2 ^ n % 2 ^ w)
        ∧ (vecShr f a b c).toNat = (if w ≤ n then 0 else a.toNat / 2 ^ n)
        ∧ (vecSar f a b c).toNat = low w (if w ≤ n then (if int w true a < 0 then -1 else 0)
            else int w true a / ((2 ^ n : Nat) : Int))
        ∧ ∀ i < w, (vecRot f a b c).getLsbD ((i + n) % w) = a.getLsbD i)
    ∧ (let pos := min (b.toNat % 256) w
       let len := min (b.toNat / 256 % 256) (w - pos)
       let field := a.toNat / 2 ^ pos % 2 ^ len
       (vecBfe f a b c).toNat = (if sg = true ∧ len ≠ 0 then low w (BitVec.ofNat len field).toInt else field)
        ∧ ∀ i < w, (vecBfi f a b c).getLsbD i = if pos ≤ i ∧ i < pos + len then a.getLsbD (i - pos) else c.getLsbD i)
    ∧ (vecPopc f a b c).toNat = ((List.range w).filter a.getLsbD).length
    ∧ (a = 0 → (vecClz f a b c).toNat = w)
    ∧ (∀ n, n < w → 2 ^ n ≤ a.toNat → a.toNat < 2 ^ (n + 1) → (vecClz f a b c).toNat = w - 1 - n)
    ∧ (∀ i < w, (vecBrev f a b c).getLsbD i = a.getLsbD (w - 1 - i))
    ∧ (∀ i < 64, (vecBool3 f a b c).getLsbD i =
        f.ext.getLsbD (4 * (a.getLsbD i).toNat + 2 * (b.getLsbD i).toNat + (c.getLsbD i).toNat)))
  ∧ (
  ∀ (f : LongFields) (a b c : DWord),
    let held := fun (signed : Bool) (e : Int) =>
      let lo : Int := if signed then -0x80000000 else 0
      let hi : Int := if signed then 0x7FFFFFFF else 0xFFFFFFFF
      ((if f.sat then max lo (min hi e) else e) % 0x100000000).toNat
    let byte := fun (x : DWord) (k : Nat) => x.toNat / 256 ^ k % 256
    let sum := fun (g : Nat → Int) => g 0 + g 1 + g 2 + g 3
    let unsigned : Int := (c.toNat % 2 ^ 32 : Nat)
    (f.ty = 8 → (vecIsad f a b c).toNat = held false (unsigned + sum (fun k =>
        if byte a k ≤ byte b k then ((byte b k - byte a k : Nat) : Int) else ((byte a k - byte b k : Nat) : Int))))
    ∧ (f.ty = 8 → (vecDot4 f a b c).toNat = held false (unsigned + sum (fun k => ((byte a k * byte b k : Nat) : Int))))
    ∧ (f.ty = 0 ∨ f.ty = 7 → (vecDot4 f a b c).toNat = held true ((BitVec.ofNat 32 c.toNat).toInt
        + sum (fun k => (BitVec.ofNat 8 (byte a k)).toInt * (BitVec.ofNat 8 (byte b k)).toInt)))
    ∧ ∀ k < 4, byte (vecBperm f a b c) k =
        (let n := c.toNat / 16 ^ k % 16
         let x := if n % 8 < 4 then byte a (n % 4) else byte b (n % 4)
         if n < 8 then x else if 128 ≤ x then 255 else 0))

/-- The floating-point instructions of the vector engine (R129, R190, R202-R209), short and long, complete: fadd,
fsub, fmul, ffma, fmin, fmax, frcp, frsq, fsqrt, fdiv, fexp2, flog2, fsin, fcos, frnd, fscale, cvt, cvtt,
hadd2, hmul2, hfma2, hmin2, hmax2, dot2, fclamp, fclass, fabs and fneg. Each writes its value to the lanes of
D and ORs its flags into sr.fpst of the active lanes, and changes nothing else. The values (R115, R120, R121, R202,
R203, R205, R207-R209), in f32, f64, f16 and bf16, by numbers counted in smallest subnormals: the exact result of
finite operands is rounded once by RND, with the overflow of R121 and its flags; an exact zero has the sign of R121;
a NaN operand gives the canonical NaN, with NV for a signalling one, and so do 0 × ∞, ∞ − ∞, 0 / 0, ∞ / ∞ and the
root of a number below −0; a non-zero number / 0 is ∞ with DZ; the halves of the packed forms are computed apart.
fmin and fmax order −0 below +0 and pass a NaN over; frnd is the integral value, fscale A × 2^B; conversions are
rounded, saturated or exact as R120 says; and the special operands give the results of R205's table. The f32 special
functions of other operands are left to R205's bounds, which this does not state. That f16 to bf16 is rounded where
bits are lost is the model's choice (log entry 94). -/
def Obligations.FloatInstructionsComplete : Prop :=
  (
  ∀ (op : Op) (val : LongFields → DWord → DWord → DWord → DWord × Flags), (op, val) ∈ floatTable →
    ∀ (i : Instr) (f : LongFields) (s : State) (x : Issue), i.Has op f → s.Ready op f x →
      let out := fun l =>
        let j := x.operandLane f l
        val f (laneVal x.a j) (laneVal x.b j) (laneVal x.c j)
      ∃ t, exec i s = .next t ∧ x.Delivers op f (fun k l => wordPart (out l).1 k) t
        ∧ x.FlagsOred (fun l => (out l).2) t ∧ x.SameMasks t ∧ s.SameMemory t ∧ x.s.SameWindows t)
  ∧ (∀ (k : FloatFormat) (rnd a b c : Nat), k ∈ [f32Format, ⟨11, 52⟩, ⟨5, 10⟩, ⟨8, 7⟩] → rnd < 4 →
    a < 2 * k.signBit → b < 2 * k.signBit → c < 2 * k.signBit →
    let A := k.units a
    let B := k.units b
    let C := k.units c
    let na := k.neg a
    let nb := k.neg b
    let fin := fun x => k.finite x = true
    let infinite := fun x => x = k.inf false ∨ x = k.inf true
    let zero := fun (neg : Bool) => ((if neg then k.signBit else 0, 0) : Nat × Flags)
    let none_ : Nat × Flags := (k.nan, flagNV)
    let down : Bool := rnd = 3
    (k.isNaN a = true ∨ k.isNaN b = true → let f : Flags := if k.signals a || k.signals b then flagNV else 0
      (∀ out ∈ [k.add rnd a b, k.sub rnd a b, k.mul rnd a b, k.div rnd a b], out = (k.nan, f))
        ∧ (k.fma rnd a b c).1 = k.nan
        ∧ ∀ big, k.minMax big a b = (if k.isNaN a && k.isNaN b then k.nan else if k.isNaN a then b else a, f))
    ∧ (k.isNaN a = true → let f : Flags := if k.signals a then flagNV else 0
      (∀ out ∈ [k.sqrt rnd a, k.recip rnd a, k.rsqrt rnd a, k.toIntegral rnd a, k.scale rnd a 0], out = (k.nan, f)))
    ∧ (k.isNaN c = true → (k.fma rnd a b c).1 = k.nan)
    ∧ (k.isNaN a = false → k.isNaN b = false →
      k.minMax false a b = (if k.place a ≤ k.place b then a else b, 0)
        ∧ k.minMax true a b = (if k.place a ≤ k.place b then b else a, 0))
    ∧ (fin a → fin b →
      (A + B ≠ 0 → k.Delivers rnd (.ratio (A + B) 1) (k.add rnd a b))
      ∧ (A + B = 0 → k.add rnd a b = zero (if na = nb then na else down))
      ∧ (A - B ≠ 0 → k.Delivers rnd (.ratio (A - B) 1) (k.sub rnd a b))
      ∧ (A - B = 0 → k.sub rnd a b = zero (if na ≠ nb then na else down))
      ∧ (A * B ≠ 0 → k.Delivers rnd (.ratio (A * B) k.one) (k.mul rnd a b))
      ∧ (A * B = 0 → k.mul rnd a b = zero (na != nb))
      ∧ (A ≠ 0 → B ≠ 0 → k.Delivers rnd (.ratio (if B < 0 then -(A * k.one) else A * k.one) B.natAbs) (k.div rnd a b))
      ∧ (A = 0 → B ≠ 0 → k.div rnd a b = zero (na != nb))
      ∧ (A ≠ 0 → B = 0 → k.div rnd a b = (k.inf (na != nb), flagDZ))
      ∧ (A = 0 → B = 0 → k.div rnd a b = none_)
      ∧ (fin c → let e := A * B + C * k.one
        (e ≠ 0 → k.Delivers rnd (.ratio e k.one) (k.fma rnd a b c))
          ∧ (e = 0 → k.fma rnd a b c = zero (if (na != nb) = k.neg c then k.neg c else down))))
    ∧ (infinite a → fin b →
      k.add rnd a b = (a, 0) ∧ k.sub rnd a b = (a, 0) ∧ k.div rnd a b = (k.inf (na != nb), 0)
        ∧ k.mul rnd a b = if B = 0 then none_ else (k.inf (na != nb), 0))
    ∧ (fin a → infinite b →
      k.add rnd a b = (b, 0) ∧ k.sub rnd a b = (k.inf (!nb), 0) ∧ k.div rnd a b = zero (na != nb)
        ∧ k.mul rnd a b = if A = 0 then none_ else (k.inf (na != nb), 0))
    ∧ (infinite a → infinite b →
      k.add rnd a b = (if na = nb then (a, 0) else none_) ∧ k.sub rnd a b = (if na ≠ nb then (a, 0) else none_)
        ∧ k.div rnd a b = none_ ∧ k.mul rnd a b = (k.inf (na != nb), 0))
    ∧ ((infinite a ∧ fin b ∧ B = 0) ∨ (fin a ∧ A = 0 ∧ infinite b) → k.fma rnd a b c = none_)
    ∧ (fin a →
      (0 < A → k.Delivers rnd (.root (A.toNat * k.one) 1) (k.sqrt rnd a)
        ∧ k.Delivers rnd (.root (k.one ^ 3) A.toNat) (k.rsqrt rnd a))
      ∧ (A = 0 → k.sqrt rnd a = (a, 0) ∧ k.rsqrt rnd a = (k.inf na, flagDZ) ∧ k.recip rnd a = (k.inf na, flagDZ))
      ∧ (A < 0 → k.sqrt rnd a = none_ ∧ k.rsqrt rnd a = none_)
      ∧ (A ≠ 0 → k.Delivers rnd (.ratio (if A < 0 then -((k.one * k.one : Nat) : Int) else (k.one * k.one : Nat)) A.natAbs)
          (k.recip rnd a))
      ∧ (∀ n : Int, k.ebits ≠ 5 → wholeOf rnd A k.one n → let r := k.toIntegral rnd a
        k.finite r.1 = true ∧ k.units r.1 = n * k.one ∧ k.neg r.1 = na ∧ r.2 = if n * k.one = A then 0 else flagNX)
      ∧ (∀ n : Int, A ≠ 0 → k.Delivers rnd (.ratio (A * ((2 ^ n.toNat : Nat) : Int)) (2 ^ (-n).toNat)) (k.scale rnd a n))
      ∧ (∀ n : Int, A = 0 → k.scale rnd a n = (a, 0))))
  ∧ (∀ (f : LongFields) (a b c : DWord),
    let num := fun (x : DWord × Flags) => (x.1.toNat, x.2)
    let k := floatFormat f.ty
    let x := a.toNat
    let y := b.toNat
    let z := c.toNat
    (num (vecFadd f a b c) = k.add f.rnd x y ∧ num (vecFsub f a b c) = k.sub f.rnd x y
      ∧ num (vecFmul f a b c) = k.mul f.rnd x y ∧ num (vecFfma f a b c) = k.fma f.rnd x y z
      ∧ num (vecFdiv f a b c) = k.div f.rnd x y ∧ num (vecFsqrt f a b c) = k.sqrt f.rnd x
      ∧ num (vecFrnd f a b c) = k.toIntegral f.rnd x
      ∧ num (vecFscale f a b c) = k.scale f.rnd x (BitVec.ofNat 32 y).toInt
      ∧ num (vecFmin f a b c) = k.minMax false x y ∧ num (vecFmax f a b c) = k.minMax true x y
      ∧ num (vecFclamp f a b c) =
          ((k.minMax false (k.minMax true x y).1 z).1, (k.minMax true x y).2 ||| (k.minMax false (k.minMax true x y).1 z).2)
      ∧ (vecFabs f a b c).toNat = x % k.signBit
      ∧ (vecFneg f a b c).toNat = (if k.neg x then x % k.signBit else x % k.signBit + k.signBit)
      ∧ (f.ty = 10 → num (vecFrcp f a b c) = k.recip f.rnd x ∧ num (vecFrsq f a b c) = k.rsqrt f.rnd x))
    ∧ (let h := packedFormat f.ty
       ∀ (v : DWord × Flags) (g : Nat → Nat → Nat → Nat × Flags),
         (v, g) ∈ [(vecHadd2 f a b c, fun x y _ => h.add f.rnd x y), (vecHmul2 f a b c, fun x y _ => h.mul f.rnd x y),
           (vecHfma2 f a b c, fun x y z => h.fma f.rnd x y z), (vecHmin2 f a b c, fun x y _ => h.minMax false x y),
           (vecHmax2 f a b c, fun x y _ => h.minMax true x y)] →
         let lo := g (x % 2 ^ 16) (y % 2 ^ 16) (z % 2 ^ 16)
         let hi := g (x / 2 ^ 16 % 2 ^ 16) (y / 2 ^ 16 % 2 ^ 16) (z / 2 ^ 16 % 2 ^ 16)
         v.1.toNat = lo.1 + 2 ^ 16 * hi.1 ∧ v.2 = lo.2 ||| hi.2)
    ∧ (let h := floatFormat (if f.ty = 11 then 11 else 12)
       let u := fun (n i : Nat) => h.units (n / 2 ^ (16 * i) % 2 ^ 16)
       let ok := fun (n i : Nat) => h.finite (n / 2 ^ (16 * i) % 2 ^ 16) = true
       let e := (u x 0 * u y 0 + u x 1 * u y 1) * f32Format.one + f32Format.units z * (h.one * h.one : Nat)
       ok x 0 → ok x 1 → ok y 0 → ok y 1 → f32Format.finite z = true → e ≠ 0 →
         f32Format.Delivers f.rnd (.ratio e (h.one * h.one)) (num (vecDot2 f a b c)))
    ∧ (let src := floatFormat f.sub
       let v := x % (2 * src.signBit)
       let A := src.units v
       let isFloat := fun t => t ∈ [0, 9, 10, 11, 12]
       let isInt := fun t => t ∈ [1, 2, 3, 4, 5, 6, 7, 8]
       let lo : Int := if typeSigned f.ty then -((2 ^ (typeBits f.ty - 1) : Nat) : Int) else 0
       let hi : Int := if typeSigned f.ty then ((2 ^ (typeBits f.ty - 1) : Nat) : Int) - 1
         else ((2 ^ typeBits f.ty : Nat) : Int) - 1
       let gives := fun (out : DWord × Flags) (n : Int) (flags : Flags) =>
         out.1.toNat = (n % ((2 ^ max 32 (typeBits f.ty) : Nat) : Int)).toNat ∧ out.2 = flags
       let whole := fun (rnd : Nat) (out : DWord × Flags) =>
         (src.isNaN v = true → gives out 0 flagNV) ∧ (v = src.inf false → gives out hi flagNV)
          ∧ (v = src.inf true → gives out lo flagNV)
          ∧ (src.finite v = true → ∀ n : Int, wholeOf rnd A src.one n →
              if n < lo then gives out lo flagNV else if hi < n then gives out hi flagNV
              else gives out n (if n * src.one = A then 0 else flagNX))
       let N : Int := if typeSigned f.sub then (BitVec.ofNat (typeBits f.sub) x).toInt
         else ((x % 2 ^ typeBits f.sub : Nat) : Int)
       (isFloat f.sub → isFloat f.ty → let out := num (vecCvt f a b c)
          (src.isNaN v = true → out = (k.nan, if src.signals v then flagNV else 0))
          ∧ (∀ neg, v = src.inf neg → out = (k.inf neg, 0))
          ∧ (src.finite v = true → A = 0 → out = (k.zero (src.neg v), 0))
          ∧ (src.finite v = true → A ≠ 0 → k.Delivers 0 (.ratio (A * k.one) src.one) out))
        ∧ (isFloat f.sub → isInt f.ty → whole 0 (vecCvt f a b c))
        ∧ (isFloat f.sub → isInt f.ty ∨ f.ty = 0 → whole 1 (vecCvtt f a b c))
        ∧ (isInt f.sub → isFloat f.ty → let out := num (vecCvt f a b c)
          (N = 0 → out = (0, 0)) ∧ (N ≠ 0 → k.Delivers 0 (.ratio (N * k.one) 1) out))
        ∧ (isInt f.sub → isInt f.ty →
            if f.sat then gives (vecCvt f a b c) (max lo (min hi N)) 0
            else gives (vecCvt f a b c) (if typeSigned f.ty then (BitVec.ofInt (typeBits f.ty) N).toInt
              else N % ((2 ^ typeBits f.ty : Nat) : Int)) 0))
    ∧ (f.ty ≠ 10 → let w := x % 2 ^ 32
       let out := fun (g : Special) => num (vecSpecial g f a b c)
       let invalid : Nat × Flags := (0x7FC00000, flagNV)
       let at_ := fun (bits : Nat) (rs : List (Special × Nat × Flags)) => w = bits → ∀ r ∈ rs, out r.1 = r.2
       (f32Format.isNaN w = true → ∀ g, out g = (0x7FC00000, if f32Format.signals w then flagNV else 0))
        ∧ at_ 0 [(.rcp, 0x7F800000, flagDZ), (.rsq, 0x7F800000, flagDZ), (.exp2, 0x3F800000, 0), (.log2, 0xFF800000, flagDZ),
            (.sin, 0, 0), (.cos, 0x3F800000, 0)]
        ∧ at_ 0x80000000 [(.rcp, 0xFF800000, flagDZ), (.rsq, 0xFF800000, flagDZ), (.exp2, 0x3F800000, 0),
            (.log2, 0xFF800000, flagDZ), (.sin, 0x80000000, 0), (.cos, 0x3F800000, 0)]
        ∧ at_ 0x7F800000 [(.rcp, 0, 0), (.rsq, 0, 0), (.exp2, 0x7F800000, 0), (.log2, 0x7F800000, 0), (.sin, invalid),
            (.cos, invalid)]
        ∧ at_ 0xFF800000 [(.rcp, 0x80000000, 0), (.rsq, invalid), (.exp2, 0, 0), (.log2, invalid), (.sin, invalid),
            (.cos, invalid)]
        ∧ (f32Format.finite w = true → f32Format.units w < 0 → out .rsq = invalid ∧ out .log2 = invalid)
        ∧ (num (vecFrcp f a b c) = out .rcp ∧ num (vecFrsq f a b c) = out .rsq)))

/-- The moves, the exchanges, sel and foot (R181, R182, R184, R186, R201), short and long, complete: mov, movx,
movxw, movw, xshf, xrot, xread, xfirst, xmatch, xbal, xwrite, foot and sel. Each writes its value to the lanes
of its destination and changes no flag, predicate, mask or other register. cvt.bfx (R210, R211) completes:
with a block TYPE lane l takes element l of the block that the active lanes make with +0.0 elsewhere;
otherwise each lane's element is unpacked. -/
def Obligations.MovesExchangesAndBlockConversionComplete : Prop :=
  (
  ∀ (op : Op) (val : LongFields → Issue → Nat → DWord), (op, val) ∈ exchangeTable →
    ∀ (i : Instr) (f : LongFields) (s : State) (x : Issue), i.Has op f → s.Ready op f x →
      ∃ t, exec i s = .next t ∧ x.Delivers op f (fun k l => wordPart (val f x l) k) t
        ∧ x.SameMasks t ∧ (∀ l < 32, t.self.fpst.at' l = x.s.self.fpst.at' l) ∧ s.SameMemory t ∧ x.s.SameWindows t)
  ∧ (
  ∀ (i : Instr) (f : LongFields) (s : State) (x : Issue), i.Has .cvtBfx f → s.Ready .cvtBfx f x →
    let b := (blockFormat f.ty).encode 0 ((List.range 32).map (fun l =>
      if x.lanes.lane l then (floatFormat f.sub).value (laneVal x.a l).toNat else .fin false 0 0))
    let out := fun l : Nat =>
      if f.ty = 13 ∨ f.ty = 14 then
        let e := b.elems.getD (x.operandLane f l) (⟨false, false, 0⟩, 0)
        (num64 ((blockFormat f.ty).lane b e.1), e.2)
      else unpacked f (laneVal x.a (x.operandLane f l))
    ∃ t, exec i s = .next t ∧ x.Delivers .cvtBfx f (fun k l => wordPart (out l).1 k) t
      ∧ x.FlagsOred (fun l => (out l).2) t ∧ x.SameMasks t ∧ s.SameMemory t ∧ x.s.SameWindows t)

/-- xred and xscan (R183), short and long, complete. xred gives every lane the root of the tree of R126 over A in
the active lanes and the identity elsewhere; xscan gives lane l the value of its scan, exclusive under SUB bit
3, over the segments whose heads B names. The flags of every node go to each active lane, under U = 1 to
all 32 (the model's reading, log entry 21). icmp, fcmp and movp
(R167, R185, R200), short and long, complete: the condition goes to predicate PD of each lane in which the
instruction acts, evaluated once under U = 1, and no other predicate changes; a write of p7 is discarded.
fpst.clear and kill (R186, R212), short and long, complete. fpst.clear zeroes sr.fpst of the lanes that take
flags, and of no other; kill frees v(A) to v(A + count − 1), whatever the mask, the predicate and U are, and
no other register. -/
def Obligations.ReductionsAndPredicateWritersComplete : Prop :=
  (
  ∀ (i : Instr) (f : LongFields) (s : State) (x : Issue),
    (i.Has .xred f → s.Ready .xred f x →
      let r := treeReduce (combine f.sub f.ty f.rnd) 5
        ((List.range 32).map (fun l => if x.lanes.lane l then laneVal x.a l else identity f.sub f.ty))
      ∃ t, exec i s = .next t ∧ x.Delivers .xred f (fun k _ => wordPart (r.1.headD 0) k) t ∧ x.SameMasks t
        ∧ (∀ l < 32, t.self.fpst.at' l =
            if x.acts && x.lanes.lane l then x.s.self.fpst.at' l ||| r.2.setWidth 32 else x.s.self.fpst.at' l)
        ∧ s.SameMemory t ∧ x.s.SameWindows t)
    ∧ (i.Has .xscan f → s.Ready .xscan f x →
      let op := combine (f.sub % 8) f.ty f.rnd
      let head : Mask := (x.b.getD 0 Lanes.zero).at' 0
      let src := (List.range 32).map (fun l => if x.lanes.lane l then laneVal x.a l else identity (f.sub % 8) f.ty)
      let y := if 8 ≤ f.sub then
          (List.range 32).map (fun l => if l = 0 || head.lane l then identity (f.sub % 8) f.ty else src.getD (l - 1) 0)
        else src
      let r := scanSteps op [1, 2, 4, 8, 16] (y.zip ((List.range 32).map head.lane))
      ∃ t, exec i s = .next t ∧ x.Delivers .xscan f (fun k l => wordPart (r.1.getD l (0, false)).1 k) t ∧ x.SameMasks t
        ∧ (∀ l < 32, t.self.fpst.at' l =
            if x.acts && x.lanes.lane l then x.s.self.fpst.at' l ||| r.2.setWidth 32 else x.s.self.fpst.at' l)
        ∧ s.SameMemory t ∧ x.s.SameWindows t))
  ∧ (
  ∀ (i : Instr) (op : Op) (f : LongFields) (s : State) (x : Issue), i.Has op f → s.Ready op f x →
    x.s.self.preds.length = 7 →
    let only := fun (t : State) (val : Nat → Bool) =>
      ∀ n l, n < 8 → l < 32 → (t.self.pred n).lane l =
        if n = f.pd ∧ n ≠ 7 ∧ x.lanes.lane l = true then val l else (x.s.self.pred n).lane l
    (∀ cond, (op, cond) ∈ [(Op.icmp, vecIcmp), (Op.fcmp, vecFcmp)] →
      let out := fun l => cond f (laneVal x.a (x.operandLane f l)) (laneVal x.b (x.operandLane f l))
      ∃ t, exec i s = .next t ∧ x.Passes t ∧ only t (fun l => (out l).1) ∧ x.FlagsOred (fun l => (out l).2) t
        ∧ t.self.em = x.s.self.em ∧ s.SameMemory t ∧ x.s.SameWindows t)
    ∧ (op = .movp →
      ∃ t, exec i s = .next t ∧ x.Passes t
        ∧ (f.sub = 1 → only t (fun l => (x.a.getD 0 Lanes.zero).at' l ≠ 0))
        ∧ (f.sub ≠ 1 → ∀ n l, n < 7 → l < 32 → (t.self.pred n).lane l =
            if x.lanes.lane l then ((x.a.getD 0 Lanes.zero).at' l).getLsbD n else (x.s.self.pred n).lane l)
        ∧ t.self.em = x.s.self.em ∧ (∀ l < 32, t.self.fpst.at' l = x.s.self.fpst.at' l) ∧ s.SameMemory t
        ∧ x.s.SameWindows t))
  ∧ (
  ∀ (i : Instr) (f : LongFields) (s : State) (x : Issue),
    (i.Has .fpstClear f → s.Ready .fpstClear f x →
      ∃ t, exec i s = .next t ∧ x.Passes t ∧ x.SameMasks t ∧ s.SameMemory t ∧ x.s.SameWindows t
        ∧ ∀ l < 32, t.self.fpst.at' l = if x.acts && x.flagLanes.lane l then 0 else x.s.self.fpst.at' l)
    ∧ (i.Has .kill f → s.Ready .kill f x →
      ∃ t, exec i s = .next t ∧ x.s.OnlyGroup t s.issuing ∧ t.self.pc = x.s.self.nextPc ∧ x.SameMasks t
        ∧ t.self.s = x.s.self.s ∧ t.self.fpst = x.s.self.fpst ∧ s.SameMemory t ∧ x.s.SameWindows t
        ∧ (∀ k ≤ f.extBits 3 0, Table.find t.self.v (f.a.toNat + k) = none)
        ∧ ∀ n, n ∉ x.marked → (n < f.a.toNat ∨ f.a.toNat + f.extBits 3 0 < n) →
            Table.find t.self.v n = Table.find x.s.self.v n))

/-- R242: nop, bra, brx, call, ret, bany, ball and bnone, short and long, complete. A branch goes to its target
with bits [1:0] clear, whatever em is: PC + offset for bra and call, the 64-bit A for brx and ret, and for
bany, ball and bnone PC + offset when some, every or no em lane has the tested predicate, and the next address
otherwise; call writes the next address to the pair that D names, in every lane, at once. R244: emset, emand,
emor and emnot, short and long, complete: em takes its new value before the group's next issue, from the mask
that A or the tested predicate gives, and the old em goes to D as a uniform result. -/
def Obligations.BranchesAndMaskInstructionsComplete : Prop :=
  (
  ∀ (i : Instr) (op : Op) (f : LongFields) (s : State) (x : Issue), i.Has op f → s.Ready op f x →
    let g := x.s.self
    let offset := ((laneVal x.a 0).setWidth 32).signExtend 64
    let p := if f.modBits 13 11 = 7 then BitVec.allOnes 32 else g.preds.getD (f.modBits 13 11) 0
    let tested := if f.modBits 14 14 = 1 then ~~~p else p
    let cond := fun (taken : Prop) =>
      ∃ t pc, exec i s = .next t ∧ x.SameMasks t ∧ s.SameMemory t ∧ x.s.SameWindows t ∧ x.AdvancesTo pc [] t
        ∧ (taken → pc = (g.pc + offset) &&& ~~~3#64) ∧ (¬ taken → pc = g.nextPc &&& ~~~3#64)
    (op = .nop → ∃ t, exec i s = .next t ∧ x.Passes t ∧ x.SameMasks t ∧ s.SameMemory t ∧ x.s.SameWindows t)
    ∧ (op = .bra → cond True)
    ∧ (op = .brx ∨ op = .ret → ∃ t, exec i s = .next t ∧ x.SameMasks t ∧ s.SameMemory t ∧ x.s.SameWindows t
        ∧ x.AdvancesTo (laneVal x.a 0 &&& ~~~3#64) [] t)
    ∧ (op = .bany → cond (∃ l < 32, g.em.getLsbD l = true ∧ tested.getLsbD l = true))
    ∧ (op = .ball → cond (∀ l < 32, g.em.getLsbD l = true → tested.getLsbD l = true))
    ∧ (op = .bnone → cond (∀ l < 32, g.em.getLsbD l = true → tested.getLsbD l = false))
    ∧ (op = .call → g.formed = true → Memory.wf x.s.selfCore.win = true →
        ∃ t, exec i s = .next t ∧ t.self.pc = ((g.pc + offset) &&& ~~~3#64) ∧ x.SameMasks t ∧ s.SameMemory t
          ∧ ∀ k reg, k < 2 → x.dest.regs[k]? = some reg → (∀ n, reg = .s n → n < 64) → (∀ n, reg = .k n → n < 16) →
              ∀ l < 32, (t.readReg s.issuing reg).at' l = wordPart g.nextPc k))
  ∧ (
  ∀ (op : Op) (new : Mask → Mask → Mask),
    (op, new) ∈ [(Op.emset, fun _ m => m), (Op.emand, fun em m => em &&& m), (Op.emor, fun em m => em ||| m),
      (Op.emnot, fun em m => em &&& ~~~m)] →
    ∀ (i : Instr) (f : LongFields) (s : State) (x : Issue), i.Has op f → s.Ready op f x →
      let g := x.s.self
      let p := if f.modBits 13 11 = 7 then BitVec.allOnes 32 else g.preds.getD (f.modBits 13 11) 0
      let m := if f.modBits 15 15 = 1 then (if f.modBits 14 14 = 1 then ~~~p else p) else (laneVal x.a 0).setWidth 32
      ∃ t, exec i s = .next t ∧ t.self.em = new g.em m ∧ t.self.preds = g.preds
        ∧ x.Delivers op f (fun _ _ => g.em) t ∧ (∀ l < 32, t.self.fpst.at' l = g.fpst.at' l)
        ∧ s.SameMemory t ∧ x.s.SameWindows t)

/-- yield and sleep (R245), short and long: yield ends the run and the group is ready at once. A sleep of 0, and a
sleep whose time has come, issue with no further effect; any other sleep takes a stalled turn until sr.time has
advanced by A nanoseconds, or by 1,000,000. R260: exit, short and long, of a group of a team ends the group for good,
whatever em is: it holds no register, of its writes in flight those to moored registers go on (R172), it is in no
barrel slot and in no ready queue; the exit of the last group of a team retires the team. R46-R58, R243-R263, R426:
and the run limit, the swaps and wakes, halts, kills, watchdogs and evictions, the debugger's requests, and words of
no opcode have their effects on the group or the team; what else each of them does and leaves is stated apart. -/
def Obligations.YieldSleepAndExitComplete : Prop :=
  (
  (
  ∀ (i : Instr) (f : LongFields) (s : State) (x : Issue),
    (i.Has .yield f → s.Ready .yield f x → ∃ t, exec i s = .next t ∧ x.Yields t ∧ s.SameMemory t ∧ x.s.SameWindows t)
    ∧ (i.Has .sleep f → s.Ready .sleep f x →
        let n := min ((laneVal x.a 0).toNat % 2 ^ 32) 1000000
        let passes := ∃ t, exec i s = .next t ∧ x.Passes t ∧ x.SameMasks t ∧ s.SameMemory t ∧ x.s.SameWindows t
        (∀ until_, x.s.self.hold = .sleep until_ → until_ ≤ x.s.time → passes)
        ∧ (∀ until_, x.s.self.hold = .sleep until_ → x.s.time < until_ →
            exec i s = .next (s.modSelf (fun g => g.stalled s.cycle (.sleep until_))))
        ∧ ((∀ until_, x.s.self.hold ≠ .sleep until_) → n = 0 → passes)
        ∧ ((∀ until_, x.s.self.hold ≠ .sleep until_) → n ≠ 0 →
            exec i s = .next (s.modSelf (fun g => g.stalled s.cycle (.sleep (x.s.time + n)))))))
  ∧ (
  ∀ (i : Instr) (f : LongFields) (s : State) (x : Issue) (team : Team), i.Has .exit f → s.Ready .exit f x →
    x.s.self.kind = .general → x.s.team? ⟨s.issuing.core, x.s.self.team⟩ = some team →
    ∃ t, exec i s = .next t ∧ t.self.status = .exited ∧ t.self.v = [] ∧ t.self.pc = x.s.self.pc
      ∧ t.self.inflight = x.s.self.inflight.filter (fun w => w.reg.isMoored)
      ∧ some s.issuing.slot ∉ (t.core s.issuing.core).barrel
      ∧ (∀ q ∈ (t.core s.issuing.core).ready, ∀ e ∈ q, e.2 ≠ s.issuing.slot) ∧ s.SameMemory t ∧ x.s.SameWindows t
      ∧ (team.ending = .no →
          (∀ slot ∈ team.slots, slot ≠ s.issuing.slot → (x.s.group ⟨s.issuing.core, slot⟩).status = .exited) →
          (t.team? ⟨s.issuing.core, x.s.self.team⟩).map (·.ending) = some .retire)))
  ∧ (∀ (s : State) (r : GroupRef), let g := s.group r
    let th := (s.core r.core).swapth
    (g.status = .running → 64 ≤ g.run → ∃ t : State, exec (.runLimit r) s = .next t ∧ (t.group r).run = 0)
    ∧ (g.status = .running → th ≠ 0 → 64 < g.stall → th < g.stall → ∃ t : State, exec (.transparentSwap r) s = .next t
        ∧ t.group r = { g with status := .swapped, stall := 0 })
    ∧ (∀ τ, (s.group? r).isSome = true → g.hold = .sleep τ → τ ≤ s.time → g.status = .swapped →
      ∃ t : State, exec (.sleepExpiry r) s = .next t ∧ t.group r = { g with status := .running })
    ∧ (∀ (u : State) (ws : List Word) (e : Option Stop), g.hold = .fetch → g.status = .running → s.fetch r true = (u, ws, e) →
      exec (.instructionFetch r) s = .next (u.modGroup r (fun g => { g with hold := .none }))))
  ∧ (∀ (s : State) (tr : TeamRef) (team : Team), s.team? tr = some team →
    (∀ l, s.launch? team.launch = some l →
      (s.clockReached team l.t1 = true → team.ending = .no ∨ team.ending = .stop → ∃ t : State, exec (.watchdogT1 tr) s = .next t
        ∧ t.team? tr = some { team with preempt := true })
      ∧ (s.clockReached team l.t2 = true → team.ending.isKill = false → team.ending ≠ .retire →
        ∃ t : State, exec (.watchdogT2 tr) s = .next t ∧ t.team? tr = some { team with ending := .kill 0x28 })
      ∧ (s.clockReached team l.t3 = true → ∃ t : State, exec (.watchdogT3 tr) s = .next t ∧ (t.core tr.core).fenced = true)
      ∧ (∀ block, s.atPoint tr team = true →
        let records := (s.core tr.core).surrogate.slipway.filter (fun x => team.slots.contains x.slot && !x.orphan)
        (s.modTeam tr (fun x => { x with preempt := false })).saveRoom team.launch l
          (4096 + team.scratchBytes + 40960 * team.slots.length + 64 * records.length + 256) = some block →
        ∃ (t : State) (e : Evicted), exec (.eviction tr) s = .next t ∧ t.team? tr = none ∧ e ∈ t.front.evicted
          ∧ e.block = block))
    ∧ (∀ slot c : Nat, let r : GroupRef := ⟨tr.core, slot⟩
      s.teamOf r = some team → team.ending = .kill c → (s.group? r).isSome = true → (s.group r).status ≠ .halted →
      (s.group r).status ≠ .exited → (s.group r).skidLeft = none → s.isIssuing r = false →
      ∃ t : State, exec (.haltDelivery r) s = .next t ∧ (t.group r).status = .halted)
    ∧ (∀ c, team.ending = .kill c → s.liveSlots tr team = [] → s.commandsOut tr = false → s.loadsOut tr team = false →
      ∃ t : State, exec (.teamKill tr) s = .next t ∧ t.team? tr = none))
  ∧ (∀ s : State, let d := s.dbg
    let c := s.context d.ctx
    let r := s.debugGroup
    (c.valid = true → (c.debugger = false → ∃ t : State, exec .debugAttach s = .next t ∧ (t.context d.ctx).debugger = true)
      ∧ (c.debugger = true → ∃ t : State, exec .debugDetach s = .next t ∧ (t.context d.ctx).debugger = false))
    ∧ (∀ team, s.team? s.debugTeam = some team →
      (s.debugCheck false false = 0 → team.ending = .no → ∃ t : State, exec .debugStop s = .next t
        ∧ t.team? s.debugTeam = some { team with ending := .stop, frozenAt := some s.time })
      ∧ (s.debugCheck false true = 0 → ∃ t : State, exec .debugResume s = .next t ∧ t.dbg = { d with status := 0 }
        ∧ ∀ slot ∈ team.slots, (s.group ⟨d.core, slot⟩).status = .halted → (t.group ⟨d.core, slot⟩).status = .running))
    ∧ (s.debugCheck false true = 0 → (s.group r).status = .halted →
      ∃ t : State, exec .debugStep s = .next t ∧ (t.group r).status = .running ∧ (t.group r).stepping = true)
    ∧ (s.debugCheck true true = 0 → s.debugPending = false →
      (s.debugDead = false → d.kind = 6 →
        ∃ t : State, exec .debugRead s = .next t ∧ t.dbg.data = objectWords ((s.group r).em.setWidth 64))
      ∧ (Memory.wf (s.core d.core).win = true → d.kind = 6 →
        ∃ t : State, exec .debugWrite s = .next t ∧ (t.group r).em = d.data.getD 0 0)))
  ∧ (∀ (s : State) (w : Word) (rest : List Word) (h : DWord), let g := s.self
    (s.group? s.issuing).isSome = true → s.selfAttrs.decode = 9 → Op.ofOp8 (w.extractLsb' 3 8) = none →
    s.handler s.issuing .illegalInstruction = some h → g.sup = false → g.spFinal + 128 ≤ g.limit → g.skidLeft = none →
    g.copies = [] → Memory.wf g.stack = true →
    ∃ t, exec (.illegalInstruction (w :: rest)) s = .next t ∧ t.self.pc = h &&& ~~~3#64 ∧ t.self.cause = 1)

/-- ld, lds, ldu and ldw (R215, R217, R220, R222, R223), short and long where they have both, complete when every
lane's access passes the checks of R220 and the sub-core has room for another return: the group goes on, D
awaits the numbers that the accesses read, extended as the type says, in the lanes of the destination, and no
byte of memory or of a window changes but what the translation records (the A bits of R275). `s1` is the state
after translation, `xs` the lanes' accesses, and `s2` has the group's own earlier stores performed where one event of
the load would mix their bytes with others (R149, R150). lds (R215, R217) in full: lane l awaits the number in the
little-endian bytes of the team's scratchpad at (A + index + displacement) mod 2^32, extended as the type
says; a lane outside the team's scratchpad raises SCRATCH_RANGE with the failing lanes and the lowest one's
offset. An access of any of these instructions, of stores and of atomics, that passes its checks while a failed
prediction (11 R273) holds earlier accesses of the group is held behind them: the instruction has issued, and no byte
changes. R165: and a result that returns writes its register. -/
def Obligations.LoadsComplete : Prop :=
  (
  (
  ∀ (i : Instr) (op : Op) (f : LongFields) (s s1 : State) (x : Issue) (xs : List (Nat × Except LaneFail LaneAccess)),
    op ∈ [Op.ld, .lds, .ldu, .ldw] → i.Has op f → s.Ready op f x →
    x.s.laneAccesses s.issuing op f .read (accessBytes f) x (x.accessLanes op f) = (s1, xs) → firstFail xs xs = none →
    xs = [] ∨ s1.mayAwait s.issuing = true ∧ x.s.self.predicted = [] → x.s.self.status = .running →
    let s2 := s1.beforeLoads s.issuing op f x.lanes (passed xs)
    let vs := (s2.loadLanes s.issuing f (passed xs)).2
    ∃ t, exec i s = .next t ∧ x.SameMasks t ∧ s2.SameMemory t ∧ s2.SameWindows t ∧ t.self.fpst = x.s.self.fpst
      ∧ x.Awaits (resultWords op f) (fun k l => wordOf (Table.get vs 0 (x.accessLane op f l)) k) t)
  ∧ (
  ∀ (i : Instr) (f : LongFields) (s : State) (x : Issue), i.Has .lds f → s.Ready .lds f x →
    let a := x.s.attrs s.issuing
    let n := accessBytes f
    let ls := x.accessLanes .lds f
    let off := x.scratchOffset f
    let out := fun l => decide (a.scratchBytes < off l + n)
    s.issuing.core < 384 → a.scratchBase + a.scratchBytes ≤ 0x180000 →
    (ls.any out = false → x.s.mayAwait s.issuing = true → x.s.self.predicted = [] →
      ∃ t, exec i s = .next t ∧ x.SameMasks t ∧ s.SameMemory t ∧ x.s.SameWindows t
        ∧ x.Awaits (resultWords .lds f) (fun k l =>
            wordOf (extendLoad f
              (Memory.readNum x.s.selfCore.win (a.scratchBase + off (x.accessLane .lds f l)) n)) k) t)
    ∧ (∀ l, (ls.filter out).head? = some l →
        exec i s = .next (x.s.trap s.issuing { Trap.plain .scratchRange with
          lanes := some (Mask.ofFn (fun k => (ls.filter out).contains k)), addr := BitVec.ofNat 64 (off l) }))))
  ∧ (
  ∀ (i : Instr) (op : Op) (k : AccessKind) (f : LongFields) (s s1 : State) (x : Issue) (ls : List Nat)
      (xs : List (Nat × Except LaneFail LaneAccess)), i.Has op f → s.Ready op f x → x.s.self.status = .running →
    (op ∈ [Op.ld, .lds, .ldu, .ldw] ∧ k = .read ∧ ls = x.accessLanes op f
      ∨ op ∈ [Op.st, .stm, .sts, .stw] ∧ k = .write ∧ ls = x.storeLanes op f
      ∨ op ∈ [Op.atom, .atoms, .red, .reds] ∧ k = .atomic ∧ ls = x.accessLanes op f) →
    x.s.laneAccesses s.issuing op f k (accessBytes f) x ls = (s1, xs) → firstFail xs xs = none → xs ≠ [] →
    s1.mayAwait s.issuing = true → x.s.self.predicted ≠ [] →
    ∃ (t : State) (p : HeldAccess), exec i s = .next t ∧ t.self.predicted = x.s.self.predicted ++ [p] ∧ p.op = op ∧ p.f = f
      ∧ p.a = x.a ∧ p.b = x.b ∧ p.c = x.c ∧ p.lanes = ls ∧ p.cause = 0 ∧ t.self.pc = x.s.self.nextPc ∧ x.SameMasks t
      ∧ s1.SameMemory t ∧ x.s.SameWindows t)
  ∧ (∀ (s : State) (r : GroupRef) (id : Nat) (o : Outstanding) (reg : Nat) (vals : Lanes),
    let g := (s.settle r).group r
    (s.group? r).isSome = true → g.outstanding.find? (fun x => x.id = id) = some o → g.mayReturn (s.settle r).cycle o = true →
    (∀ x ∈ (s.settle r).shootdowns, x.group ≠ some r) → o.regs = [(Reg.v reg, vals)] → reg < 240 →
    (Table.find g.v reg).isSome = true →
    ∃ t : State, exec (.loadReturn r id) s = .next t
      ∧ ∀ l < 32, o.mask.lane l = true → (t.readReg r (.v reg)).at' l = vals.at' l)

/-- sts and stw (R217, R219, R220, R222) complete when every lane's access passes its checks, the sub-core has room for
another access and no earlier access of the group is held: each byte of each active lane's datum is in its place in the core's window at once, the highest
lane's byte where lanes meet, and every other byte of every window is as it was; no register, predicate or flag
changes, and no byte of memory but by the release of earlier stores. st and stm (R217, R220, R222) to memory complete
when every lane's access passes its checks: once the group's buffered stores have been performed, each byte of each
active lane's datum, for stm each that its byte mask selects, is at its place in device memory, the highest lane's
byte where lanes meet, and every other byte is what it was once the earlier stores were performed; a store that is
neither strongly ordered nor a release is in the store buffer until then and changes no byte itself. Those whose lanes
lie in windows write them at once, and those in the host's half once the buffered stores have been performed, in the same
way. That such a store is always buffered, where R157 says it may be, is the model's choice (log entry 22), and so is the
order of the lanes on unordered pages, which R158 leaves open (log entry 1). `s1` is the state after translation; the
pages written have their D bits set (R275). R157: and a store leaves the buffer. -/
def Obligations.StoresWriteTheirBytes : Prop :=
  (
  (
  ∀ (i : Instr) (op : Op) (f : LongFields) (s s1 : State) (x : Issue) (xs : List (Nat × Except LaneFail LaneAccess)),
    op ∈ [Op.sts, .stw] → i.Has op f → s.Ready op f x → x.s.self.status = .running →
    (∀ c, Memory.wf (x.s.core c).win = true) →
    x.s.laneAccesses s.issuing op f .write (accessBytes f) x (x.accessLanes op f) = (s1, xs) → firstFail xs xs = none →
    xs = [] ∨ s1.mayAwait s.issuing = true ∧ x.s.self.predicted = [] →
    let bytes := (passed xs).flatMap (storeBytes op x)
    ∃ t, exec i s = .next t ∧ x.SameMasks t ∧ x.SelfAdvances x.s.self.nextPc [] t ∧ t.self.fpst = x.s.self.fpst
      ∧ t.self.outstanding = x.s.self.outstanding
      ∧ (∀ c o reg, regionOf o = some reg → drainReserved o = false → (x.s.core c).unheldStore o = false →
          Memory.read (t.core c).win o = lastByte bytes (.device (.window c o reg)) (Memory.read (x.s.core c).win o))
      ∧ (releases f = false → x.s.SameMemory t))
  ∧ (
  ∀ (i : Instr) (op : Op) (f : LongFields) (s s1 : State) (x : Issue) (xs : List (Nat × Except LaneFail LaneAccess)),
    op ∈ [Op.st, .stm] → i.Has op f → s.Ready op f x → x.s.self.status = .running → Memory.wf x.s.mem = true →
    x.s.laneAccesses s.issuing op f .write (accessBytes f) x (x.storeLanes op f) = (s1, xs) → firstFail xs xs = none →
    xs = [] ∨ s1.mayAwait s.issuing = true ∧ x.s.self.predicted = [] →
    (∀ y ∈ passed xs, ∀ p ∈ y.spots, ∃ pa, p = .device (.mem pa)) →
    let bytes := (passed xs).flatMap (storeBytes op x)
    let s2 := (passed xs).foldl (fun s y => s.markAccess s.issuing op y) s1
    ∃ t, exec i s = .next t ∧ x.SameMasks t ∧ x.SelfAdvances x.s.self.nextPc [] t ∧ t.self.fpst = x.s.self.fpst
      ∧ t.self.outstanding = x.s.self.outstanding ∧ x.s.SameWindows t
      ∧ (∀ a, Memory.read (t.flushStores s.issuing).mem a =
          lastByte bytes (.device (.mem a)) (Memory.read (s2.flushStores s.issuing).mem a))
      ∧ (releases f = false → (passed xs).any (·.strong) = false → s2.SameMemory t)))
  ∧ (
  ∀ (i : Instr) (op : Op) (f : LongFields) (s s1 : State) (x : Issue) (xs : List (Nat × Except LaneFail LaneAccess)),
    op ∈ [Op.st, .stm] → i.Has op f → s.Ready op f x → x.s.self.status = .running →
    x.s.laneAccesses s.issuing op f .write (accessBytes f) x (x.storeLanes op f) = (s1, xs) → firstFail xs xs = none →
    xs = [] ∨ s1.mayAwait s.issuing = true ∧ x.s.self.predicted = [] →
    let bytes := (passed xs).flatMap (storeBytes op x)
    let spots := (passed xs).flatMap (·.spots)
    ((∀ p ∈ spots, ∃ c o reg, p = .device (.window c o reg)) → (∀ c, Memory.wf (x.s.core c).win = true) →
      ∃ t, exec i s = .next t ∧ x.SameMasks t ∧ x.SelfAdvances x.s.self.nextPc [] t
        ∧ (∀ c o reg, regionOf o = some reg → drainReserved o = false → (x.s.core c).unheldStore o = false →
          Memory.read (t.core c).win o = lastByte bytes (.device (.window c o reg)) (Memory.read (x.s.core c).win o)))
    ∧ (∀ func, (∀ p ∈ spots, ∃ a, p = .host func a) → (∀ fn, Memory.wf (Table.get x.s.hostMem [] fn) = true) →
      ∃ t, exec i s = .next t ∧ x.SameMasks t ∧ x.SelfAdvances x.s.self.nextPc [] t ∧ x.s.SameWindows t
        ∧ ∀ a, Memory.read ((t.flushStores s.issuing).hostMemOf func) a =
          lastByte bytes (.host func a) (Memory.read ((s1.flushStores s.issuing).hostMemOf func) a)))
  ∧ (∀ (s : State) (core : Fin 384) (id : Nat) (b : BufferedStore),
    (s.core core).stores.find? (fun b => b.id = id) = some b → b.host = false → Memory.wf s.mem = true →
    (∀ x ∈ (s.core core).stores.takeWhile (fun x => x.id ≠ id), x.host = false ∧ ∀ c ∈ x.cells, ∀ d ∈ b.cells, c.1 ≠ d.1) →
    ∃ t : State, exec (.storePerform core id) s = .next t
      ∧ ∀ a, Memory.read t.mem a = ((b.cells.reverse.find? (fun c => c.1 = a)).map (·.2)).getD (Memory.read s.mem a))

/-- atom, atoms, red and reds (R227, R228) complete when every lane's access passes its checks and no earlier access of the
group is held: after the group's earlier stores, the lanes' atomics are performed one after another in ascending order, at
once, and with atom and atoms D awaits the old values. On unordered pages R148 allows any order of the lanes and a later
performance: the ascending order and the moment are the model's choice (log entries 1 and 22). One lane's atomic in
device memory, in a window, the scratchpad among them, or in the host's half (R227, R228; R2): the old value is the
number at the place, the place takes the sum, the smaller, the larger, the and, the or, the exclusive or, the operand, or
for cas the new value if the old one is equal; every other byte is as it was. The smaller and the larger are those of
the type. -/
def Obligations.AtomicsComplete : Prop :=
  (
  ∀ (i : Instr) (op : Op) (f : LongFields) (s s1 : State) (x : Issue) (xs : List (Nat × Except LaneFail LaneAccess)),
    op ∈ [Op.atom, .atoms, .red, .reds] → i.Has op f → s.Ready op f x → x.s.self.status = .running →
    x.s.laneAccesses s.issuing op f .atomic (accessBytes f) x (x.accessLanes op f) = (s1, xs) → firstFail xs xs = none →
    (∀ y ∈ passed xs, ∀ p ∈ y.spots, ∀ o, p ≠ .device (.control o)) →
    xs = [] ∨ s1.mayAwait s.issuing = true ∧ x.s.self.predicted = [] →
    let done := (s1.flushStores s.issuing).atomicLanes s.issuing op f x.c (passed xs)
    ∃ t, exec i s = .next t ∧ x.SameMasks t ∧ done.1.SameMemory t ∧ done.1.SameWindows t ∧ t.self.fpst = x.s.self.fpst
      ∧ (op = .atom ∨ op = .atoms →
          x.Awaits (resultWords op f) (fun k l => wordOf (Table.get done.2 0 (x.accessLane op f l)) k) t)
      ∧ (op = .red ∨ op = .reds →
          x.SelfAdvances x.s.self.nextPc [] t ∧ t.self.outstanding = x.s.self.outstanding))
  ∧ (
  ∀ (s : State) (r : GroupRef) (op : Op) (f : LongFields) (c : List Lanes) (y : LaneAccess) (pa n : Nat),
    n = 4 ∨ n = 8 →
    let data := datumBytes c 16 y.lane
    let b := numAt data 0 n
    let int := fun (v : Nat) => if typeSigned f.ty then (BitVec.ofNat (8 * n) v).toInt else ((v % 2 ^ (8 * n) : Nat) : Int)
    let new := fun (old : Nat) =>
      match f.lsub with
      | 0 => if f.ty = 9 then (f32Format.add 0 old b).1 else (old + b) % 2 ^ (8 * n)
      | 1 => if int old ≤ int b then old else b
      | 2 => if int b ≤ int old then old else b
      | 3 => old &&& b
      | 4 => old ||| b
      | 5 => old ^^^ b
      | 6 => b
      | _ => if old = b then numAt data n n else old
    let out := s.atomicLane r op f c y
    let byte := fun (old at_ : Nat) => BitVec.ofNat 8 (new old / 256 ^ at_)
    (Memory.wf s.mem = true → (s.core r.core).stores.all (fun b => b.slot ≠ r.slot) = true →
      y.spots = (List.range n).map (fun i => .device (.mem (pa + i))) →
      let old := Memory.readNum s.mem pa n
      out.2 = old ∧ ∀ a, Memory.read out.1.mem a =
        if pa ≤ a ∧ a < pa + n then byte old (a - pa) else Memory.read (s.markAccess r op y).mem a)
    ∧ (∀ (core : Nat) (reg : Region), Memory.wf (s.core core).win = true →
      y.spots = (List.range n).map (fun i => .device (.window core (pa + i) reg)) →
      (∀ i < n, regionOf (pa + i) = some reg ∧ drainReserved (pa + i) = false ∧ (s.core core).unheldStore (pa + i) = false) →
      let old := Memory.readNum (s.core core).win pa n
      out.2 = old ∧ ∀ a, Memory.read (out.1.core core).win a =
        if pa ≤ a ∧ a < pa + n then byte old (a - pa) else Memory.read (s.core core).win a)
    ∧ (∀ func, Memory.wf (s.hostMemOf func) = true → (s.core r.core).stores.all (fun b => b.slot ≠ r.slot) = true →
      y.spots = (List.range n).map (fun i => .host func (pa + i)) →
      let old := Memory.readNum (s.hostMemOf func) pa n
      out.2 = old ∧ ∀ a, Memory.read (out.1.hostMemOf func) a =
        if pa ≤ a ∧ a < pa + n then byte old (a - pa) else Memory.read (s.hostMemOf func) a))

/-- ldl and stl (R235) complete when every lane's private offset lies between 0 and SP and the stack cache has the
blocks: ldl awaits the number in the lane's own bytes, and stl writes the lane's own bytes and no other byte
of any lane's stack. A lane outside raises STACK_RANGE. frame.enter and frame.leave (R234): with room, SP is n
bytes up or down from the cycle of class 1 on, n being 16 times EXT, and nothing else of the group changes;
past LIMIT frame.enter raises STACK_OVERFLOW, and below 0 frame.leave raises STACK_RANGE. The stack cache has
the bytes that frame.enter brings into use. R236: and
the stack cache writes a block back. -/
def Obligations.PrivateStackInstructionsComplete : Prop :=
  (
  (
  ∀ (i : Instr) (op : Op) (f : LongFields) (s s1 : State) (x : Issue), op ∈ [Op.ldl, .stl] → i.wellFormed = true →
    i.Has op f → s.Ready op f x →
    let n := accessBytes f
    let ls := x.accessLanes op f
    let off := fun l => (x.s.self.sp : Int) + intOf 32 true (laneVal x.a l) + scaledIndex f (laneVal x.b l) + dispOf f
    let bad := fun l => decide (off l < 0 ∨ (x.s.self.sp : Int) < off l + n)
    let blocks := ls.flatMap (fun l => [(off l).toNat / 16, ((off l).toNat + n - 1) / 16])
    (∀ l, (ls.filter bad).head? = some l →
        exec i s = .next (x.s.trap s.issuing { Trap.plain .stackRange with
          lanes := some (Mask.ofFn (fun k => (ls.filter bad).contains k)), addr := BitVec.ofInt 64 (off l) }))
    ∧ (ls.any bad = false → x.s.needBlocks s.issuing blocks.eraseDups = (s1, none) →
      (op = .ldl → (ls = [] ∨ s1.mayAwait s.issuing = true) →
        ∃ t, exec i s = .next t ∧ x.SameMasks t ∧ t.self.fpst = x.s.self.fpst ∧ t.self.stack = s1.self.stack
          ∧ s1.SameMemory t ∧ s1.SameWindows t
          ∧ x.Awaits (resultWords .ldl f) (fun k l =>
              wordOf (extendLoad f
                (s1.self.readStack (x.accessLane .ldl f l) (off (x.accessLane .ldl f l)).toNat n)) k) t)
      ∧ (op = .stl → Memory.wf s1.self.stack = true → (ls = [] ∨ s1.mayAwait s.issuing = true) →
        ∃ t, exec i s = .next t ∧ x.SameMasks t ∧ x.SelfAdvances x.s.self.nextPc [] t ∧ t.self.fpst = x.s.self.fpst
          ∧ s1.SameMemory t ∧ s1.SameWindows t
          ∧ ∀ l p, l < 32 → t.self.readStack l p 1 =
              if l ∈ ls ∧ (off l).toNat ≤ p ∧ p < (off l).toNat + n then
                ((datumBytes x.c n l).getD (p - (off l).toNat) 0).toNat
              else s1.self.readStack l p 1)))
  ∧ (
  ∀ (i : Instr) (op : Op) (f : LongFields) (s : State) (x : Issue), i.Has op f → s.Ready op f x →
    let n := 16 * f.ext.toNat
    let g := x.s.self
    let goes := fun sp => ∃ t, exec i s = .next t ∧ x.s.OnlyGroup t s.issuing ∧ x.SelfAdvances g.nextPc [] t
      ∧ x.SameMasks t ∧ t.self.spWrites = g.spWrites ++ [(s.cycle + 4, sp)] ∧ t.self.spFinal = sp
      ∧ t.self.stack = g.stack ∧ t.self.fpst = g.fpst ∧ s.SameMemory t ∧ x.s.SameWindows t
    (op = .frameEnter → g.sp + n ≤ g.limit → (∀ b ∈ g.missing, 16 * b < g.sp ∨ g.sp + n ≤ 16 * b) → goes (g.sp + n))
    ∧ (op = .frameEnter → g.limit < g.sp + n → exec i s = .next (x.s.trap s.issuing (Trap.plain .stackOverflow)))
    ∧ (op = .frameLeave → n ≤ g.sp → goes (g.sp - n))
    ∧ (op = .frameLeave → g.sp < n → exec i s = .next (x.s.trap s.issuing (Trap.plain .stackRange)))))
  ∧ (∀ (s u : State) (r : GroupRef) (offset : Nat) (ps : List Spot), let g := s.group r
    let block := offset / 16
    (s.group? r).isSome = true → offset < g.limit → block ∉ g.missing →
    s.blockSpots r .write block = (u, .ok ps) → (∀ p ∈ ps, ∃ pa, p = .device (.mem pa)) →
    let v := u.markDirtyBy r.core (s.attrs r).ctx (g.blockAddr block)
    Memory.wf v.mem = true → ∃ t : State, exec (.stackWriteback r offset false) s = .next t
      ∧ ∀ a, Memory.read t.mem a = lastByte (ps.zip (g.blockBytes block)) (.device (.mem a)) (Memory.read v.mem a))

/-- fence, pref, cctl and icinv (R229-R232) complete and change no value that a group reads through a home: fence,
when it releases, performs the group's buffered stores, and when it acquires at clu or wider drops the core's
L1 copies; icinv empties the core's instruction cache; cctl with SUB 1 drops every L1 copy of the core; pref
and the other forms of cctl write no byte but the A bits of the translations that they make. -/
def Obligations.FencesAndCacheOperationsComplete : Prop :=
  ∀ (i : Instr) (op : Op) (f : LongFields) (s : State) (x : Issue), i.Has op f → s.Ready op f x →
    x.s.self.status = .running →
    let r := s.issuing
    let goes := fun t => exec i s = .next t ∧ x.SelfAdvances x.s.self.nextPc [] t ∧ x.SameMasks t
      ∧ t.self.fpst = x.s.self.fpst ∧ t.self.stack = x.s.self.stack ∧ t.self.outstanding = x.s.self.outstanding
      ∧ x.s.SameWindows t
    let lanes := x.accessLanes op f
    let s1 := (x.s.laneAccesses r op f .read 1 x lanes).1
    let room := lanes = [] ∨ x.s.mayAwait r = true
    (op = .fence → ∃ t, goes t
        ∧ (if f.ord = 2 ∨ f.ord = 3 then (∀ b ∈ (t.core r.core).stores, b.slot ≠ r.slot) ∧ (x.s.flushStores r).SameMemory t
           else x.s.SameMemory t)
        ∧ ((f.ord = 1 ∨ f.ord = 3) → 3 ≤ f.scp → (t.core r.core).l1 = []))
    ∧ (op = .icinv → ∃ t, goes t ∧ (t.core r.core).icache = [] ∧ s.SameMemory t)
    ∧ (op = .cctl → f.lsub = 1 → ∃ t, goes t ∧ (t.core r.core).l1 = [] ∧ s.SameMemory t)
    ∧ (op = .cctl → f.lsub ≠ 1 → room → ∃ t, goes t ∧ s1.SameMemory t)
    ∧ (op = .pref → room → ∃ t, goes t ∧ s1.SameMemory t)

/-! ### The engines, the front end and the system -/

/-- R293: crn.ld, crn.st, crn.cp, crn.set, crn.gather and crn.chain, once the checks of R293 pass, with the berth not
busy and room in the queue, complete: the command is the last of its Crane queue, with A, C, the berth and the
privilege as they stood, and its berth is busy with no fault and no flags; the other queues, berths and rings, memory
and every window are as they were. A busy berth raises BERTH_CONFLICT, and a full queue, or room only for requests
that go first, holds the group in stalled turns; neither enqueues anything. In a chain's COPY, that the high half of a value to set is 0
and that the entry's address is blamed are the model's readings (log entry 25). A queue of 16 crane or surrogate commands,
or of 8 matrix or drain commands, is full, and one with room takes the request when no other group waits for an
acceptance (R51). crn.fence (R297) completes when every queue that it names has room: one and the same fence is the
last entry of each, and of no other. crn.mode (R298), with system privilege, sets or clears the group's checkpoint
mode, and without it raises PRIVILEGE. R294-R301: and commands at the head of a queue, and the entries of a chain, are
performed and completed. -/
def Obligations.CraneCommandsEnterTheirQueue : Prop :=
  (
  (
  ∀ (f : LongFields) (i : Instr) (op : Op) (cop : CraneOp) (s : State) (x : Issue),
    (i, op, cop) ∈ [(Instr.crnLd f, Op.crnLd, CraneOp.ld), (.crnSt f, .crnSt, .st), (.crnCp f, .crnCp, .cp),
      (.crnSet f, .crnSet, .set), (.crnGather f, .crnGather, .gather), (.crnChain f, .crnChain, .chain)] →
    s.ReadyWith op f .fields (craneChecks cop f) x →
    let k := x.s.core s.issuing.core
    let b := (x.s.attrs s.issuing).berthBase + f.extBits 5 0
    let q := f.modBits 12 11
    k.crane.length = 4 →
    ((k.berth b).state ≠ .busy → x.s.accepts s.issuing (.crane (2 ^ q)) = true →
      ∃ t c, exec i s = .next t ∧ x.Goes s t
        ∧ (t.core s.issuing.core).crane.getD q [] = k.crane.getD q [] ++ [c]
        ∧ (∀ q', q' ≠ q → (t.core s.issuing.core).crane.getD q' [] = k.crane.getD q' [])
        ∧ c.op = cop ∧ c.slot = s.issuing.slot ∧ c.ctx = (x.s.attrs s.issuing).ctx ∧ c.a = laneVal x.a 0
        ∧ c.c = laneVal x.c 0 ∧ c.berth = some b ∧ c.begun = false ∧ c.physical = x.s.self.checkpoint
        ∧ (c.user = true ↔ x.s.self.privilege = .user)
        ∧ (∀ n, (t.core s.issuing.core).berth n = if n = b then ⟨.busy, none, 0⟩ else k.berth n)
        ∧ (t.core s.issuing.core).rings = k.rings ∧ ∀ c', c' ≠ s.issuing.core → t.core c' = x.s.core c')
    ∧ ((k.berth b).state = .busy → exec i s = .next (s.trap s.issuing (Trap.plain .berthConflict)))
    ∧ ((k.berth b).state ≠ .busy → x.s.accepts s.issuing (.crane (2 ^ q)) = false →
      exec i s = .next (s.modSelf (fun g => g.stalled s.cycle (.accept (.crane (2 ^ q)))))))
  ∧ (
  (∀ (f : LongFields) (s : State) (x : Issue), (s.group? s.issuing).isSome = true → s.prepare .crnFence f = .ok x →
    let k := x.s.core s.issuing.core
    k.crane.length = 4 → x.s.accepts s.issuing (.crane (f.extBits 3 0)) = true →
    ∃ t c, exec (.crnFence f) s = .next t ∧ x.Goes s t ∧ c.op = .fence ∧ c.berth = none ∧ c.mask = f.extBits 3 0
      ∧ (∀ q < 4, (t.core s.issuing.core).crane.getD q [] =
          if (f.extBits 3 0).testBit q then k.crane.getD q [] ++ [c] else k.crane.getD q [])
      ∧ (t.core s.issuing.core).berths = k.berths ∧ (t.core s.issuing.core).rings = k.rings)
  ∧ (∀ (f : LongFields) (s : State) (x : Issue), (s.group? s.issuing).isSome = true → s.prepare .crnMode f = .ok x →
    (x.s.self.privilege = .system → ∃ t, exec (.crnMode f) s = .next t ∧ x.Goes s t ∧ x.s.OnlyGroup t s.issuing
      ∧ t.self.checkpoint = decide (f.extBits 0 0 = 1))
    ∧ (x.s.self.privilege ≠ .system → exec (.crnMode f) s = .next (s.trap s.issuing (Trap.plain .privilege))))
  ∧ (∀ (s : State) (r : GroupRef),
    let k := s.core r.core
    let alone := ∀ e ∈ k.groups, e.1 ≠ r.slot → ∀ y, e.2.hold ≠ .accept y
    let room := fun (what : Awaited) (length size : Nat) =>
      (s.accepts r what = true → length < size) ∧ (alone → length < size → s.accepts r what = true)
    (∀ q < 4, room (.crane (2 ^ q)) (k.crane.getD q []).length 16) ∧ room .matrix k.matrix.queue.length 8
      ∧ room .drain k.drain.length 8 ∧ room .surrogate k.surrogate.queue.length 16)))
  ∧ (∀ (s : State) (core : Fin 384) (cq : Fin 4) (c : CraneCommand) (rest : List CraneCommand),
    let k := s.core core
    k.crane.length = 4 → k.crane.getD cq [] = c :: rest → c.fault = none →
    (∀ (held : Bool) (u : State), c.begun = false → c.op ≠ .fence → c.op ≠ .chain →
      (craneTransfer core cq c c.job).run s = (.ok held, u) →
      ∃ (t : State) (h : CraneCommand), exec (.craneCommandBegin core cq) s = .next t ∧ t.craneHead core cq = some h
        ∧ h.begun = true ∧ h.id = c.id)
    ∧ (∀ b, c.berth = some b → c.counter = none → c.ring = none → s.advancesDone core c.id = true →
      let ends := fun (i : Instr) => ∃ t : State, exec i s = .next t ∧ (t.core core).crane.getD cq [] = rest
        ∧ (t.core core).berth b = ⟨.ready, none, 0⟩
      (c.begun = true → c.op ≠ .fence → c.op ≠ .chain → ends (.craneCommandComplete core cq))
      ∧ (∀ w, c.walker = some w → (w.entry.headD 0).toNat = 0 → ends (.chainEnd core cq)))
    ∧ (∀ w, c.walker = some w → let e := w.entry
      (∀ (op : CraneOp) (held : Bool) (u : State), (e.headD 0).toNat = 1 → chainOp e = some op →
        (numAt e 2 1).testBit 7 = false →
        (craneTransfer core cq c
          { op := op, record := BitVec.ofNat 64 (numAt e 8 8), p := (numAt e 4 4 + w.bias.toNat) % 2 ^ 32
            c := if op = .set then BitVec.ofNat 64 (numAt e 4 4) else BitVec.ofNat 64 (numAt e 0x10 8)
            ring := none, coords := w.xs, physical := c.physical, blame := BitVec.ofNat 64 w.at_ }).run s = (.ok held, u) →
        ∃ t : State, exec (.chainCopy core cq) s = .next (t.chainGo core cq c (w.after 0)) ∧ t.mem = u.mem)
      ∧ ((e.headD 0).toNat = 2 → Table.get w.counts 0 w.at_ + 1 < numAt e 4 4 → ∃ w' : Walker,
        exec (.chainLoop core cq) s = .next (s.chainGo core cq c w')
          ∧ w'.at_ = (BitVec.ofNat 32 w.at_ - BitVec.ofNat 32 (numAt e 8 4)).toNat)
      ∧ (∀ (ps : List Spot) (v : DWord) (u : State) (kind : AccessKind),
        (engineCounter (c.as core) kind (BitVec.ofNat 64 (numAt e 8 8))).run s = (.ok (ps, v), u) →
        ((e.headD 0).toNat = 3 → kind = .read → exec (.chainIfcnt core cq) s = .next (u.chainGo core cq c
          (w.after (if numAt e 0x10 8 ≤ v.toNat then numAt e 4 4 else 0))))
        ∧ ((e.headD 0).toNat = 4 → numAt e 1 1 = 1 → kind = .atomic → s.advancesDone core c.id = true →
          ∃ t : State, exec (.chainSignal core cq) s = .next (t.chainGo core cq c (w.after 0))))
      ∧ (∀ id, (e.headD 0).toNat = 5 → w.fenced = some id → s.advancesDone core c.id = true →
        (∀ q < 4, (numAt e 1 1).testBit q = true → q ≠ cq.val → (s.craneHead core q).map (·.id) = some id) →
        ∃ t : State, exec (.chainFence core cq) s = .next (t.chainGo core cq c { w.after 0 with fenced := none }))))

/-- R388, R389, R397: enq and spawn, once their checks pass and the queue is neither poisoned nor aborted, complete:
the group's stores are performed first; with room and no earlier request the records are enqueued in one step and the
group goes on, its latches and operand cache empty (R47); otherwise the request joins the blocked list of the queue
and the group waits. The records are those of R386, spawn's with TX rising by 1. R387-R425: and the operations of the
front end on its queues, SWITCH among them, its packets, the Pilot's round, a Tug's claim, and the instructions of the
counters, of the phases and of the queues complete, a BARRIER packet when every condition of it holds at its start; what
else each of them does and leaves is stated apart. -/
def Obligations.EnqueuesCompleteOrWait : Prop :=
  (
  ∀ (f : LongFields) (i : Instr) (s s1 u : State) (x : Issue) (a : LaneAccess) (h n : Nat) (l : Launch)
      (records : List (List Byte)), s.self.resumeWait = none → x.s.self.status = .running →
    (i = .enq f ∧ s.ReadyWith .enq f .fields (enqChecks f) x
        ∧ x.s.virtualAccess s.issuing .read (x.s.self.uniformLane f) (laneVal x.a 0) 128 = (s1, .ok a)
        ∧ s1.descriptorOf a = some (h, l, n)
        ∧ records = [newRecord (s1.imageRecord f.b) n 0 s1.selfParent h])
      ∨ (i = .spawn f ∧ s.ReadyWith .spawn f .fields (spawnChecks f) x ∧ s1 = x.s ∧ x.s.ownLaunch = some (h, l)
        ∧ n = f.extBits 2 0
        ∧ records = (List.range ((laneVal x.b 0).toNat % 2 ^ 32)).map
            (fun j => newRecord (x.s.imageRecord f.a) n j x.s.selfParent h)) →
    s1.descPoisoned l n = false → u = (({ x with s := s1 } : Issue).freed).flushStores s.issuing →
    u.launch? h = some l → u.descAborted l n = false →
    (u.hasRoom h n records.length = true → ∃ t, exec i s = .next t ∧ x.SelfAdvances x.s.self.nextPc [] t
        ∧ t.self.history = [] ∧ t.self.cache = List.replicate 8 none
        ∧ x.SameMasks t ∧ t.self.fpst = x.s.self.fpst ∧ t.front = (u.performEnqueue h n records [] records.length none).front
        ∧ t.mem = (u.performEnqueue h n records [] records.length none).mem ∧ x.s.SameWindows t)
    ∧ (u.hasRoom h n records.length = false → ∃ t id, exec i s = .next t
        ∧ x.Blocks (.queue (some id) h n records) t
        ∧ t.front.requests = u.front.requests ++ [⟨id, h, n, records, [], some s.issuing, none⟩] ∧ t.mem = u.mem))
  ∧ (∀ (s : State) (q q' : Fin 1024) (slot : Fin 128) (val : DWord), let e := s.runEntry q
    let since := fun off => (val - BitVec.ofNat 64 (s.qcbField q off 8)).toNat
    (e.valid = true → s.qcbValid q = true → (s.qState q).testBit 0 = false → (s.qState q).testBit 2 = false →
      Memory.wf s.mem = true → since 0x10 ≤ s.qcbField q 8 4 → since 0x20 ≤ s.qcbField q 8 4 → since 0x20 ≠ 0 →
      ∃ u : State, exec (.doorbellWrite q val 0) s = .next (if s.isAttached q then u.pump q else u)
        ∧ Memory.readNum u.mem (e.qcb + 0x20) 8 = val.toNat)
    ∧ (s.isAttached q = false → ∃ t, exec (.runListWrite q val) s = .next t ∧ (t.runEntry q).valid = val.getLsbD 0)
    ∧ (Table.find s.front.slots slot = none → s.mappable q = true →
      ∃ u : State, exec (.map slot q) s = .next (u.pump q) ∧ Table.find u.front.slots slot = some q.val)
    ∧ (Table.find s.front.slots slot = some q.val → (s.frontQueue q).packets = [] →
      (∃ t, exec (.unmapSuspend slot) s = .next t ∧ Table.find t.front.slots slot = none)
      ∧ ((∀ l ∈ s.front.launches, l.2.queue ≠ q.val) → ∃ u : State,
          exec (.unmapDestroy slot) s = .next ((u.pump q).due [.queueDestroyed q]) ∧ (u.frontQueue q).destroying = true)
      ∧ ((s.detach slot).mappable q' = true →
          exec (.switch slot q') s = exec (.map slot q') ((((s.stopQueue q).retryFinish q).retireAll q).detach slot)
            ∧ ∃ u : State, exec (.switch slot q') s = .next (u.pump q') ∧ Table.find u.front.slots slot = some q'.val))
    ∧ ((s.frontQueue q).destroying = true → let u := s.pump q
      u.front.launches.all (fun l => l.2.queue ≠ q.val) = true → (u.frontQueue q).packets = [] →
      u.qcbField q 0x10 8 = u.qcbField q 0x20 8 → ((u.zeroAreas q).frontQueue q).areas = [] →
      ∃ t, exec (.queueDestroyed q) s = .next t ∧ ∀ n, Table.find t.front.slots n ≠ some q.val))
  ∧ (∀ (s u v : State) (q : Fin 1024) (p : Packet), let ctx := (u.runEntry q).ctx
    let fin := fun (x : State) => (x.finishPacket q p.index true true).pump q
    (s.currentPacket q 0 = some (p, u) → exec (.nopPacket q) s = .next (fin u))
    ∧ (s.currentPacket q 3 = some (p, u) → u.signal ctx (p.field 0x10) (p.arg = 1) (p.field 0x18) = .ok v →
      exec (.signalPacket q) s = .next (fin v))
    ∧ (s.currentPacket q 4 = some (p, u) →
      exec (.copyPacket q) s = .next ((u.pump q).due [.copyComplete q (BitVec.ofNat 64 p.index)]))
    ∧ (s.currentPacket q 2 = some (p, u) → exec (.barrierPacket q) s = exec (.barrierEvaluation q) u
      ∧ ∀ values : List DWord,
        (u.frontQueue q).packets.find? (fun y => y.progress = .started && y.type = 2) = some { p with progress := .started } →
        (barrierSignals p.bytes).map (fun va => u.readPlain ctx va 8) = values.map (fun x => .ok (bytesOfNum 8 x.toNat)) →
        (∀ x ∈ values, x.msb = false) →
        (∀ k x, values[k]? = some x →
          condHolds (p.arg / 2 ^ (3 + 2 * k) % 4) x ((BitVec.ofNat 32 p.arg32).signExtend 64) = true) →
        exec (.barrierPacket q) s = .next (fin ((barrierSignals p.bytes).foldl (fun y va => y.usedRemote ctx va) u)))
    ∧ (u = s → (s.frontQueue q).packets.find? (fun y => y.progress = .started && y.type = 2) = some p →
      barrierSignals p.bytes = [] → exec (.barrierEvaluation q) s = .next (fin s))
    ∧ (∀ src dst : List Spot, u = s → p.index < 2 ^ 64 →
      (s.frontQueue q).packets.find? (fun y => y.index = p.index && y.progress = .started && y.type = 4) = some p →
      s.spotsUpTo ctx .read (p.field 0x10) (p.field 0x20).toNat = (src, none) →
      s.spotsUpTo ctx .write (p.field 0x18) (p.field 0x20).toNat = (dst, none) →
      ∃ t, exec (.copyComplete q (BitVec.ofNat 64 p.index)) s = .next (fin t))
    ∧ (∀ x : DWord, s.currentPacket q 5 = some (p, u) → u.readPlain ctx (p.field 0x10) 8 = .ok (bytesOfNum 8 x.toNat) →
      ∃ t, exec (.predPacket q) s = .next (fin t)
        ∧ (t.frontQueue q).arms = predArms p (some (condHolds (p.arg / 256 % 4) x (p.field 0x18))))
    ∧ (s.currentPacket q 6 = some (p, u) → p.progress ≠ .started →
      ∃ t : State, exec (.invalPacket q) s = .next (t.pump q) ∧ ∃ y ∈ t.shootdowns, y.packet = some (q.val, p.index))
    ∧ (s.currentPacket q 7 = some (p, u) → p.arg ≠ 1 → p.field 0x10 ≠ 0 →
      u.writePlain ctx (p.field 0x10) (bytesOfNum 8 u.time) = .ok v → exec (.markerPacket q) s = .next (fin v))
    ∧ (∀ l total, s.currentPacket q 1 = some (p, u) → s.checkLaunch q p = .ok (l, total) →
      ∃ t : State, exec (.launchPacket q) s = .next (t.pump q) ∧ t.launch? u.freshHandle = some l))
  ∧ (∀ (s : State) (core : Fin 384) (p : Placement) (plan : List Assignment) (a : Assignment) (h vi : Nat) (l : Launch)
      (v : VariantEntry) (x : Reserve), let n := s.launchField l recNext 8
    (∃ t : State, exec (.pilotSchedulingRound plan) s = .next t ∧ t.front.assignments = s.completePlan plan)
    ∧ (s.front.assignments.find? (fun y => y.core = core.val) = some a → a.stages = [] → a.tickets = [h] →
      s.launch? h = some l → s.takesTeams core l.ctx = true → l.aborted = false → l.draining = false → l.lost = false →
      (∀ e ∈ s.front.evicted, e.launch ≠ h) → n < s.launchField l recTotal 8 →
      (∀ c, l.pinOf n = some c → c = core.val) → l.header.select 0 l.size = some (vi, v) →
      (s.core core).reserve l.header v p.sub.val = some x → x.slots.Nodup → Memory.wf s.mem = true →
      ∃ (t : State) (id : Nat) (team : Team), exec (.tugClaim core p) s = .next t ∧ t.team? ⟨core, id⟩ = some team
        ∧ team.launch = h ∧ team.slots = x.slots ∧ t.launchField l recNext 8 = n + 1))
  ∧ (∀ (f : LongFields) (s s1 : State) (x : Issue) (a : LaneAccess), x.s.self.status = .running →
    s1.spotPoison a.spots = false →
    (∀ (i : Instr) (op : Op) (pa : Nat) (u : State), (i, op) ∈ [(Instr.depInc f, Op.depInc), (.depDec f, .depDec)] →
      s.ReadyWith op f .fields counterChecks x →
      x.s.virtualAccess s.issuing .atomic (x.s.self.uniformLane f) (laneVal x.a 0) 8 = (s1, .ok a) →
      a.spots = (List.range 8).map (fun j => Spot.device (.mem (pa + j))) →
      u = (s1.flushStores s.issuing).markAccess s.issuing op a → Memory.wf u.mem = true →
      let b := (laneVal x.b 0).toNat % 2 ^ 32
      ∃ t, exec i s = .next t ∧ Memory.readNum t.mem pa 8 =
        (if op = .depInc then u.loadNum s.issuing false a.spots + b
          else u.loadNum s.issuing false a.spots + 2 ^ 64 - b) % 2 ^ 64)
    ∧ (s.self.resumeWait = none → s.ReadyWith .depWait f .never counterChecks x →
      x.s.virtualAccess s.issuing .read (x.s.self.uniformLane f) (laneVal x.a 0) 8 = (s1, .ok a) → a.onHost = false →
      s1.counter a.counterAt.toNat ≤ 0 → ∃ t, exec (.depWait f) s = .next t ∧ x.Yields t))
  ∧ (∀ (f : LongFields) (s : State) (x : Issue) (team : Team), let at_ : TeamRef := ⟨s.issuing.core, x.s.self.team⟩
    x.s.self.kind = .general → x.s.team? at_ = some team →
    (s.self.resumeWait = none → s.ReadyWith .phase f .never (phaseChecks f) x → x.s.self.call = none →
      x.s.self.sup = false → team.phaseArrived = [] → ∃ t, exec (.phase f) s = .next t ∧ x.Blocks .phase t
        ∧ (t.team? at_).map (·.phaseArrived) = some [x.s.self.number])
    ∧ (s.ReadyWith .retire f .never (fun x => x.s.pure) x → team.ending = .no →
      ∃ t, exec (.retire f) s = .next t ∧ (t.team? at_).map (·.ending) = some .retire))
  ∧ (∀ (f : LongFields) (s s1 : State) (x : Issue) (h n : Nat) (l : Launch) (a : LaneAccess),
    let occ := (s1.descField l n 0x20 8 + 2 ^ 64 - s1.descField l n 0x18 8) % 2 ^ 64
    let gives := fun (i : Instr) (words v : Nat) => ∃ t, exec i s = .next t ∧ x.Awaits words (fun k _ => wordOf v k) t
    (x.s.ownLaunch = some (h, l) →
      (s.ReadyWith .qstat f .fields (fun x => do
        check (x.s.ownLaunch.isSome && x.s.stageOk (num32 x.b)) .illegalOperand
        x.s.pure) x →
        gives (.qstatQaddr f) 2 (l.area + BitVec.ofNat 64 (128 * (1 + (laneVal x.b 0).toNat % 2 ^ 32))).toNat)
      ∧ (s.ReadyWith .qstat f .fields (fun x => do
        check (x.s.ownLaunch.isSome && true) .illegalOperand
        x.s.pure) x → gives (.qstatTree f) 2 (Memory.readNum x.s.mem (l.pa 0x18) 8)))
    ∧ (s.ReadyWith .qstat f .fields (fun x => x.s.pure) x →
      x.s.virtualAccess s.issuing .read (x.s.self.uniformLane f) (laneVal x.a 0) 128 = (s1, .ok a) →
      s1.descriptorOf a = some (h, l, n) →
      gives (.qstatOcc f) 1 occ ∧ gives (.qstatRoom f) 1 (s1.descField l n 0x10 4 - occ)))

/-- R338, R339: mdrain, mdrain.load and mdrain.const, once the checks of R338 pass, with the berth not busy and
room in the drain queue, complete: the command is the last of the core's drain queue, with its bank, slot,
enables and pointer as they stood, and its berth is busy with no fault and no flags. A busy berth raises
BERTH_CONFLICT, and a full queue holds the group in stalled turns. mdresume of the team's held drain
completes: the berth is busy with no fault, and the drain goes on from its row, or starts anew after a KIND 4
or 5, or when KIND is 6 has only to complete. A drain that starts anew after it had already stored rows, which R154 forbids
to write again, passes over them: the model's reading of R343 beside R154 (log entry 49). R329, R339: and the entries of
the drain's queue are performed. -/
def Obligations.DrainCommandsComplete : Prop :=
  (
  (∀ (f : LongFields) (i : Instr) (dop : DrainOp) (s : State) (x : Issue),
    (i, dop) ∈ [(Instr.mdrain f, DrainOp.drain), (.mdrainLoad f, .load), (.mdrainConst f, .const)] →
    s.ReadyWith .mdrain f .sources (fun x => do
      check (x.drainOk dop f) .illegalOperand
      x.s.pure) x →
    let k := x.s.core s.issuing.core
    let b := (x.s.attrs s.issuing).berthBase + f.extBits 5 0
    ((k.berth b).state ≠ .busy → x.s.accepts s.issuing .drain = true →
      ∃ t c, exec i s = .next t ∧ x.Goes s t ∧ (t.core s.issuing.core).drain = k.drain ++ [c]
        ∧ c.op = dop ∧ c.berth = b ∧ c.bank = f.modBits 20 20 ∧ c.sel = f.modBits 26 22 ∧ c.row = 0 ∧ c.flags = 0
        ∧ c.held = none ∧ c.latched = none ∧ c.auto = false
        ∧ (dop = .drain → c.me = (laneVal x.c 0).toNat % 2 ^ 32 % 128 ∧ c.ne = (laneVal x.c 0).toNat % 2 ^ 32 / 256 % 128)
        ∧ c.p = (laneVal x.a 0).toNat % 2 ^ 32
        ∧ (∀ n, (t.core s.issuing.core).berth n = if n = b then ⟨.busy, none, 0⟩ else k.berth n)
        ∧ (t.core s.issuing.core).rings = k.rings ∧ (t.core s.issuing.core).matrix = k.matrix)
    ∧ ((k.berth b).state = .busy → exec i s = .next (s.trap s.issuing (Trap.plain .berthConflict)))
    ∧ ((k.berth b).state ≠ .busy → x.s.accepts s.issuing .drain = false →
      exec i s = .next (s.modSelf (fun g => g.stalled s.cycle (.accept .drain)))))
  ∧ (∀ (f : LongFields) (s : State) (x : Issue) (c : DrainCommand) (rest : List DrainCommand) (kind : Nat),
    let k := x.s.core s.issuing.core
    s.ReadyWith .mdresume f .sources (fun x => do
      let r := x.s.issuing
      check (x.s.berthOk r (num32 x.a) && x.s.heldDrain r (num32 x.a)) .illegalOperand
      x.s.pure) x →
    k.drain = c :: rest → c.held = some kind →
    ∃ t, exec (.mdresume f) s = .next t ∧ x.Goes s t
      ∧ (t.core s.issuing.core).berth c.berth = ⟨.busy, none, 0⟩
      ∧ (t.core s.issuing.core).drain =
          (if kind = 6 then { c with held := none, bad := false, resumed := true }
            else { c with held := none, latched := none, resumed := true
                          row := if kind = 4 ∨ kind = 5 then c.stored else c.row }) :: rest))
  ∧ (∀ (s : State) (core : Fin 384) (c : DrainCommand) (rest : List DrainCommand), let k := s.core core
    k.drain = c :: rest → (∀ d ∈ rest, d.passed = false ∧ d.id ≠ c.id) →
    (∀ (u : State) (image : Option (Word × Nat)), c.op = .drain → c.latched = none → c.held = none → c.ready = true →
      (∀ m ∈ k.matrix.queue, m.id ∉ c.after) → programOk (k.latch c.sel).program c.ne c.ring.isSome = true →
      s.drainRoom core c (appends (k.latch c.sel).program c.me c.ne) = (u, .ready image) →
      ∃ t : State, exec (.drainStart core) s = .next t
        ∧ (t.core core).drain = { c with latched := some (k.latch c.sel), image := image } :: rest)
    ∧ (∀ (l : Latched) (x : DrainRow), c.latched = some l → c.held = none → c.row + 1 < c.me → x.dst = none →
      x.dstr = none → drainRow l c.row c.ne c.scratchBytes (fun y => Memory.read k.win (c.scratchBase + y))
        ((List.range c.ne).map (fun j => BitVec.ofNat 32 (k.readWin (bankOffset c.bank c.row j) 4))) = .ok x →
      ∃ t : State, exec (.drainRowStore core) s = .next t
        ∧ (t.core core).drain = { c with row := c.row + 1, stored := c.row + 1, flags := c.flags ||| x.flags } :: rest)
    ∧ (c.op = .drain → c.latched.isSome = true → c.held = none → c.me ≤ c.row → c.bad = false → c.mmaBad = false →
      c.ring = none → s.advancesDone core c.id = true →
      ∃ t : State, exec (.drainComplete core) s = .next t ∧ (t.core core).drain = rest
        ∧ (t.core core).berth c.berth = ⟨.ready, none, c.flags⟩)
    ∧ (c.op ≠ .drain → ∃ t : State, exec (.drainConstantLoad core) s = .next t ∧ (t.core core).drain = rest
        ∧ (t.core core).berth c.berth = ⟨.ready, none, 0⟩))

/-- R366-R369: srg.load, srg.bound, srg.enable, srg.evict and srg.stat, with the privilege that each needs and by
a group that is no recovery group, complete. srg.load and srg.evict enter the surrogate queue, or while it is
full hold the group in stalled turns; srg.bound sets QBOUND of its region; srg.enable sets ENABLED and empties
the window of an id's entry; srg.stat gives the item of the entry that SUB names, or the place and size of a
resident image. Without the privilege srg.enable raises PRIVILEGE, and in a recovery group srg.load, srg.bound,
srg.enable and srg.evict raise PURITY; that PURITY comes before PRIVILEGE there, and that an id above 255 is loaded
and evicted as it stands, are the model's choices (log entries 46, 29). R357-R367: and the decision of
a call without an image, the end of a load, the forming of a recovery group and the arrival of a disable complete. -/
def Obligations.SurrogateControlCompletes : Prop :=
  (
  ∀ (f : LongFields) (s : State) (x : Issue),
    let r := s.issuing
    let k := (x.s.core s.issuing.core).surrogate
    let ctx := (x.s.attrs s.issuing).ctx
    let id := (laneVal x.b 0).toNat % 2 ^ 32
    let d := (x.s.context ctx).entry id
    let room := x.s.accepts r .surrogate
    let ready := s.ReadyWith .srg f .all (fun _ => .ok ()) x
    (ready → s.srgChecks f .user = .ok () →
      (room = true → ∃ t n user, exec (.srgLoad f) s = .next t ∧ t.self.pc = x.s.self.nextPc ∧ x.SameMasks t
        ∧ (t.core r.core).surrogate.queue = k.queue ++ [.load r.slot n id (laneVal x.a 0) ctx user none false]
        ∧ (user = true ↔ x.s.self.privilege = .user) ∧ s.SameMemory t ∧ x.s.SameWindows t
        ∧ (x.dest.mask ≠ 0 → x.dest.regs ≠ [] → ∃ o ∈ t.self.outstanding, o.id = n ∧ o.mask = x.dest.mask))
      ∧ (room = true → ∃ t, exec (.srgEvict f) s = .next t ∧ x.Goes s t
        ∧ (t.core r.core).surrogate.queue = k.queue ++ [.evict r.slot id])
      ∧ (room = false →
        exec (.srgLoad f) s = .next (s.modSelf (fun g => g.stalled s.cycle (.accept .surrogate)))
          ∧ exec (.srgEvict f) s = .next (s.modSelf (fun g => g.stalled s.cycle (.accept .surrogate))))
      ∧ ∃ t, exec (.srgBound f) s = .next t ∧ x.Goes s t
        ∧ (t.context ctx).qbound = (x.s.context ctx).qbound.set (f.extBits 5 0) ((laneVal x.a 0).setWidth 32))
    ∧ (ready → s.srgChecks f .system = .ok () → id < 256 → ∃ t, exec (.srgEnable f) s = .next t ∧ x.Goes s t
        ∧ (t.context ctx).entry id = { d with enabled := true, window := 0 }
        ∧ ∀ id', id' ≠ id → (t.context ctx).entry id' = (x.s.context ctx).entry id')
    ∧ ((s.group? r).isSome = true → s.fieldsOk r .srg f = true → s.self.kind ≠ .recovery → s.self.privilege ≠ .system →
        exec (.srgEnable f) s = .next (s.trap r (Trap.plain .privilege)))
    ∧ ((s.group? r).isSome = true → s.fieldsOk r .srg f = true → s.self.kind = .recovery →
        ∀ i ∈ [Instr.srgLoad f, .srgBound f, .srgEnable f, .srgEvict f], exec i s = .next (s.trap r (Trap.plain .purity)))
    ∧ ((s.group? r).isSome = true → s.prepare .srgStat f = .ok x → ∀ v,
        (id < 256 ∧ (f.ty, v) ∈ [(0, d.calls), (1, d.accepted), (2, d.rejected), (3, d.resFb), (4, d.sampled),
          (5, d.violations), (6, d.late), (7, d.errSum.toNat), (8, d.errMax.toNat),
          (9, d.gen.toNat * 2 ^ 32 + ((List.range (max 1 (min (x.s.context ctx).vwin 64))).filter d.window.getLsbD).length * 2 ^ 8
            + (if (Table.find k.resident id).isSome then 2 else 0) + (if d.enabled then 1 else 0))])
        ∨ (f.ty = 10 ∧ v = ((Table.find k.resident id).map (fun y => y.2 * 2 ^ 32 + y.1)).getD (2 ^ 64 - 1)) →
        ∃ t, exec (.srgStat f) s = .next t ∧ x.Awaits 2 (fun n _ => wordOf v n) t ∧ x.SameMasks t ∧ s.SameMemory t
          ∧ x.s.SameWindows t))
  ∧ (∀ (s : State) (core : Fin 384), let k := s.core core
    (∀ (slot : Nat) (inputs : List Lanes) (c : SurrogateCall) (rest : List SurrogateEntry),
      k.surrogate.queue = .call slot inputs :: rest → (s.group ⟨core, slot⟩).call = some c → c.state = .deciding →
      (s.group ⟨core, slot⟩).status = .running → Table.find k.surrogate.resident c.surrogate = none →
      ∃ t : State, exec (.surrogateDecision core) s = .next t ∧ (t.core core).surrogate.queue = rest
        ∧ (t.group ⟨core, slot⟩).call = some { c with state := .inPlace, inPlaceLanes := c.lanes })
    ∧ (∀ (slot result id ctx : Nat) (addr : DWord) (user refused : Bool) (awaits : Option DWord) (rest : List SurrogateEntry)
        (bs : List Byte) (u : State) (off : Nat), let x := imageOf (fun i => bs.toArray.getD i 0)
      k.surrogate.queue = .load slot result id addr ctx user awaits refused :: rest →
      addr.toNat % 128 = 0 → Table.find k.surrogate.resident id = none → refused = false →
      (fetchImage { core := core, ctx := ctx, user := user, sys := slot = 15, physical := false } addr).run s = (.ok (some bs), u) →
      x.valid (fun i => bs.toArray.getD i 0) = true → k.surrogate.resident.length < 16 →
      k.surrogate.freeRun x.size = some off → ∃ t : State, exec (.srgLoadComplete core) s = .next t
        ∧ (t.core core).surrogate.queue = rest ∧ Table.find (t.core core).surrogate.resident id = some (off, x.size))
    ∧ (∀ (slot : Nat) (x : SlipRecord) (rest : List SlipRecord), s.recoveryDue core = true → k.recoverySlot = some slot →
      s.recoveryRecords core = x :: rest → ∃ (t : State) (g : Group), exec (.recoveryGroupFormation core) s = .next t
        ∧ t.group? ⟨core, slot⟩ = some g ∧ g.kind = .recovery ∧ g.pc = x.body)
    ∧ (∀ (id : Fin 256) (enabled : Bool) (gen : Word),
      ∃ t : State, exec (.surrogateDisableArrival core id enabled gen) s = .next t
        ∧ ((t.core core).surrogate.copy id).enabled = enabled))

/-- R376-R380: lift.push, lift.push.bulk, lift.pop, lift.free and lift.wait, once the checks of R377 pass. A push of n
registers with n free slots and no bulk push under way puts its n entries, 0 in the inactive lanes, at the end of the
partner's FIFO; a bulk push leaves them to the core's bulk queue and makes its berth busy; a pop takes the n oldest
entries, with as many present, and each register awaits its entry, and otherwise ends the run and waits, with its
latches and operand cache empty in both cases (R47); lift.free gives the free slots; lift.wait goes on once A slots
are free. What cannot be taken yet holds the group in stalled turns. R375, R378, R384: and an entry arrives, a bulk
push enters its next entry, and the gate closes and opens. -/
def Obligations.LiftInstructionsComplete : Prop :=
  (
  ∀ (f : LongFields) (s : State) (x : Issue),
    let r := s.issuing
    let c := s.issuing.core
    let p := x.s.core (partnerOf c)
    let k := x.s.core c
    let n := f.modBits 14 12 + 1
    let free := 16 - p.incoming.length - p.taking
    let formed := fun (es : List Lanes) =>
      (f.modBits 14 12 = 0 → es = x.a.map (fun w => Lanes.merge x.lanes w Lanes.zero))
        ∧ (f.modBits 14 12 ≠ 0 → f.u = false → ∀ a, Operand.ofCode f.a = .v a → es.length = n
            ∧ ∀ m < n, ∀ l < 32, (es.getD m Lanes.zero).at' l =
                if x.lanes.lane l then (x.s.readReg r (.v (a + m))).at' l else 0)
    (s.ReadyWith .liftPush f .sources (liftChecks f f.a false) x →
      (n ≤ free → k.bulk = [] → ∃ t es, exec (.liftPush f) s = .next t ∧ x.Goes s t ∧ formed es
        ∧ (t.core (partnerOf c)).incoming = p.incoming ++ es.map (fun v => ⟨v, false, false⟩))
      ∧ (free < n ∨ k.bulk ≠ [] → exec (.liftPush f) s = .next (s.modSelf (fun g => g.stalled s.cycle (.accept (.lift n))))))
    ∧ (s.ReadyWith .liftPush f .sources (liftChecks f f.a true) x →
      let b := (x.s.attrs r).berthBase + f.extBits 5 0
      ((k.berth b).state ≠ .busy → k.bulk.length < 4 → ∃ t es, exec (.liftPushBulk f) s = .next t ∧ x.Goes s t
        ∧ formed es ∧ (t.core c).bulk = k.bulk ++ [⟨x.s.self.team, b, es⟩] ∧ (t.core c).berth b = ⟨.busy, none, 0⟩)
      ∧ ((k.berth b).state = .busy → exec (.liftPushBulk f) s = .next (s.trap r (Trap.plain .berthConflict)))
      ∧ ((k.berth b).state ≠ .busy → 4 ≤ k.bulk.length →
          exec (.liftPushBulk f) s = .next (s.modSelf (fun g => g.stalled s.cycle (.accept .bulk)))))
    ∧ (s.ReadyWith .liftPop f .sources (liftChecks f f.d false) x →
      let present := (k.incoming.filter (·.present)).length
      (n ≤ present → ∃ t, exec (.liftPop f) s = .next t ∧ x.SameMasks t ∧ s.SameMemory t ∧ x.s.SameWindows t
        ∧ t.self.pc = x.s.self.nextPc ∧ (t.core c).incoming = k.incoming.drop n ∧ (t.core c).taking = k.taking + n
        ∧ t.self.history = [] ∧ t.self.cache = List.replicate 8 none
        ∧ ∀ m < n, ∀ reg e, x.dest.regs[m]? = some reg → k.incoming[m]? = some e →
            ∃ o ∈ t.self.outstanding, o.mask = x.dest.mask ∧ Instr.loadReturn r o.id ∈ t.agenda ∧ o.poisoned = e.poisoned
              ∧ o.regs = [(reg, if f.u then Lanes.splat (e.vals.at' x.s.self.gateLane) else e.vals)])
      ∧ (present < n → ∃ t, exec (.liftPop f) s = .next t ∧ x.Blocks (.liftPop n) t ∧ (t.core c).incoming = k.incoming))
    ∧ ((s.group? r).isSome = true → s.prepare .liftFree f = .ok x →
      ∃ t, exec (.liftFree f) s = .next t ∧ x.Awaits 1 (fun _ _ => BitVec.ofNat 32 free) t ∧ x.SameMasks t
        ∧ s.SameMemory t ∧ x.s.SameWindows t)
    ∧ (s.ReadyWith .liftWait f .never (fun x => check (num32 x.a ≤ 16) .illegalOperand) x →
      let a := (laneVal x.a 0).toNat % 2 ^ 32
      (a ≤ free → ∃ t, exec (.liftWait f) s = .next t ∧ x.Goes s t ∧ x.Passes t)
      ∧ (free < a → exec (.liftWait f) s = .next (s.modSelf (fun g => g.stalled s.cycle (.accept (.liftWait a)))))))
  ∧ (∀ (s : State) (core : Fin 384), let k := s.core core
    (∀ (before after : List LiftEntry) (e : LiftEntry), k.incoming = before ++ e :: after → (∀ x ∈ before, x.present = true) →
      e.present = false → ∃ t : State, exec (.liftEntryArrival core) s = .next t
        ∧ (t.core core).incoming = before ++ { e with present := true } :: after)
    ∧ (∀ (b : BulkPush) (rest : List BulkPush) (e : Lanes) (more : List Lanes), let p := s.core (partnerOf core)
      k.bulk = b :: rest → b.entries = e :: more → p.incoming.length + p.taking < 16 →
      ∃ t : State, exec (.liftBulkEntry core) s = .next t
        ∧ (t.core (partnerOf core)).incoming = p.incoming ++ [⟨e, false, false⟩])
    ∧ (isUpper core = false →
      (k.gate = .pending → s.gateHolds core = true →
        ∃ t : State, exec (.gateEntry core) s = .next t ∧ (t.core core).gate = .gated)
      ∧ (k.gate = .waking → k.gateReq = false →
        ∃ t : State, exec (.gateWakeComplete core) s = .next t ∧ (t.core core).gate = .on)))

/-- R250, R251: mrs and msr, short and long, of a valid register by a group that has the privilege complete. mrs
gives D the register's value: sr.fpst lane by lane, sr.ustat, sr.foot, sr.stkp with every change of SP
performed, sr.stklim, sr.time, sr.tstat, sr.bmap, sr.tvec, sr.swapth, sr.mgov, sr.qbound, sr.vthresh, sr.vwin,
sr.liftfree and sr.gate. msr writes the
register when it acts: sr.fpst of the lanes that take flags, NU by a 1, SP, LIMIT, sr.tvec, sr.swapth, sr.mgov,
sr.vthresh, sr.vwin and, on a lower core, REQ of sr.gate, with the state that R384 gives the gate; a read-only register ignores it.
Without the privilege both raise PRIVILEGE, and for a
number or index that is none, ILLEGAL_OPERAND. The lanes of sr.fpst that msr writes under U = 1, and that ILLEGAL_OPERAND comes
before PURITY, are the model's readings (log entries 23, 46). -/
def Obligations.SystemRegistersReadAndWrite : Prop :=
  ∀ (i : Instr) (op : Op) (f : LongFields) (s : State) (x : Issue), i.Has op f → s.Ready op f x →
    let r := s.issuing
    let num := f.extBits 7 0
    let idx := f.extBits 13 8
    let g := x.s.self
    let valid := num < 0x10 ∧ (idx = 0 ∨ num = 0x0B)
    let ctx := (x.s.attrs r).ctx
    let c := x.s.context ctx
    let kc := x.s.core r.core
    let p := x.s.core (partnerOf r.core)
    let bits := (laneVal x.a 0).toNat
    let state := fun (y : GateState) => if y = .on then 0 else if y = .pending then 1 else if y = .gated then 2 else 3
    (¬ valid → op = .mrs ∨ op = .msr → exec i s = .next (s.trap r (Trap.plain .illegalOperand)))
    ∧ (op = .mrs → valid → g.privilege.atLeast (if num = 0x08 then .supervisor else if num = 0x0F then .system else .user) = true →
        ∃ t, exec i s = .next t ∧ x.SameMasks t ∧ s.SameMemory t ∧ x.s.SameWindows t
          ∧ x.Delivers .mrs f (fun k l =>
              let v := if num = 0x04 then SysValue.w32 (BitVec.ofNat 32 g.spFinal)
                else if num = 0x01 then .lanes g.fpst
                else if num = 0x02 then .w32 (if g.nonUniform then 1 else 0)
                else if num = 0x03 then .w32 (x.s.footValue r)
                else if num = 0x05 then .w32 (BitVec.ofNat 32 g.limit)
                else if num = 0x06 then .w64 (BitVec.ofNat 64 (x.s.cycle * 10 / 33))
                else if num = 0x00 then .w64 (x.s.bmap r)
                else if num = 0x07 then
                  .w32 (BitVec.ofNat 32 (g.cause * 2 ^ 8 + (if g.kind = .tug then 2 else 0) + (if g.sup then 1 else 0)))
                else if num = 0x08 then .w64 c.tvec
                else if num = 0x09 then .w32 (BitVec.ofNat 32 kc.swapth)
                else if num = 0x0A then
                  .w32 (BitVec.ofNat 32 (kc.matrix.held * 2 ^ 22 + kc.matrix.ramp * 2 ^ 11 + kc.matrix.budget))
                else if num = 0x0B then .w32 (c.qbound.getD idx 0)
                else if num = 0x0C then .w32 (BitVec.ofNat 32 c.vthresh)
                else if num = 0x0D then .w32 (BitVec.ofNat 32 c.vwin)
                else if num = 0x0E then .w32 (BitVec.ofNat 32 ((kc.incoming.filter (fun e => e.present)).length * 2 ^ 8
                  + (16 - p.incoming.length - p.taking)))
                else .w32 (if 48 ≤ r.core % 96 then 0 else BitVec.ofNat 32 (state kc.gate * 2 + (if kc.gateReq then 1 else 0)))
              match v with
              | .lanes y => y.at' (x.operandLane f l)
              | .w32 y => y
              | .w64 y => wordPart y k) t)
    ∧ (op = .mrs ∨ op = .msr → valid → (op = .msr → g.kind ≠ .recovery) →
        g.privilege.atLeast (if op = .mrs then (if num = 0x08 then .supervisor else if num = 0x0F then .system else .user)
          else if num ∈ [0x04, 0x05, 0x08, 0x09, 0x0A, 0x0C, 0x0D, 0x0F] then .system else .user) = false →
        exec i s = .next (s.trap r (Trap.plain .privilege)))
    ∧ (op = .msr → valid → (num = 0x01 ∨ num = 0x02 ∨ g.kind ≠ .recovery) →
        g.privilege.atLeast
          (if num ∈ [0x04, 0x05, 0x08, 0x09, 0x0A, 0x0C, 0x0D, 0x0F] then .system else .user) = true →
        ∃ t, exec i s = .next t ∧ t.self.pc = g.nextPc ∧ x.SameMasks t ∧ s.SameMemory t ∧ x.s.SameWindows t
          ∧ (∀ l < 32, t.self.fpst.at' l = if num = 0x01 ∧ (x.acts && x.flagLanes.lane l) = true then
              (x.a.headD Lanes.zero).at' l &&& 0x1F else g.fpst.at' l)
          ∧ t.self.nonUniform = (if x.acts && num = 0x02 && bits.testBit 0 then false else g.nonUniform)
          ∧ t.self.sp = (if x.acts && num = 0x04 then bits % 2 ^ 17 else g.sp)
          ∧ t.self.limit = (if x.acts && num = 0x05 then bits % 2 ^ 17 else g.limit)
          ∧ (t.context ctx).tvec = (if x.acts && num = 0x08 then laneVal x.a 0 &&& ~~~0x1FE#64 else (x.s.context ctx).tvec)
          ∧ (t.core r.core).swapth = (if x.acts && num = 0x09 then bits % 2 ^ 16 else (x.s.core r.core).swapth)
          ∧ (t.context ctx).vthresh = (if x.acts && num = 0x0C then bits % 128 else (x.s.context ctx).vthresh)
          ∧ (t.context ctx).vwin = (if x.acts && num = 0x0D then bits % 128 else (x.s.context ctx).vwin)
          ∧ (t.core r.core).matrix = (if x.acts && num = 0x0A then
              { kc.matrix with held := bits / 2 ^ 22 % 2 ^ 10, ramp := bits / 2 ^ 11 % 2 ^ 11, budget := bits % 2 ^ 11 } else kc.matrix)
          ∧ (let changes := x.acts && num = 0x0F && decide (r.core % 96 < 48) && (kc.gateReq != bits.testBit 0)
            (t.core r.core).gateReq = (if changes then bits.testBit 0 else kc.gateReq)
              ∧ (t.core r.core).gate = (if changes then (if bits.testBit 0 then (if kc.gate = .on then .pending else kc.gate)
                else if kc.gate = .pending then .on else if kc.gate = .gated then .waking else kc.gate) else kc.gate)
              ∧ (changes = true → kc.gate = .gated → Instr.gateWakeComplete (Fin.ofNat 384 r.core) ∈ t.agenda)))
    ∧ ∀ n < 64, (x.s.bmap r).getLsbD n =
        decide (n < (x.s.attrs r).berthCount ∧ (kc.berth ((x.s.attrs r).berthBase + n)).state = .ready)

/-- R307, R321: mma, mzero, mlda and bld of the holder of the baton, once the checks of R321 pass, with the berth
not busy and room in the matrix queue, complete: the command is the last of the core's queue, with its berth,
bank, types and operands as they stood and not yet fired, and its berth is busy with no fault and no flags;
nothing else of the core but the issuing group changes. A busy berth raises BERTH_CONFLICT, and a full queue
holds the group in stalled turns; neither enqueues anything. R324, R130: mwait of a team berth that is ready
and holds no fault completes: the berth's flags are ORed into sr.fpst of the lanes that take flags, and the
berth keeps its state with no flags, or with CN is free. While it is not ready the group takes stalled turns. -/
def Obligations.MatrixCommandsEnterTheQueue : Prop :=
  (
  ∀ (f : LongFields) (i : Instr) (op : Op) (mop : MatrixOp) (s : State) (x : Issue),
    (i, op, mop) ∈ [(Instr.mma f, Op.mma, MatrixOp.mma), (.mzero f, .mzero, .mzero), (.mlda f, .mlda, .mlda),
      (.bld f, .bld, .bld)] →
    s.ReadyWith op f .sources (matrixChecks mop f) x →
    let k := x.s.core s.issuing.core
    let b := (x.s.attrs s.issuing).berthBase + f.extBits 5 0
    let num := fun (ws : List Lanes) => (laneVal ws 0).toNat % 2 ^ 32
    ((k.berth b).state ≠ .busy → x.s.accepts s.issuing .matrix = true →
      ∃ t c, exec i s = .next t ∧ x.Goes s t
        ∧ (t.core s.issuing.core).matrix = { k.matrix with queue := k.matrix.queue ++ [c] }
        ∧ c.op = mop ∧ c.berth = b ∧ c.bank = f.modBits 20 20 ∧ c.aType = f.ty ∧ c.fired = false
        ∧ (mop = .mma → c.k = num x.a ∧ c.ob = num x.b ∧ c.me = num x.c % 128 ∧ c.ne = num x.c / 256 % 128
            ∧ c.bType = f.modBits 18 15 ∧ c.zero = decide (f.extBits 10 10 = 1) ∧ c.sat = decide (f.modBits 19 19 = 1)
            ∧ c.aRing = (x.s.attrs s.issuing).ringBase + f.extBits 9 6 ∧ c.dr = decide (f.modBits 21 21 = 1))
        ∧ (mop = .mlda → c.p = num x.a) ∧ (mop = .bld → c.p = num x.a ∧ c.k = num x.b ∧ c.ob = num x.c)
        ∧ (∀ n, (t.core s.issuing.core).berth n = if n = b then ⟨.busy, none, 0⟩ else k.berth n)
        ∧ (t.core s.issuing.core).rings = k.rings ∧ (t.core s.issuing.core).drain = k.drain
        ∧ ∀ c', c' ≠ s.issuing.core → t.core c' = x.s.core c')
    ∧ ((k.berth b).state = .busy → exec i s = .next (s.trap s.issuing (Trap.plain .berthConflict)))
    ∧ ((k.berth b).state ≠ .busy → x.s.accepts s.issuing .matrix = false →
      exec i s = .next (s.modSelf (fun g => g.stalled s.cycle (.accept .matrix)))))
  ∧ (
  ∀ (f : LongFields) (s : State) (x : Issue),
    let n := (laneVal x.a 0).toNat % 2 ^ 32
    let b := (x.s.attrs s.issuing).berthBase + n
    let k := x.s.core s.issuing.core
    s.ReadyWith .mwait f .never (fun x => check (x.s.berthOk x.s.issuing (num32 x.a)) .illegalOperand) x →
    n < 64 → (k.berth b).fault = none →
    ((k.berth b).state = .ready → ∃ t, exec (.mwait f) s = .next t ∧ x.SelfAdvances x.s.self.nextPc [] t ∧ x.SameMasks t
        ∧ t.self.history = (none :: x.s.self.history).take 3 ∧ t.self.cache = x.s.self.cache
        ∧ (∀ l < 32, t.self.fpst.at' l = if x.flagLanes.lane l then x.s.self.fpst.at' l ||| (k.berth b).flags.setWidth 32
            else x.s.self.fpst.at' l)
        ∧ (∀ m, (t.core s.issuing.core).berth m =
            if m = b then (if f.modBits 11 11 = 1 then Berth.free else ⟨.ready, none, 0⟩) else k.berth m)
        ∧ s.SameMemory t ∧ x.s.SameWindows t)
    ∧ ((k.berth b).state ≠ .ready → exec (.mwait f) s = .next (s.modSelf (fun g => g.stalled s.cycle (.accept (.berth b))))))

/-- R299, R300: ring.decl, ring.adv.prod, ring.adv.cons and ring.stat, once their checks pass, complete. ring.decl,
when no accepted command names the ring, sets its base and size from A and its prod and cons to 0. ring.adv.cons moves
cons by A, at most the occupancy; ring.adv.prod, with no reservation outstanding, moves prod by A, at most the room;
more raises RING_OVERRUN. ring.stat gives prod and cons. Every other ring, memory and the windows are as they were.
R308, R309: mxb.take, mxb.pass and mxb.query by a group of a team complete. mxb.take gives the group the baton when
nobody holds it and nobody waits, goes on when the group holds it, and otherwise puts the group once among the waiters
and holds it in stalled turns. mxb.pass, by the holder, gives the baton to the head of the waiters, who holds it from
the next cycle, and by another group raises MATRIX_FAULT. mxb.query gives the number of waiters in the high half and
the holder, or bit 31, in the low. -/
def Obligations.RingAndBatonInstructionsComplete : Prop :=
  (
  ∀ (f : LongFields) (s : State) (x : Issue),
    let c := s.issuing.core
    let n := (x.s.attrs s.issuing).ringBase + f.extBits 3 0
    let a := (laneVal x.a 0).toNat
    (s.ReadyWith .ringDecl f .fields (declChecks f) x → x.s.ringNamed c n = false →
      ∃ t, exec (.ringDecl f) s = .next t ∧ x.Goes s t ∧ (∀ m, m ≠ n → t.ring? c m = x.s.ring? c m)
        ∧ t.ring? c n = some ⟨(x.s.attrs s.issuing).scratchBase + a % 2 ^ 32, a / 2 ^ 32, 0, 0, []⟩)
    ∧ (∀ y, s.ReadyWith .ringAdv f .fields (ringCheck f) x → x.s.ring? c n = some y →
      (f.modBits 11 11 = 1 → a % 2 ^ 32 ≤ (y.prod - y.cons).toNat →
        ∃ t, exec (.ringAdv f) s = .next t ∧ x.Goes s t ∧ (∀ m, m ≠ n → t.ring? c m = x.s.ring? c m)
          ∧ t.ring? c n = some { y with cons := y.cons + BitVec.ofNat 32 a })
      ∧ (f.modBits 11 11 ≠ 1 → y.reserved = [] → (y.prod - y.cons).toNat + a % 2 ^ 32 ≤ y.size →
        ∃ t, exec (.ringAdv f) s = .next t ∧ x.Goes s t ∧ (∀ m, m ≠ n → t.ring? c m = x.s.ring? c m)
          ∧ t.ring? c n = some { y with prod := y.prod + BitVec.ofNat 32 a })
      ∧ ((f.modBits 11 11 = 1 ∧ (y.prod - y.cons).toNat < a % 2 ^ 32)
          ∨ (f.modBits 11 11 ≠ 1 ∧ y.reserved = [] ∧ y.size < (y.prod - y.cons).toNat + a % 2 ^ 32) →
        exec (.ringAdv f) s = .next (s.trap s.issuing (Trap.plain .ringOverrun))))
    ∧ (∀ y, s.ReadyWith .ringStat f .fields (ringCheck f) x → x.s.ring? c n = some y →
      ∃ t, exec (.ringStat f) s = .next t ∧ x.Awaits 2 (fun k _ => if k = 0 then y.prod else y.cons) t ∧ x.SameMasks t
        ∧ t.self.fpst = x.s.self.fpst ∧ s.SameMemory t ∧ x.s.SameWindows t ∧ ∀ m, t.ring? c m = x.s.ring? c m))
  ∧ (
  ∀ (f : LongFields) (s : State) (x : Issue) (team : Team), (s.group? s.issuing).isSome = true → s.prepare .mxb f = .ok x →
    let at_ : TeamRef := ⟨s.issuing.core, x.s.self.team⟩
    let n := x.s.self.number
    x.s.self.kind = .general → x.s.team? at_ = some team →
    (team.batonHolder = some n → team.batonFrom ≤ x.s.cycle →
        ∃ t, exec (.mxbTake f) s = .next t ∧ x.Goes s t ∧ t.team? at_ = some team)
    ∧ (team.batonHolder = some n → x.s.cycle < team.batonFrom →
        exec (.mxbTake f) s = .next (s.modSelf (fun g => g.stalled s.cycle (.accept .baton))))
    ∧ (team.batonHolder = none → team.batonQueue = [] →
        ∃ t, exec (.mxbTake f) s = .next t ∧ x.Goes s t ∧ t.team? at_ = some { team with batonHolder := some n, batonFrom := 0 })
    ∧ (∀ m team', team.batonHolder = some m → m ≠ n → s.self.team = x.s.self.team → s.team? at_ = some team' →
        team'.batonQueue = team.batonQueue →
        ∃ t, exec (.mxbTake f) s = .next t ∧ t.self.pc = s.self.pc ∧ t.self.hold = .accept .baton
          ∧ (t.team? at_).map (·.batonQueue) =
              some (if n ∈ team.batonQueue then team.batonQueue else team.batonQueue ++ [n]))
    ∧ (team.batonHolder = some n → team.batonFrom ≤ x.s.cycle → ∃ t, exec (.mxbPass f) s = .next t ∧ x.Goes s t
        ∧ t.team? at_ = some { team with
            batonHolder := team.batonQueue.head?, batonQueue := team.batonQueue.tail
            batonFrom := if team.batonQueue = [] then 0 else x.s.cycle + 1 })
    ∧ (team.batonHolder ≠ some n ∨ x.s.cycle < team.batonFrom → exec (.mxbPass f) s = .next (s.trap s.issuing (Trap.plain .matrixFault)))
    ∧ (∃ t, exec (.mxbQuery f) s = .next t ∧ x.SameMasks t ∧ s.SameMemory t ∧ x.s.SameWindows t ∧ t.team? at_ = some team
        ∧ x.Awaits 1 (fun _ _ => BitVec.ofNat 32 (team.batonQueue.length * 2 ^ 16 + team.batonHolder.getD (2 ^ 31))) t))

/-- bar.arrive, bar and bar.wait (R246), short and long, by a group of a team. An arrival that has not been made
at this instance, with the instance's count field, joins the arrived set; when the arrivals reach E the
instance completes, its generation advancing and its arrived set emptied. bar.arrive goes on; bar and bar.wait
end the run, and wait until the instance at which the group last arrived has completed. `s1` is the state once
the group's earlier stores, which the arrival releases, have been performed; they leave the group and its team
as they were. waitb.all, waitb.any, ffb and bclr (R248), short and long, over berths of the team, none of
which holds a fault. waitb.all ends when every masked berth is ready, and with .c frees them; waitb.any when
one is; otherwise the group waits. ffb gives the lowest masked ready berth, or 64, and with .c frees it; bclr
frees every masked berth that is ready. -/
def Obligations.BarrierAndBerthInstructionsComplete : Prop :=
  (
  ∀ (i : Instr) (f : LongFields) (s s1 : State) (x : Issue) (team : Team),
    let r := s.issuing
    let id := f.extBits 3 0
    let n := f.extBits 9 4
    let b := Table.get team.barriers Barrier.init id
    let live := (team.slots.filter (fun slot => (x.s.group ⟨r.core, slot⟩).status ≠ .exited)).length
    let last := (if n = 0 then live else n) ≤ b.arrived.length + 1
    let after : Barrier := if last then ⟨b.generation + 1, none, []⟩ else ⟨b.generation, some n, b.arrived ++ [x.s.self.number]⟩
    x.s.self.kind = .general → x.s.self.status = .running → x.s.self.resumeWait = none →
    (s.self.resumeWait = none) → x.s.team? ⟨r.core, x.s.self.team⟩ = some team → s1 = x.s.flushStores r →
    (∀ r', s1.group? r' = x.s.group? r') → (∀ t', s1.team? t' = x.s.team? t') → s1.cycle = x.s.cycle → s1.issuing = r →
    ((n ≤ team.slots.length ∧ x.s.self.number ∉ b.arrived ∧ (b.count = none ∨ b.count = some n)) →
      (i.Has .barArrive f → s.Ready .barArrive f x →
        ∃ t, exec i s = .next t ∧ t.self.pc = x.s.self.nextPc ∧ t.self.status = .running ∧ x.SameMasks t
          ∧ Table.find t.self.arrivals id = some b.generation
          ∧ (t.team? ⟨r.core, x.s.self.team⟩).map (fun y => Table.get y.barriers Barrier.init id) = some after)
      ∧ (i.Has .bar f → s.Ready .bar f x →
        ∃ t, exec i s = .next t ∧ Table.find t.self.arrivals id = some b.generation
          ∧ (t.team? ⟨r.core, x.s.self.team⟩).map (fun y => Table.get y.barriers Barrier.init id) = some after
          ∧ if last then t.self.pc = x.s.self.nextPc ∧ t.self.status = .running ∧ t.self.run = 0
            else x.Blocks (.barrier id b.generation) t))
    ∧ (∀ gen, Table.find x.s.self.arrivals id = some gen → i.Has .barWait f → s.Ready .barWait f x →
        ∃ t, exec i s = .next t ∧ if gen < b.generation then x.Yields t else x.Blocks (.barrier id gen) t))
  ∧ (
  ∀ (i : Instr) (op : Op) (f : LongFields) (s : State) (x : Issue), i.Has op f → s.Ready op f x →
    let r := s.issuing
    let m := laneVal x.a 0
    let bits := (List.range 64).filter m.getLsbD
    let base := (x.s.attrs r).berthBase
    let ready := fun n => ((x.s.core r.core).berth (base + n)).state = .ready
    let berth := fun (t : State) n => (t.core r.core).berth (base + n)
    let consume := f.modBits 16 16 = 1
    s.self.resumeWait = none →
    (∀ n ∈ bits, n < (x.s.attrs r).berthCount) → (∀ n ∈ bits, ((x.s.core r.core).berth (base + n)).fault = none) →
    (op = .waitbAll →
      ((∀ n ∈ bits, ready n) → ∃ t, exec i s = .next t ∧ x.Yields t
        ∧ ∀ n, berth t n = if consume ∧ n ∈ bits then Berth.free else berth x.s n)
      ∧ (¬ (∀ n ∈ bits, ready n) → ∃ t, exec i s = .next t ∧ x.Blocks (.berthsAll m (decide consume)) t
        ∧ ∀ n, berth t n = berth x.s n))
    ∧ (op = .waitbAny →
      ((∃ n ∈ bits, ready n) → ∃ t, exec i s = .next t ∧ x.Yields t ∧ ∀ n, berth t n = berth x.s n)
      ∧ (¬ (∃ n ∈ bits, ready n) → ∃ t, exec i s = .next t ∧ x.Blocks (.berthsAny m) t ∧ ∀ n, berth t n = berth x.s n))
    ∧ (op = .ffb →
      ∃ t, exec i s = .next t ∧ t.self.pc = x.s.self.nextPc ∧ x.SameMasks t
        ∧ (let n := ((bits.filter (fun n => decide (ready n))).head?).getD 64
           (x.dest.mask ≠ 0 → ∀ reg, x.dest.regs[0]? = some reg → ∃ e ∈ t.self.inflight, e.reg = reg
              ∧ e.due = x.s.cycle + 4 * fixedClass (shape .ffb f) ∧ ∀ l < 32, e.vals.at' l = BitVec.ofNat 32 n)
           ∧ ∀ k, berth t k = if consume ∧ k = n ∧ n < 64 then Berth.free else berth x.s k))
    ∧ (op = .bclr →
      ∃ t, exec i s = .next t ∧ t.self.pc = x.s.self.nextPc ∧ x.SameMasks t
        ∧ ∀ n, berth t n = if n ∈ bits ∧ ready n then Berth.free else berth x.s n))

/-- R356, R358: srg.open of a region of the kernel, once its checks pass, goes to the region's CLOSE: with no lane
the call is done, and otherwise the call of those lanes enters the surrogate queue, or while that is full the
group takes stalled turns. srg.close of the call's region by the calling group: an undecided call waits, a
call that is done ends, a call decided in place runs the body in its lanes, and a call whose body has run ends
with em as it was at srg.open. R359: an answered call waits until its records are deposited; then each lane with a record takes
its outputs in the renamed output registers and no other lane changes, and the call ends, unless the core's GEN has changed and
trusted lanes are left: these count as late and enter the Slipway, or run the body where it has no room. Another region raises
SURROGATE_FAULT, and the srg.close of a recovery group
ends the group: R363, its output registers' lanes are deposited in the records that it runs, and those of killed origins are
dropped; R364, a sample counts, with its error, in the directory's entry, and disables the surrogate when the violations among
the newest samples reach THRESH. -/
def Obligations.SurrogateCallsOpenAndClose : Prop :=
  (∀ (f : LongFields) (s : State) (x : Issue) (e : RegionEntry) (text : DWord),
    s.ReadyWith .srgOpen f .never (openChecks f) x → x.s.regionOf s.issuing (f.extBits 5 0) = some (e, text) →
    let k := x.s.core s.issuing.core
    let lanes := x.s.self.callLanes f
    let close := (text + BitVec.ofNat 64 e.close) &&& ~~~3#64
    (lanes = 0 → ∃ t c, exec (.srgOpen f) s = .next t ∧ t.self.pc = close ∧ t.self.call = some c ∧ c.state = .done
        ∧ c.region = f.extBits 5 0 ∧ x.SameMasks t ∧ s.SameMemory t ∧ x.s.SameWindows t
        ∧ (t.core s.issuing.core).surrogate = k.surrogate)
    ∧ (lanes ≠ 0 → x.s.accepts s.issuing .surrogate = true → ∃ t c inputs, exec (.srgOpen f) s = .next t ∧ t.self.pc = close
        ∧ t.self.call = some c ∧ c.state = .deciding ∧ c.lanes = lanes ∧ c.region = f.extBits 5 0
        ∧ c.surrogate = (laneVal x.b 0).toNat % 2 ^ 32 ∧ c.emAtOpen = x.s.self.em ∧ c.body = text + BitVec.ofNat 64 e.body
        ∧ (t.core s.issuing.core).surrogate.queue = k.surrogate.queue ++ [.call s.issuing.slot inputs]
        ∧ inputs = (List.range (f.modBits 13 11 + 1)).map (fun m => x.s.readReg s.issuing (.v (f.a.toNat + m)))
        ∧ x.SameMasks t ∧ s.SameMemory t ∧ x.s.SameWindows t)
    ∧ (lanes ≠ 0 → x.s.accepts s.issuing .surrogate = false →
        exec (.srgOpen f) s = .next (s.modSelf (fun g => g.stalled s.cycle (.accept .surrogate)))))
  ∧ (∀ (f : LongFields) (s : State) (x : Issue) (c : SurrogateCall),
    (s.group? s.issuing).isSome = true → s.prepare .srgClose f = .ok x → x.s.self.recovery = none →
    x.s.self.call = some c →
    (c.region ≠ f.extBits 5 0 → exec (.srgClose f) s = .next (s.trap s.issuing (Trap.plain .surrogateFault)))
    ∧ (c.region = f.extBits 5 0 → c.state = .done →
        ∃ t, exec (.srgClose f) s = .next t ∧ x.Yields t ∧ t.self.call = none ∧ s.SameMemory t)
    ∧ (c.region = f.extBits 5 0 → c.state = .deciding →
        ∃ t, exec (.srgClose f) s = .next t ∧ x.Blocks .srgClose t ∧ t.self.call = some c ∧ s.SameMemory t)
    ∧ (c.region = f.extBits 5 0 → c.state = .inPlace →
        ∃ t, exec (.srgClose f) s = .next t ∧ t.self.pc = c.body &&& ~~~3#64 ∧ t.self.em = c.inPlaceLanes
          ∧ t.self.call = some { c with state := .bodyRun } ∧ t.self.status = .running ∧ t.self.run = 0 ∧ s.SameMemory t)
    ∧ (c.region = f.extBits 5 0 → c.state = .bodyRun → c.uniform = false →
        ∃ t, exec (.srgClose f) s = .next t ∧ t.self.pc = x.s.self.nextPc ∧ t.self.em = c.emAtOpen ∧ t.self.call = none
          ∧ t.self.v = x.s.self.v ∧ t.self.status = .running ∧ t.self.run = 0 ∧ s.SameMemory t)
    ∧ (c.region = f.extBits 5 0 → c.state = .answered →
        let r := s.issuing
        let way := (x.s.core r.core).surrogate.slipway
        let recs := way.filter (fun z => z.slot = r.slot && !z.orphan)
        let rest := way.filter (fun z => !(z.slot = r.slot && !z.orphan))
        let y := x.s.landOutputs r c
        let now := ((x.s.core r.core).surrogate.copy c.surrogate).gen
        let left := (List.range 32).filter (fun l => c.trusted.lane l && !recs.any (fun z => z.lane = l))
        let d := (x.s.context (x.s.attrs r).ctx).entry c.surrogate
        ((∃ z ∈ recs, z.deposited = false) →
          ∃ t, exec (.srgClose f) s = .next t ∧ x.Blocks .srgClose t ∧ t.self.call = some c ∧ s.SameMemory t)
        ∧ ((∀ z ∈ recs, z.deposited = true) → c.gen = now ∨ left = [] →
          ∃ t, exec (.srgClose f) s = .next t ∧ x.Yields t ∧ t.self.call = none ∧ s.SameMemory t
            ∧ (t.core r.core).surrogate.slipway = rest
            ∧ (c.uniform = false → (recs.map (·.lane)).Nodup → ∀ m, c.firstOut + m < 240 →
                (Table.find y.self.v (c.firstOut + m)).isSome = true →
                ∀ l < 32, (t.readReg r (.v (c.firstOut + m))).at' l =
                  (match recs.find? (fun z => z.lane = l && m < z.outputs.length) with
                   | some z => z.outputs.getD m 0
                   | none => (y.readReg r (.v (c.firstOut + m))).at' l)))
        ∧ ((∀ z ∈ recs, z.deposited = true) → c.gen ≠ now → left ≠ [] →
          (rest.length + left.length ≤ 256 → ∃ t new, exec (.srgClose f) s = .next t ∧ x.Blocks .srgClose t
            ∧ (∃ c', t.self.call = some c' ∧ c'.gen = now ∧ c'.state = .answered ∧ ∀ l < 32, c'.trusted.lane l = decide (l ∈ left))
            ∧ (t.core r.core).surrogate.slipway = rest ++ new ∧ new.map (·.lane) = left
            ∧ (∀ z ∈ new, z.slot = r.slot ∧ z.surrogate = c.surrogate ∧ z.late = true ∧ z.sample = false ∧ z.deposited = false
                ∧ z.taken = none ∧ z.body = c.body
                ∧ (recs = [] → ∀ m < c.numIn,
                    z.inputs.getD m 0 = ((y.settle r).readReg r (.v (c.firstIn + m))).at' z.lane))
            ∧ ((t.context (x.s.attrs r).ctx).entry c.surrogate).late = (d.late + left.length) % 2 ^ 48 ∧ s.SameMemory t)
          ∧ (256 < rest.length + left.length → ∃ t, exec (.srgClose f) s = .next t ∧ t.self.pc = c.body &&& ~~~3#64
            ∧ (∀ l < 32, t.self.em.lane l = decide (l ∈ left)) ∧ (∃ c', t.self.call = some c' ∧ c'.state = .bodyRun)
            ∧ (t.core r.core).surrogate.slipway = rest ∧ t.self.status = .running ∧ t.self.run = 0
            ∧ ((t.context (x.s.attrs r).ctx).entry c.surrogate).late = (d.late + left.length) % 2 ^ 48 ∧ s.SameMemory t))))
  ∧ (∀ (f : LongFields) (s : State) (x : Issue) (rec : Recovery),
    (s.group? s.issuing).isSome = true → s.prepare .srgClose f = .ok x → x.s.self.recovery = some rec →
    rec.region = f.extBits 5 0 →
    let r := s.issuing
    let way := (x.s.core r.core).surrogate.slipway
    let out := fun (lane m : Nat) => (x.s.readReg r (.v (rec.firstOut + m))).at' lane
    ∃ t, exec (.srgClose f) s = .next t ∧ t.group? s.issuing = none ∧ s.SameMemory t
      ∧ (∀ z ∈ way, ∀ lane, z.taken = some (r.slot, lane) → z.orphan = false →
          (x.s.group ⟨r.core, z.slot⟩).status ≠ .waiting .srgClose →
          { z with outputs := (List.range z.numOut).map (out lane), taken := none, deposited := true }
            ∈ (t.core r.core).surrogate.slipway)
      ∧ (∀ z ∈ (t.core r.core).surrogate.slipway, z.orphan = true → ∀ lane, z.taken ≠ some (r.slot, lane))
      ∧ (∀ (z : SlipRecord) (lane : Nat),
          (way.filter (fun y => y.taken.any (fun q => q.1 = r.slot) && y.sample && !y.orphan)) = [z] →
          z.taken = some (r.slot, lane) →
          (∀ y ∈ way, y.taken.any (fun q => q.1 = r.slot) = true →
            (x.s.group ⟨r.core, y.slot⟩).status ≠ .waiting .srgClose) →
          let c := x.s.context z.ctx
          let d := c.entry z.surrogate
          let u := (t.context z.ctx).entry z.surrogate
          let n := min z.outputs.length z.numOut
          ∃ (errs : List Word) (e : Word), errs.length = n
            ∧ (∀ m < n, let a := (z.outputs.getD m 0).toNat
                let b := (out lane m).toNat
                let k := f32Format
                let gap := (k.units a - k.units b).natAbs
                k.finite a = true → k.finite b = true →
                (z.relative = false → k.Rounds 0 (Exact.ratio gap 1) (errs.getD m 0).toNat)
                ∧ (z.relative = true → k.units b ≠ 0 →
                    k.Rounds 0 (Exact.ratio (gap * k.one : Nat) (k.units b).natAbs) (errs.getD m 0).toNat)
                ∧ (z.relative = true → k.units b = 0 → (errs.getD m 0).toNat = if k.units a = 0 then 0 else k.inf false))
            ∧ (∀ m < n, f32Format.isNaN (z.outputs.getD m 0).toNat = true ∨ f32Format.isNaN (out lane m).toNat = true →
                f32Format.isNaN (errs.getD m 0).toNat = true)
            ∧ (if ∃ y ∈ errs, f32Format.isNaN y.toNat = true then f32Format.isNaN e.toNat = true
                else (errs = [] → e = 0) ∧ (errs ≠ [] → e ∈ errs) ∧ ∀ y ∈ errs, y.toNat ≤ e.toNat)
            ∧ (let bad := f32Format.isNaN e.toNat
                || (!f32Format.isNaN z.bound.toNat && decide (f32Format.place z.bound.toNat < f32Format.place e.toNat)
                  && !(e.toNat = 0 && z.bound.toNat = 0x80000000))
              u.sampled = (d.sampled + 1) % 2 ^ 48
                ∧ u.violations = (if bad then (d.violations + 1) % 2 ^ 48 else d.violations)
                ∧ (∀ i < 63, u.window.getLsbD (i + 1) = d.window.getLsbD i) ∧ u.window.getLsbD 0 = bad
                ∧ u.errMax = (if !f32Format.isNaN e.toNat && decide (d.errMax.toNat < e.toNat) then e else d.errMax)
                ∧ (f32Format.isNaN e.toNat = true → u.errSum = d.errSum)
                ∧ (f32Format.finite d.errSum.toNat = true → f32Format.finite e.toNat = true →
                    f32Format.units d.errSum.toNat + f32Format.units e.toNat ≠ 0 →
                    f32Format.Rounds 0 (Exact.ratio (f32Format.units d.errSum.toNat + f32Format.units e.toNat) 1) u.errSum.toNat)
                ∧ (let th := min c.vthresh 64
                   let hits := ((List.range (max 1 (min c.vwin 64))).filter u.window.getLsbD).length
                   let off := d.enabled && decide (1 ≤ th) && decide (th ≤ hits)
                   u.enabled = (d.enabled && !off) ∧ u.gen = if off then d.gen + 1 else d.gen))))

/-- R257: tret, short and long, in a handler whose fixed-latency results are written: PC, em and the run count
come from the frame of the gate lane, sr.fpst, the predicates, the latches and the operand cache from each
lane's, SP goes down by 128, and SUP and CAUSE are 0. tret.kill halts the team with the frame's cause and
KILLED. That the gate lane's QV and OV hold for every lane, and that tret.kill records the frame's PC, are the model's
readings (log entry 14). Outside a handler both raise PRIVILEGE. -/
def Obligations.TretReturnsFromTheHandler : Prop :=
  ∀ (i : Instr) (f : LongFields) (s : State) (team : Team),
    let r := s.issuing
    let g := (s.settleAll r).group r
    let base := g.sp - 128
    let at_ := fun off n => g.readStack g.gateLane (base + off) n
    (s.group? r).isSome = true → i.Has .tret f →
    (s.self.sup = false → exec i s = .next (s.trap r (Trap.plain .privilege)))
    ∧ (s.self.sup = true → s.self.lastDue < s.cycle → f.modBits 17 17 = 0 →
        ∃ t, exec i s = .next t ∧ (s.settleAll r).OnlyGroup t r ∧ s.SameMemory t
          ∧ t.self.pc = BitVec.ofNat 64 (at_ 0 8) &&& ~~~3#64 ∧ t.self.em = BitVec.ofNat 32 (at_ 0x20 4)
          ∧ t.self.run = at_ 0x35 1 ∧ t.self.sp = base ∧ t.self.sup = false ∧ t.self.cause = 0
          ∧ t.self.v = g.v ∧ t.self.s = g.s ∧ t.self.k = g.k ∧ t.self.stack = g.stack ∧ t.self.limit = g.limit
          ∧ ∀ l < 32,
              t.self.fpst.at' l = BitVec.ofNat 32 (g.readStack l (base + 0x30) 4) &&& 0x1F#32
              ∧ (∀ n < 7, (t.self.pred n).lane l = (g.readStack l (base + 0x34) 1).testBit n)
              ∧ (∀ j, 1 ≤ j → j ≤ 3 → (t.self.latch j).map (fun y => y.at' l) =
                  if (at_ 0x36 1).testBit (j - 1) then some (BitVec.ofNat 32 (g.readStack l (base + 0x40 + 4 * (j - 1)) 4))
                  else none)
              ∧ (∀ j < 8, (t.self.cache.getD j none).map (fun y => y.at' l) =
                  if (at_ 0x37 1).testBit j then some (BitVec.ofNat 32 (g.readStack l (base + 0x50 + 4 * j) 4)) else none))
    ∧ (s.self.sup = true → s.self.lastDue < s.cycle → f.modBits 17 17 = 1 → g.kind = .general →
        s.team? ⟨r.core, g.team⟩ = some team → team.ending = .no →
        ∃ t h, exec i s = .next t ∧ t.self.status = .halted ∧ t.self.halt = some h ∧ h.cause = at_ 0x1C 1
          ∧ h.pc = BitVec.ofNat 64 (at_ 0 8) ∧ h.flags.testBit 5 = true ∧ t.self.sp = g.sp
          ∧ (t.team? ⟨r.core, g.team⟩).map (·.ending) = some (.kill 0) ∧ s.SameMemory t)

/-- R254, R255, R256, R258: trap, svc and brk (with no debugger attached), short and long, raise SOFTWARE, SVC and
BREAKPOINT. When the vector has a handler, the group is not in one, and SP + 128 is within LIMIT, the handler
is entered: every lane's stack takes a frame with the next address, the cause, em, the lane's sr.fpst and
predicates, the run count and the code; SP moves up by 128, SUP and CAUSE are set, the latches and the operand
cache are empty, and the PC is the handler's address. em, every register, every byte of the stack below SP and
all of memory are as they were. R254, R259: where a condition of R254 fails, trap, svc and brk (with no
debugger attached) of a group of a team are fatal: the group stops at the instruction with a halt record of
its own cause, and of NESTED, NOFRAME and NOVEC as the conditions that failed; and its team is on its way to a
kill. brk with a debugger attached (R258), short and long, by a group of a team: it stops the group, with its
record at the address after the brk and CAUSE 0, and stops its team. -/
def Obligations.SystemCallsAndBreakpointsEnterOrHalt : Prop :=
  (
  ∀ (op : Op) (cause : Cause) (code : Nat),
    (op, cause, code) ∈ [(Op.trap, Cause.software, 0x09), (Op.svc, Cause.svc, 0x0A), (Op.brk, Cause.breakpoint, 0x0B)] →
    ∀ (i : Instr) (f : LongFields) (s : State) (x : Issue) (h : DWord), i.Has op f → s.Ready op f x →
      let g := s.self
      let base := g.spFinal
      (op = .brk → (s.context s.selfAttrs.ctx).debugger = false) → s.handler s.issuing cause = some h → g.sup = false →
      base + 128 ≤ g.limit → g.skidLeft = none → g.copies = [] → g.run < 256 → g.formed = true → Memory.wf g.stack = true →
      ∃ t, exec i s = .next t ∧ s.OnlyGroup t s.issuing ∧ s.SameMemory t ∧ s.SameWindows t
        ∧ t.self.pc = h &&& ~~~3#64 ∧ t.self.sp = base + 128 ∧ t.self.sup = true ∧ t.self.cause = code
        ∧ t.self.history = [] ∧ t.self.cache = List.replicate 8 none ∧ t.self.em = g.em ∧ t.self.run = g.run
        ∧ t.self.preds = g.preds ∧ t.self.v = g.v ∧ t.self.s = g.s ∧ t.self.k = g.k ∧ t.self.fpst = g.fpst
        ∧ s.cycle + 20 ≤ t.self.holdUntil
        ∧ (∀ l < 32, t.self.readStack l base 8 = g.nextPc.toNat
            ∧ t.self.readStack l (base + 0x1C) 1 = code ∧ t.self.readStack l (base + 0x1D) 1 = 0
            ∧ t.self.readStack l (base + 0x20) 4 = g.em.toNat ∧ t.self.readStack l (base + 0x24) 4 = g.em.toNat
            ∧ t.self.readStack l (base + 0x30) 4 = (g.fpst.at' l).toNat
            ∧ t.self.readStack l (base + 0x34) 1 = g.predBits l ∧ t.self.readStack l (base + 0x35) 1 = g.run
            ∧ t.self.readStack l (base + 0x38) 4 = f.ext.toNat
            ∧ ∀ p < base, t.self.readStack l p 1 = g.readStack l p 1))
  ∧ (
  ∀ (op : Op) (cause : Cause) (code : Nat),
    (op, cause, code) ∈ [(Op.trap, Cause.software, 0x09), (Op.svc, Cause.svc, 0x0A), (Op.brk, Cause.breakpoint, 0x0B)] →
    ∀ (i : Instr) (f : LongFields) (s : State) (x : Issue) (team : Team), i.Has op f → s.Ready op f x →
      let g := s.self
      let nested := g.sup
      let noframe := decide (g.limit < g.spFinal + 128)
      let novec := (s.handler s.issuing cause).isNone
      (op = .brk → (s.context s.selfAttrs.ctx).debugger = false) → g.kind = .general → g.skidLeft = none →
      s.team? ⟨s.issuing.core, g.team⟩ = some team → team.ending = .no → (nested || noframe || novec) = true →
      ∃ t h, exec i s = .next t ∧ s.SameMemory t ∧ s.SameWindows t ∧ t.self.status = .halted ∧ t.self.halt = some h
        ∧ h.pc = g.pc ∧ h.cause = code ∧ h.detail = f.ext.setWidth 32 ∧ h.flags.testBit 1 = nested
        ∧ h.flags.testBit 2 = noframe ∧ h.flags.testBit 3 = novec
        ∧ (t.team? ⟨s.issuing.core, g.team⟩).map (·.ending) = some (.kill 0)
        ∧ some s.issuing.slot ∉ (t.core s.issuing.core).barrel)
  ∧ (
  ∀ (i : Instr) (f : LongFields) (s : State) (x : Issue) (team : Team), i.Has .brk f → s.Ready .brk f x →
    (s.context s.selfAttrs.ctx).debugger = true → s.self.kind = .general →
    s.team? ⟨s.issuing.core, s.self.team⟩ = some team → team.ending = .no →
    ∃ t h, exec i s = .next t ∧ t.self.status = .halted ∧ t.self.halt = some h ∧ h.pc = s.self.nextPc ∧ h.cause = 0
      ∧ (t.team? ⟨s.issuing.core, s.self.team⟩).map (·.ending) = some .stop ∧ s.SameMemory t)

/-- R317, R318, R122, R123, R325: the firing and the end of an mma's array phase. An mma at the head of the queue
whose ring holds its image, whose bank no earlier drain still reads, and whose drain entry and output bytes
fit, fires: A's ring gives up the image, the product of R316 is formed, its steps are counted, and an
automatic drain takes its entry. Once the steps are done the head leaves the queue, every element of the
product is in its bank, and its berth is ready with the flags, unless a drain reports it. R317-R320, R322: an
mzero, an mlda or a bld at the head of the matrix queue is performed: mzero leaves 0 in its bank, mlda the
bytes of the scratchpad, and bld each element of the image at its place in its slice. No other byte of the
core's windows changes; the command leaves the queue, and its berth is ready. -/
def Obligations.MatrixEngineStepsComplete : Prop :=
  (
  (∀ (core : Fin 384) (s : State) (c : MatrixCommand) (rest : List MatrixCommand) (y : Ring),
    let k := s.core core
    let la := c.me * c.k * elementBits c.aType / 8 + if blockType c.aType then c.me * c.k / 16 else 0
    k.matrix.queue = c :: rest → c.op = .mma → c.fired = false → s.mayFire core c = true → c.oRing = none →
    s.ring? core c.aRing = some y →
    ∃ t c', exec (.mmaFire core) s = .next t ∧ (t.core core).matrix.queue = c' :: rest
      ∧ c' = { c with fired := true, out := (k.product y c).1, flags := c.flags ||| (k.product y c).2
                      steps := (c.k + macRate c.aType - 1) / macRate c.aType * (if c.aType = 9 then 4 else 1) }
      ∧ t.ring? core c.aRing = some { y with cons := y.cons + BitVec.ofNat 32 la }
      ∧ (∀ n, n ≠ c.aRing → t.ring? core n = s.ring? core n) ∧ s.SameMemory t ∧ s.SameWindows t
      ∧ (t.core core).drain = (if c.dr then k.drain ++ [autoDrain c none] else k.drain)
      ∧ (t.core core).berths = k.berths ∧ (t.core core).groups = k.groups)
  ∧ (∀ (core : Fin 384) (s : State) (c : MatrixCommand) (rest : List MatrixCommand),
    let k := s.core core
    k.matrix.queue = c :: rest → c.fired = true → c.steps = 0 → c.bad = false → Memory.wf k.win = true →
    ∃ t, exec (.arrayPhaseEnd core) s = .next t ∧ (t.core core).matrix.queue = rest
      ∧ (t.core core).berth c.berth = (if c.dr then k.berth c.berth else ⟨.ready, none, c.flags⟩)
      ∧ (t.core core).drain = (if c.dr then k.drain.map (fun d =>
          if d.id = c.id then { d with ready := true, flags := c.flags, mmaBad := false } else d) else k.drain)
      ∧ (∀ n, n ≠ c.berth → (t.core core).berth n = k.berth n) ∧ (t.core core).groups = k.groups ∧ s.SameMemory t
      ∧ (∀ a, (∀ e ∈ c.out, a < e.1 ∨ e.1 + 4 ≤ a) → Memory.read (t.core core).win a = Memory.read k.win a)
      ∧ ((c.out.map (·.1)).Pairwise (fun a b => a + 4 ≤ b ∨ b + 4 ≤ a) →
          (∀ e ∈ c.out, 0x02000000 ≤ e.1 ∧ e.1 + 4 ≤ 0x02010000) →
          ∀ e ∈ c.out, Memory.readNum (t.core core).win e.1 4 = e.2.toNat))
  ∧ (∀ (core : Fin 384) (s : State),
    let m := (s.core core).matrix
    ∃ t, exec (.governorWindow core) s = .next t ∧ (t.core core).matrix.before = m.active
      ∧ (t.core core).matrix.active = 0 ∧ (t.core core).matrix.queue = m.queue
      ∧ (t.core core).matrix.held = (if m.heldNow then (m.held + 1) % 1024 else m.held)
      ∧ (t.core core).matrix.windowBudget = m.budget ∧ (t.core core).matrix.windowRamp = m.ramp ∧ s.SameMemory t))
  ∧ (
  ∀ (s : State) (core : Fin 384) (c : MatrixCommand) (rest : List MatrixCommand), let k := s.core core
    k.matrix.queue = c :: rest → c.op ≠ .mma → (c.op = .bld ∨ k.bankBusy c = false) → c.bad = false → Memory.wf k.win = true →
    ∃ t : State, exec (.matrixCommandComplete core) s = .next t ∧ (t.core core).matrix.queue = rest
      ∧ (∀ n, (t.core core).berth n = if n = c.berth then ⟨.ready, none, c.flags⟩ else k.berth n)
      ∧ (c.op = .mzero → ∀ y < 16384, Memory.read (t.core core).win (0x02000000 + c.bank * 0x4000 + y) = 0)
      ∧ (c.op = .mlda → ∀ y < 16384, Memory.read (t.core core).win (0x02000000 + c.bank * 0x4000 + y) =
          Memory.read k.win (c.scratchBase + c.p + y))
      ∧ (c.op = .bld → kObOk c.bType c.k c.ob = true → ∀ j < 64, ∀ n < c.k,
          packedElem (elementBits c.bType) (fun y => Memory.read (t.core core).win (sliceOffset j (c.ob + y))) n =
            packedElem (elementBits c.bType) (fun y => Memory.read k.win (c.scratchBase + c.p + y)) (64 * n + j))
      ∧ (∀ a, a ∉ (k.matrixBytes c).map (·.1) → Memory.read (t.core core).win a = Memory.read k.win a)
      ∧ (∀ n, n ≠ core.val → t.core n = s.core n) ∧ t.mem = s.mem)

/-- probe, mapstat and tlbi.local (R281, R282, R284, R285) complete. probe awaits in each active lane's pair what
the walk gives for the address: status 5 alone in the host half, 4 alone when it is not canonical, and
otherwise the walk's; no byte changes, A and D bits included. mapstat awaits the context's pool count, or the
number of its host requests. tlbi.local, with supervisor privilege, drops every entry of the group's context
from its core's TLB and no other entry. mapp and mapp.frame (R283), with the privilege that each needs,
complete: the lanes' installs are made one after another in ascending order, and D awaits each lane's status.
One lane's install gives 4 for an address that is not in the device half, else 3 for invalid attributes, else
by where the walk ends 5 at a malformed entry or at ORD 0b11, 1 at a valid leaf and, when the pool holds too
few frames, 2, and changes nothing; else 0, and where only the level-0 entry is missing the leaf, with A and D
0, is at the entry's address, every other byte is as it was, and the frame is the pool's next, or C's for
mapp.frame, which takes none; with tables missing, each is a pool frame whose entry is written above it. The order of the frames
(tables from the upper level down, then the leaf), and that unmap takes a malformed leaf too, are the model's (log entry 24). unmap and tlbi.page (R284). unmap, with system privilege, completes: the lanes'
unmaps are made one after another, and D awaits the old entries, which it takes when the shootdowns are
complete. One lane's unmap writes the leaf that covers the address to 0, gives the old entry, and starts the
shootdown of the leaf's whole page; where none covers it, it gives 0 and changes nothing. tlbi.page, with
supervisor privilege, starts the shootdown of each lane's 64 KiB page and waits in stalled turns; with no
lane, or once its shootdowns are complete, it goes on. -/
def Obligations.PageInstructionsComplete : Prop :=
  (
  ∀ (i : Instr) (op : Op) (f : LongFields) (s : State) (x : Issue), i.Has op f → s.Ready op f x →
    let r := s.issuing
    let ctx := (x.s.attrs r).ctx
    let g := x.s.self
    (op = .probe →
      let kind := if f.modBits 14 13 = 1 then AccessKind.write else if f.modBits 14 13 = 2 then .fetch else .read
      let num := fun l => let va := laneVal x.a l
        if va.msb = false then 5 * 2 ^ 58 else if va.toNat / 2 ^ 56 ≠ 0xFF then 4 * 2 ^ 58
        else x.s.probeValue ctx kind (g.privilege = .user) va
      ∃ t, exec i s = .next t ∧ x.Awaits 2 (fun k l => wordOf (num (x.accessLane .probe f l)) k) t ∧ x.SameMasks t
        ∧ t.self.fpst = g.fpst ∧ s.SameMemory t ∧ x.s.SameWindows t)
    ∧ (op = .mapstat →
      let c := x.s.context ctx
      let n := if f.modBits 12 11 = 1 then (c.hostRequests.filter (fun h => !c.atTarget h.page)).length
        else (c.poolTail - c.poolHead).toNat
      ∃ t, exec i s = .next t ∧ x.Awaits 1 (fun _ _ => BitVec.ofNat 32 n) t ∧ x.SameMasks t ∧ t.self.fpst = g.fpst
        ∧ s.SameMemory t ∧ x.s.SameWindows t)
    ∧ (op = .tlbiLocal → g.privilege.atLeast .supervisor = true →
      ∃ t, exec i s = .next t ∧ x.SelfAdvances g.nextPc [] t ∧ x.SameMasks t ∧ s.SameMemory t ∧ x.s.SameWindows t
        ∧ (t.core r.core).tlb = (x.s.core r.core).tlb.filter (fun e => e.ctx ≠ ctx)
        ∧ ∀ c, c ≠ r.core → t.core c = x.s.core c)
    ∧ (op = .tlbiLocal ∨ op = .tlbiPage → g.privilege.atLeast .supervisor = false →
      exec i s = .next (s.trap r (Trap.plain .privilege))))
  ∧ (
  (∀ (i : Instr) (f : LongFields) (s : State) (x : Issue), i.Has .mapp f → s.Ready .mapp f x →
    x.s.self.status = .running →
    let byFrame := f.modBits 12 11 = 1
    let ctx := (x.s.attrs s.issuing).ctx
    (x.s.self.privilege.atLeast (if byFrame then .system else .supervisor) = true →
      let done := x.s.mapLanes ctx x (decide byFrame) (x.accessLanes .mapp f)
      ∃ t, exec i s = .next t
        ∧ x.Awaits 1 (fun k l => wordOf (Table.get done.2 0 (x.accessLane .mapp f l)) k) t ∧ x.SameMasks t
        ∧ t.self.fpst = x.s.self.fpst ∧ done.1.SameMemory t ∧ x.s.SameWindows t ∧ t.contexts = done.1.contexts)
    ∧ (x.s.self.privilege.atLeast (if byFrame then .system else .supervisor) = false →
      exec i s = .next (s.trap s.issuing (Trap.plain .privilege))))
  ∧ (∀ (s : State) (ctx : Nat) (va : DWord) (attr : Nat) (frame : Option Nat), attr < 2 ^ 32 → Memory.wf s.mem = true →
    let c := s.context ctx
    let w := walkChecked s.mem (va.toNat % 2 ^ 56) 3 c.root
    let out := s.mapLane ctx va attr frame
    let bad := attr / 2 ^ 10 ≠ 0 ∨ (attr.testBit 1 = true ∧ attr.testBit 2 = true) ∨ attr / 16 % 4 = 3
      ∨ (frame = none ∧ attr / 64 % 16 ≠ 0)
      ∨ ∃ p, frame = some p ∧ (p % 2 ^ 16 ≠ 0 ∨ p / 2 ^ 48 % 2 ^ 16 ≠ 0 ∨ placeOf p = .hole)
    let need := w.level + (if frame = none then 1 else 0)
    (va.toNat / 2 ^ 56 ≠ 0xFF → out = (s, 4))
    ∧ (va.toNat / 2 ^ 56 = 0xFF → bad → out = (s, 3))
    ∧ (va.toNat / 2 ^ 56 = 0xFF → ¬ bad → w.result = .malformed ∨ w.result = .badOrd → out = (s, 5))
    ∧ (va.toNat / 2 ^ 56 = 0xFF → ¬ bad → w.result = .leaf → out = (s, 1))
    ∧ (va.toNat / 2 ^ 56 = 0xFF → ¬ bad → w.result = .notPresent → (c.poolTail - c.poolHead).toNat < need → out = (s, 2))
    ∧ (va.toNat / 2 ^ 56 = 0xFF → ¬ bad → w.result = .notPresent → need ≤ (c.poolTail - c.poolHead).toNat →
        out.2 = 0 ∧ (out.1.context ctx).poolHead = c.poolHead + BitVec.ofNat 32 need
          ∧ (w.level = 0 →
              let at_ := c.poolBase + 8 * (c.poolHead.toNat % c.poolSize.toNat)
              let next := Memory.readNum s.mem at_ 8 / 2 ^ 16 % 2 ^ 32 * 2 ^ 16
              let leaf := 3 + attr % 16 * 4 + attr / 16 % 64 * 2 ^ 8 + frame.getD next
              Memory.readNum out.1.mem w.at_ 8 = leaf % 2 ^ 64
                ∧ ∀ a, a < w.at_ ∨ w.at_ + 8 ≤ a → Memory.read out.1.mem a = Memory.read s.mem a)
          ∧ (let pool := fun j => Memory.readNum s.mem
                (c.poolBase + 8 * ((c.poolHead.toNat + j) % 2 ^ 32 % c.poolSize.toNat)) 8 / 2 ^ 16 % 2 ^ 32 * 2 ^ 16
              let entry := fun j => if j = 0 then w.at_ else
                pool (j - 1) + 8 * (va.toNat % 2 ^ 56 / 2 ^ (16 + 10 * (w.level - j)) % 2 ^ 10)
              let value := fun j => if j < w.level then pool j + 1 else
                3 + attr % 16 * 4 + attr / 16 % 64 * 2 ^ 8 + frame.getD (pool w.level)
              (∀ i ≤ w.level, ∀ j ≤ w.level, i ≠ j → entry i + 8 ≤ entry j ∨ entry j + 8 ≤ entry i) →
              (∀ j ≤ w.level, Memory.readNum out.1.mem (entry j) 8 = value j % 2 ^ 64)
                ∧ ∀ a, (∀ j ≤ w.level, a < entry j ∨ entry j + 8 ≤ a) → Memory.read out.1.mem a = Memory.read s.mem a))))
  ∧ (
  (∀ (i : Instr) (f : LongFields) (s : State) (x : Issue), x.s.self.status = .running →
    (i.Has .unmap f → s.Ready .unmap f x → x.s.self.privilege.atLeast .system = true →
      let done := x.s.unmapLanes x (x.accessLanes .unmap f)
      ∃ t, exec i s = .next t ∧ x.Awaits 2 (fun k l => wordOf (Table.get done.2 0 (x.accessLane .unmap f l)) k) t
        ∧ x.SameMasks t ∧ done.1.SameMemory t ∧ t.shootdowns = done.1.shootdowns)
    ∧ (i.Has .unmap f → s.Ready .unmap f x → x.s.self.privilege.atLeast .system = false →
      exec i s = .next (s.trap s.issuing (Trap.plain .privilege)))
    ∧ (i.Has .tlbiPage f → s.Ready .tlbiPage f x → x.s.self.privilege.atLeast .supervisor = true →
      let ls := x.accessLanes .tlbiPage f
      let passes := ∃ t, exec i s = .next t ∧ x.Passes t ∧ x.SameMasks t ∧ s.SameMemory t ∧ x.s.SameWindows t
      (∀ id, x.s.self.hold = .shootdown id → (∀ y ∈ x.s.shootdowns, y.group ≠ some s.issuing) → passes)
      ∧ ((∀ id, x.s.self.hold ≠ .shootdown id) → ls = [] → passes)
      ∧ ((∀ id, x.s.self.hold ≠ .shootdown id) → ls ≠ [] →
          ∃ t, exec i s = .next t ∧ t.self.pc = x.s.self.pc ∧ (∃ id, t.self.hold = .shootdown id)
            ∧ ∀ l ∈ ls, ∃ y ∈ t.shootdowns, y.group = some s.issuing ∧ y.ctx = (x.s.attrs s.issuing).ctx
              ∧ y.lo = (laneVal x.a l).toNat / 2 ^ 16 * 2 ^ 16 ∧ y.hi = y.lo + 2 ^ 16)))
  ∧ (∀ (s : State) (va : DWord), Memory.wf s.mem = true →
    let w := walkChecked s.mem (va.toNat % 2 ^ 56) 3 (s.context s.selfAttrs.ctx).root
    let out := s.unmapLane va
    if va.toNat / 2 ^ 56 = 0xFF ∧ w.entry.testBit 0 = true ∧ w.entry.testBit 1 = true then
      out.2 = w.entry ∧ Memory.readNum out.1.mem w.at_ 8 = 0
        ∧ (∀ a, a < w.at_ ∨ w.at_ + 8 ≤ a → Memory.read out.1.mem a = Memory.read s.mem a)
        ∧ ∃ y ∈ out.1.shootdowns, y.group = some s.issuing ∧ y.lo ≤ va.toNat ∧ va.toNat < y.hi
          ∧ y.hi = y.lo + 2 ^ (16 + 10 * w.level)
    else out = (s, 0)))

/-! ### Encoding, operands, reset and memory -/

/-- The words of some instructions, written out from R62-R70 and R82, decode to them: iadd v3 ← v1 + v2, short;
iadd with the literal 5; mov.b32 v0 ← v9 in the long form; ld long with predicate !p1; exit; and an opcode
that is not assigned. So do R111's words of mode 7 (iadd with a literal prefix, fmul), and in mode 8 one word of iadd with the
immediate −1 (R103, R105) and one of a cell of level FL9, which is not assigned there (R99). -/
def Obligations.WrittenWordsDecode : Prop :=
  decode 9 [0x04041A00#32] = .ok (.iaddShort { u := false, d := 3, a := 1, b := 2, lit := none })
    ∧ decode 9 [0xB6041A02#32, 5#32, 0#32]
        = .ok (.iaddShort { u := false, d := 3, a := 1, b := 91, lit := some 5 })
    ∧ decode 9 [0x00000101#32, 0x00001200#32, 0x00000E00#32]
        = .ok (.movLong { mod := 0, u := false, d := 0, a := 9, b := 0, c := 0, nwb := false, la := false, lb := false
                          lc := false, ext := 0, oce := false, oci := 0, pn := false, ps := 7, lit := none })
    ∧ decode 9 [0x00000501#32, 0x00120407#32, 0x00001200#32]
        = .ok (.ldLong { mod := 0, u := false, d := 7, a := 258, b := 4, c := 0, nwb := false, la := false, lb := false
                         lc := false, ext := 0, oce := false, oci := 0, pn := true, ps := 1, lit := none })
    ∧ decode 7 [0x00006431#32, 0x000C0A40#32]
        = .ok (.iaddLong { mod := 0, u := false, d := 5, a := 12, b := 331, c := 0, nwb := false, la := false, lb := false
                           lc := false, ext := 0, oce := false, oci := 0, pn := false, ps := 7, lit := some 100 })
    ∧ decode 7 [0x02850C62#32]
        = .ok (.fmulLong { mod := 0, u := false, d := 6, a := 5, b := 5, c := 0, nwb := false, la := false, lb := false
                           lc := false, ext := 0, oce := false, oci := 0, pn := false, ps := 7, lit := none })
    ∧ decode 8 [0xFF181500#32] = .ok (.iaddShort { u := false, d := 5, a := 12, b := 91, lit := some (-1) })
    ∧ decode 8 [0x000001CC#32] = .ok (.illegalInstruction [0x000001CC#32])
    ∧ decode 9 [0x000000B8#32] = .ok (.exitShort { u := false, d := 0, a := 0, b := 0, lit := none })
    ∧ decode 9 [0x000000E8#32] = .ok (.illegalInstruction [0x000000E8#32])

/-- Encode of decode is the identity: no bit of the words of an instruction is dropped, and each word has one
meaning. R66: a short form decodes only with an opcode from 0x00 to 0x9F or that of ld, lds or ldu; with every
other assigned opcode, and with that of cvt.bfx (R191), the words are malformed. R99-R110: in modes 8 and 7 a word whose opcode is
no cell of the level is no instruction; the words of mode 8 and of mode 7 with its prefixes, written from their fields, are the
form that R105, R106 and R109 build, after R83's checks of it, or are malformed as R105, R106 and R108 say. That an offset is
signed, that a packed or 16-bit operand takes the low bits of a literal, and that an offset branch with a non-zero A is malformed
in mode 7, are the model's readings (log entries 10, 11, 81). -/
def Obligations.EncodeOfDecode : Prop :=
  (
  ∀ (ws : List Word) (i : Instr), decode 9 ws = .ok i → i.wellFormed = true ∧ encode i = ws)
  ∧ (
  ∀ (op : Op) (f : ShortFields),
    ((0x9F < op.op8.toNat ∧ op ≠ .ld ∧ op ≠ .lds ∧ op ≠ .ldu) ∨ op = .cvtBfx →
      decode 9 ((Form.short f).encode op) = .error .malformed)
    ∧ ((op.op8.toNat ≤ 0x9F ∧ op ≠ .cvtBfx) ∨ op = .ld ∨ op = .lds ∨ op = .ldu →
      ∃ i, op.build (.short f) = some i
        ∧ (decode 9 ((Form.short f).encode op) = .ok i ∨ ∃ e, checkShort op f = some e)))
  ∧ (
  ∀ op8 : BitVec 8, let n := op8.toNat
    let fl7 := n ≤ 0x0D ∨ (0x14 ≤ n ∧ n ≤ 0x17) ∨ (0x40 ≤ n ∧ n ≤ 0x55) ∨ (0x60 ≤ n ∧ n ≤ 0x70) ∨ (0x80 ≤ n ∧ n ≤ 0x82)
      ∨ (0xA0 ≤ n ∧ n ≤ 0xA3) ∨ n ∈ [0x19, 0x1A, 0x20, 0x23, 0x24, 0x25, 0x27, 0x8A, 0x8B, 0xA7, 0xA9, 0xAB, 0xAF]
    let fl8 := fl7 ∨ (0x83 ≤ n ∧ n ≤ 0x89) ∨ (0xA4 ≤ n ∧ n ≤ 0xA6)
      ∨ n ∈ [0x0E, 0x0F, 0x1B, 0x21, 0x22, 0x26, 0x71, 0x72, 0xA8, 0xAC]
    let checked := fun (op : Op) (form : Form) (x : Except Reject (Op × Form)) =>
      x = (match form.check op with | some e => .error e | none => .ok (op, form))
    let offset := fun (op : Op) => op ∈ [Op.bra, .call, .bany, .ball, .bnone]
    let float := fun (op : Op) => op ∈ [Op.fadd, .fsub, .fmul, .ffma, .fmin, .fmax, .fdiv, .fcmp, .hadd2, .hmul2, .hfma2,
      .hmin2, .hmax2, .dot2]
    let short := fun (c : BitVec 7) => if 84 ≤ c.toNat ∧ c.toNat ≤ 91 then 127#7 else c
    let full := fun (c : BitVec 9) => if (324 ≤ c.toNat ∧ c.toNat ≤ 331) ∨ 352 ≤ c.toNat then 511#9 else c
    (∀ (w : Word) (rest : List Word), w.extractLsb' 2 8 = op8 → ¬ fl8 →
      decode 8 (w :: rest) = .ok (.illegalInstruction (w :: rest)))
    ∧ (∀ w : Word, w.extractLsb' 0 8 = op8 → ¬ fl7 → n ≠ 0x30 → n ≠ 0x31 → decode 7 [w] = .ok (.illegalInstruction [w]))
    ∧ (fl8 → ∃ op, Op.ofOp8 op8 = some op)
    ∧ (∀ op, Op.ofOp8 op8 = some op → fl8 →
      (∀ (u imm : Bool) (d a b : BitVec 7),
        let words := [BitVec.ofBool imm ++ b ++ a ++ d ++ op8 ++ BitVec.ofBool u ++ 0#1]
        (offset op ∨ (imm = true ∧ float op) → parse 8 words = .error .malformed)
        ∧ (¬ offset op → imm = false ∨ ¬ float op → checked op
            (.short { u := u, d := short d, a := short a, b := if imm then 91 else short b
                      lit := if imm then some (b.signExtend 64) else none }) (parse 8 words)))
      ∧ (∀ (u pn oce : Bool) (d a b : BitVec 9) (mod : BitVec 13) (c : BitVec 7) (ps : BitVec 3) (oci : BitVec 2), ¬ offset op →
        checked op (.long { mod := mod.setWidth 21, u := u, d := full d, a := full a, b := full b, c := fullCode (short c)
                            nwb := false, la := false, lb := false, lc := false, ext := 0, oce := oce
                            oci := oci.setWidth 3, pn := pn, ps := ps, lit := none })
          (parse 8 [d ++ mod ++ op8 ++ BitVec.ofBool u ++ 1#1,
            oci ++ BitVec.ofBool oce ++ BitVec.ofBool pn ++ ps ++ c ++ b ++ a]))
      ∧ (∀ (u pn : Bool) (d : BitVec 9) (mod : BitVec 13) (top ps : BitVec 3) (off : BitVec 25), offset op →
        let words := [d ++ mod ++ op8 ++ BitVec.ofBool u ++ 1#1, top ++ BitVec.ofBool pn ++ ps ++ off]
        (top ≠ 0 → parse 8 words = .error .malformed)
        ∧ (top = 0 → checked op (.long { LongFields.blank with
              mod := mod.setWidth 21, u := u, d := full d, a := 331, pn := pn, ps := ps
              lit := some (off.signExtend 64 * 4) }) (parse 8 words))))
    ∧ (∀ op, Op.ofOp8 op8 = some op → fl7 →
      ∀ (p : Option Word) (l : Option (BitVec 24)) (ws : List Word) (rnd : BitVec 2) (d a b : BitVec 7) (u : Bool),
        (∀ y, p = some y → y.extractLsb' 0 8 = 0x30) →
        let w := rnd ++ b ++ a ++ d ++ BitVec.ofBool u ++ op8
        let lw := (l.map (fun y => y ++ 0x31#8)).toList
        ws = p.toList ++ lw ++ [w] ∨ ws = lw ++ p.toList ++ [w] →
        let m := p.getD 0x1C000030#32
        let bad := m.getLsbD 25 = true ∨ m.extractLsb' 8 3 ≠ 0 ∨ m.extractLsb' 15 2 ≠ 0
          ∨ (m.getLsbD 31 = true ∧ 64 ≤ a.toNat) ∨ (m.getLsbD 30 = true ∧ 64 ≤ b.toNat)
          ∨ (l ≠ none ∧ b ≠ 0) ∨ (offset op ∧ (l = none ∨ a ≠ 0 ∨ m.getLsbD 31 = true))
        let aCode : BitVec 9 := if m.getLsbD 31 then a.setWidth 9 + 256 else a.setWidth 9
        let bCode : BitVec 9 := if m.getLsbD 30 then b.setWidth 9 + 256 else b.setWidth 9
        let base : LongFields := { LongFields.blank with
          mod := (m.extractLsb' 11 14).setWidth 21 ||| (rnd.setWidth 21 <<< 4), u := u, d := d.setWidth 9, a := aCode, b := bCode
          c := if readsC op then 332 else 0, pn := m.getLsbD 29, ps := m.extractLsb' 26 3 }
        (bad → parse 7 ws = .error .malformed)
        ∧ (¬ bad → l = none → checked op (.long base) (parse 7 ws))
        ∧ (∀ y, ¬ bad → l = some y →
            (offset op → checked op (.long { base with a := 331, lit := some (y.signExtend 64 * 4) }) (parse 7 ws))
            ∧ (¬ offset op → ¬ float op → checked op (.long { base with b := 331, lit := some (y.signExtend 64) }) (parse 7 ws))
            ∧ (¬ offset op → float op → base.ty ≠ 10 →
                checked op (.long { base with b := 331, lit := some ((y ++ 0#8).setWidth 64) }) (parse 7 ws))))
    ∧ (∀ p q w : Word, p.extractLsb' 0 8 = 0x30 ∨ p.extractLsb' 0 8 = 0x31 → q.extractLsb' 0 8 = p.extractLsb' 0 8 →
        decode 7 [p, q] = .error .malformed
        ∧ (w.extractLsb' 0 8 = op8 → ¬ fl7 → decode 7 [p, w] = .error .malformed)))

/-- R445: in SAFE no core runs and only a start, a write of MBOX, SECSTAT or the thermal trip responds: a turn of the cores
passes at once, any other event has no effect, and a cycle ends with nothing but its count. A write of control space reaches MBOX
alone, where it makes a cold start with the fuses as sensed before and a training result that is free (the model's choice, log
entry 34), and SECSTAT, whose READY no start then waits for; and but for these two all of control space reads 0. -/
def Obligations.SafeModuleRunsNothing : Prop :=
  ∀ s : State, s.security.powered = true → s.security.state = .safe →
    (s.turn = .sub → step s = .next { s with turn := .tick })
    ∧ (∀ n i rest, s.turn = .event (n + 1) → s.agenda = i :: rest →
        (∀ inp, i ≠ .coldStart inp) → (∀ v inp, i ≠ .mboxWrite v inp) → i ≠ .thermalTrip →
        (∀ a size v, i = .registerWrite a size v →
          (∀ j < size, a.toNat + j < 0x0FF000050000 ∨ 0x0FF000050008 ≤ a.toNat + j)
            ∧ ∀ j < size, a.toNat + j < 0x0FF000052000 ∨ 0x0FF000052008 ≤ a.toNat + j) →
        step s = .next { s with agenda := rest, turn := .event n })
    ∧ (s.security.started = false → ∀ v, exec (.registerWrite 0x0FF000050000 8 v) s = .next s)
    ∧ (∀ v : DWord, ∃ inp : StartInput,
        inp.romDigest = s.security.romDigest ∧ inp.fuseDigest = s.security.fuseDigest ∧ inp.seed = s.security.seed
        ∧ inp.minSvn = s.security.minSvn ∧ inp.vendorDigest = s.security.vendorDigest ∧ inp.vendorKey = s.security.vendorKey
        ∧ exec (.registerWrite 0x0FF000052000 8 v) s =
            exec (.coldStart inp) { s with fresh := s.fresh + 1, security := { s.security with mbox := v } })
    ∧ (∀ o, o ≠ 0x50000 → o ≠ 0x52000 → s.controlWord o = 0)
    ∧ (s.turn = .tick → step s = .next { s with
        cycle := s.cycle + 1, turn := .event s.agenda.length, cursor := 0, order := [] })

/-- What a reset leaves: sr.time is 0 (R30); device memory and every window read 0
(R444; that the CXL window reads 0 too is the model's choice, log entry 2); no team or context is there, and no group, since the
state is that before a start has placed the Tugs (the model's choice, log entry 6); sr.swapth is 0x200 on every core (R50); every context descriptor,
run-list entry and measurement register, HQCMD and HQQCB read 0 (R268, R406, R423, R440); STATE is STARTING
and KIND is cold (R445). The memory of the device is in its canonical form at reset. -/
def Obligations.ResetLeavesColdStartValues : Prop :=
  (
  State.reset.time = 0
    ∧ (∀ a, Memory.read State.reset.mem a = 0)
    ∧ (∀ c, (State.reset.core c).groups = [] ∧ (State.reset.core c).teams = [] ∧ (State.reset.core c).ctx = none
        ∧ (State.reset.core c).swapth = 0x200 ∧ ∀ o, Memory.read (State.reset.core c).win o = 0)
    ∧ (∀ i < 256, State.reset.controlWord (0x20000 + 8 * i) = 0)
    ∧ (∀ q < 1024, State.reset.controlWord (0x12000 + 8 * q) = 0)
    ∧ (∀ i < 64, State.reset.controlWord (0x50100 + 8 * i) = 0)
    ∧ State.reset.controlWord 0x10000 = 0 ∧ State.reset.controlWord 0x10008 = 0
    ∧ State.reset.security.state = .starting ∧ State.reset.security.warm = false)
  ∧ (
  State.reset.memoryCanonical = true ∧ ∀ c, Memory.wf (State.reset.core c).win = true)

/-- Memory in the canonical form: two memories that read alike everywhere are equal; a byte written reads back and
every other byte is as it was; and the number stored in little-endian bytes (R2) reads back modulo its size. -/
def Obligations.MemoryReadsWhatWasWritten : Prop :=
  (∀ m n : Memory, m.wf = true → n.wf = true → (∀ a, m.read a = n.read a) → m = n)
    ∧ (∀ (m : Memory) (a b : Nat) (v : Byte), m.wf = true →
        (m.write a v).wf = true ∧ (m.write a v).read b = if b = a then v else m.read b)
    ∧ (∀ (m : Memory) (a n x b : Nat), m.wf = true →
        (m.writeNum a n x).wf = true ∧ (m.writeNum a n x).readNum a n = x % 2 ^ (8 * n)
          ∧ ((b < a ∨ a + n ≤ b) → (m.writeNum a n x).read b = m.read b))

/-- The value that an instruction reads (R65, R70, R72, R173, R175): with U = 0 a lane of a source of one word is
the lane of the v register, of the uniform register, of the literal or of the special value that the operand
names, as the file stands once the writes whose cycle is past have landed; with U = 1 every lane is that of
the lowest em lane. The active lanes and the lanes written (R76, R173, R455): an instruction of the vector
engine with a result acts with U = 0 in the em lanes whose selected predicate, inverted under PN, is true, and
with U = 1 in every lane when that predicate is true in the gate lane and in none otherwise; p7 is all ones,
so PS = 7 with PN = 0 makes every em lane active and with PN = 1 none. The registers of its result are written
in those lanes. -/
def Obligations.OperandValuesAndActiveLanes : Prop :=
  (
  ∀ (op : Op) (f : LongFields) (s : State) (x : Issue) (l : Nat), s.Ready op f x → l < 32 →
    (op ∈ integerTable.map (·.1) ∨ op ∈ floatTable.map (·.1)) → (shape op f).a = .w32 →
    let s0 := s.settle s.issuing
    let j := if f.u then (s.settledSelf.em.lowest).getD 0 else l
    (∀ n, Operand.ofCode f.a = .v n → laneVal x.a l = ((s0.readReg s.issuing (.v n)).at' j).setWidth 64)
      ∧ (∀ n, Operand.ofCode f.a = .s n → s.settledSelf.sup = false →
          laneVal x.a l = (s.settledSelf.s.getD n 0).setWidth 64)
      ∧ (Operand.ofCode f.a = .lit → laneVal x.a l = ((f.lit.getD 0).extractLsb' 0 32).setWidth 64)
      ∧ (Operand.ofCode f.a = .special 334 → laneVal x.a l = BitVec.ofNat 64 j)
      ∧ (Operand.ofCode f.a = .special 332 → laneVal x.a l = 0)
      ∧ (Operand.ofCode f.a = .special 333 → laneVal x.a l = 0xFFFFFFFF))
  ∧ (
  ∀ (op : Op) (f : LongFields) (s : State) (x : Issue), s.Ready op f x →
    (op ∈ integerTable.map (·.1) ∨ op ∈ floatTable.map (·.1)) →
    let g := s.settledSelf
    let p := if f.ps = 7 then BitVec.allOnes 32 else g.preds.getD f.ps.toNat 0
    let active := g.em &&& (if f.pn then ~~~p else p)
    (f.u = false → x.lanes = active ∧ x.dest.mask = active ∧ (x.acts = true ↔ active ≠ 0))
      ∧ (f.u = true → f.pn = false →
          x.acts = p.getLsbD ((g.em.lowest).getD 0) ∧ x.lanes = (if x.acts then BitVec.allOnes 32 else 0)
            ∧ x.dest.mask = x.lanes)
      ∧ (f.u = false → f.ps = 7 → x.lanes = if f.pn then 0 else g.em))

/-- R179: the checks of the operand engine in their order, of which the first that fails decides; and an
instruction of the vector engine that fails one has no effect but its trap. -/
def Obligations.OperandChecksInOrder : Prop :=
  ∀ (op : Op) (f : LongFields) (s : State),
    (op ∈ integerTable.map (·.1) ∨ op ∈ floatTable.map (·.1)) →
    let r := s.issuing
    let s0 := s.settle r
    let g := s0.group r
    let xs := s0.sources r op f
    let regs := g.sourceRegs xs
    let uniform := ((xs.filterMap id).filter (·.uniform)).flatMap (s0.sourceWords r f.lit)
    let gate := g.selected f &&& g.em
    let differs := (f.u && gate ≠ 0 && gate ≠ g.em) || uniform.any (fun x => lanesDiffer x (g.uniformSet f))
    let cause : Option Cause :=
      if s0.fieldsOk r op f = false then some .illegalOperand
      else if (xs.filterMap id).any (fun x => !g.levelOk x) then some .illegalOperand
      else if regs.any (fun x => s0.isDead r x) then some .deadRegister
      else if differs && (s0.attrs r).strict then some .nonUniform
      else if (if differs then s0.modGroup r Group.markNU else s0).footOk r (g.marked xs) (s0.dest r op f) = false then
        some .footprint
      else if regs.any (fun x => g.poison.contains x) then some .memEcc
      else none
    (∀ c, cause = some c → s.prepare op f = .error (.trap (Trap.plain c))
        ∧ ∀ i, i.Has op f → exec i s = .next (s.trap r (Trap.plain c)))
      ∧ (cause = none → ∃ x, s.prepare op f = .ok x ∧ x.s = if differs then s0.modGroup r Group.markNU else s0)

/-- R170: a write of a register that is free, by an active instruction, in a bank in which the group already holds
its footprint raises FOOTPRINT, and the instruction has no effect but the trap. -/
def Obligations.WritePastTheFootprintTraps : Prop :=
  ∀ (i : Instr) (op : Op) (f : LongFields) (s : State) (n : Nat), i.Has op f →
    (op ∈ integerTable.map (·.1) ∨ op ∈ floatTable.map (·.1)) →
    let r := s.issuing
    let s0 := s.settle r
    let g := s0.group r
    f.u = false → f.nwb = false → f.la = false → f.lb = false → f.lc = false →
    Operand.ofCode f.d = .v n → n < 240 → (shape op f).d.words = 1 → Table.find g.v n = none → g.active f ≠ 0 →
    (s0.attrs r).decode = 9 → (s0.attrs r).foot ≤ g.heldInBank (n % 4) →
    s0.readChecks r op f (s0.sources r op f) = .ok () →
    exec i s = .next (s.trap r (Trap.plain .footprint))

/-- The timing of a file write (R163): a write in flight for cycle `due` is not seen by a read in that cycle or an
earlier one, and is seen by every later read, in the lanes that it writes and in no other. R111: in modes 8 and 7 a result of
class L locks its register until 4(L + 1) cycles after its issue; a reader is held in its turns until then, and a held turn
changes neither the PC nor the run count nor the count of stalled turns. That a group which changes its barrel slot in between is
held as long is the model's reading (log entry 89). -/
def Obligations.FixedWriteLandsAfterItsCycle : Prop :=
  (
  ∀ (s : State) (r : GroupRef) (g : Group) (w : FileWrite) (n l : Nat),
    s.group? r = some g → w ∈ g.inflight → (∀ w' ∈ g.inflight, w'.reg = w.reg → w' = w) → w.reg = .v n → n < 240 →
    (Table.find g.v n).isSome = true → l < 32 →
    ((s.settle r).readReg r (.v n)).at' l =
      if w.due < s.cycle ∧ w.mask.lane l = true then w.vals.at' l else (s.readReg r (.v n)).at' l)
  ∧ (
  (∀ (i : Instr) (op : Op) (f : LongFields) (s : State) (x : Issue) (k : Nat) (reg : Reg), i.Has op f → s.Ready op f x →
    (op ∈ integerTable.map (·.1) ∨ op ∈ floatTable.map (·.1)) → (x.s.attrs s.issuing).decode ≠ 9 → x.dest.mask ≠ 0 →
    k < resultWords op f → x.dest.regs[k]? = some reg →
    ∃ t, exec i s = .next t ∧ (s.cycle + 4 * (fixedClass (shape op f) + 1), reg) ∈ t.self.locks)
  ∧ (∀ (s : State) (r : GroupRef) (op : Op) (f : LongFields) (e : Nat) (reg : Reg),
    (e, reg) ∈ (s.group r).locks → s.cycle < e → reg ∈ s.reads r op f → op ≠ .movx → op ≠ .movxw →
    ∃ u, s.turnKind r op f = .interlock u ∧ e ≤ u)
  ∧ (∀ (s : State) (r : GroupRef) (ws : List Word) (op : Op) (form : Form) (u : Nat),
    let s1 := s.modGroup r (fun g => { g with ir := ws })
    parse (s1.attrs r).decode ws = .ok (op, form) → s1.turnKind r op (formFields op form) = .interlock u →
    ∃ t, s.turnWith r ws = .next t ∧ (t.group r).pc = (s.group r).pc ∧ (t.group r).run = (s.group r).run
      ∧ (t.group r).stall = (s.group r).stall ∧ ((s.group? r).isSome = true → (t.group r).holdUntil = u)))

/-- R204: fclass writes a number in which exactly one bit is set, that of the class of A, in the lanes in which it
acts, and raises no flag. -/
def Obligations.FclassWritesOneBit : Prop :=
  ∀ (i : Instr) (f : LongFields) (s : State) (x : Issue), i.Has .fclass f → s.Ready .fclass f x →
    let fb := (floatFormat f.ty).fbits
    let eb := (floatFormat f.ty).ebits
    let cls := fun (v : Nat) =>
      let m := v % 2 ^ fb
      let e := v / 2 ^ fb % 2 ^ eb
      let neg := v.testBit (fb + eb)
      if e = 2 ^ eb - 1 then
        if m = 0 then (if neg then 0 else 7) else if m.testBit (fb - 1) then 9 else 8
      else if e = 0 then (if m = 0 then (if neg then 3 else 4) else if neg then 2 else 5)
      else if neg then 1 else 6
    ∃ t, exec i s = .next t
      ∧ x.Delivers .fclass f (fun k l =>
          if k = 0 then 1#32 <<< cls (laneVal x.a (x.operandLane f l)).toNat else 0) t
      ∧ (∀ l < 32, t.self.fpst.at' l = x.s.self.fpst.at' l) ∧ x.SameMasks t

/-- Entry to a handler and the return from it (R255, R257) give back the interrupted group: its recorded PC, em,
run count, SP, predicates, the five flags of sr.fpst (R128), latches and operand cache, in every lane, for a cause
of the whole group. -/
def Obligations.TrapEntryThenReturnRestoresTheGroup : Prop :=
  ∀ (g : Group) (cycle : Nat) (t : Trap) (h : DWord), g.formed = true → Memory.wf g.stack = true → g.copies = [] →
    g.run < 256 → g.cache.length = 8 → t.lanes = none → t.restart.length = 0 ∨ t.restart.length = 16 →
    let out := (g.enterTrap cycle 9 t h).leaveTrap g.spFinal
    out.pc = g.trapPc t &&& ~~~3#64 ∧ out.em = g.em ∧ out.run = g.run ∧ out.sp = g.spFinal ∧ out.sup = false
      ∧ out.v = g.v ∧ out.s = g.s ∧ out.k = g.k
      ∧ ∀ l < 32, out.fpst.at' l = g.fpst.at' l &&& 0x1F#32 ∧ (∀ n < 8, (out.pred n).lane l = (g.pred n).lane l)
        ∧ (∀ j, 1 ≤ j → j ≤ 3 → (out.latch j).map (fun y => y.at' l) = (g.latch j).map (fun y => y.at' l))
        ∧ (∀ j < 8, (out.cache.getD j none).map (fun y => y.at' l) = (g.cache.getD j none).map (fun y => y.at' l))

/-! ### Events -/

/-- R398: dep.inc and dep.dec complete: the counter of 8 bytes in device memory gains or loses B, modulo 2^64,
after the group's stores, and every other byte is as it was after them. dep.wait completes: a counter at most
0 lets the group go on, its run ended and its core's L1 copies dropped; any other lets it wait for the
counter. R399, R39: phase and retire of a group of a team complete. phase, outside a handler and a call, with
the SIZE and the stage of the first arrival or as the first, adds the group to the arrivals and ends its run
until the phase ends; another SIZE or stage raises BARRIER. retire ends the group for good
and sets the team on its way to retirement, with a halt on its way to each other group that lives. R398:
qstat.qaddr, qstat.tree, qstat.occ and qstat.room complete: D awaits the address of the descriptor of the
issuer's stage, the spawn-tree counter of its launch, and the occupancy, TAIL less HEAD modulo 2^64, or the room of the
queue whose descriptor A names. -/
def Obligations.PhasesAndCountersComplete : Prop :=
  (
  (∀ (f : LongFields) (i : Instr) (op : Op) (s s1 u : State) (x : Issue) (a : LaneAccess) (pa : Nat),
    (i, op) ∈ [(Instr.depInc f, Op.depInc), (.depDec f, .depDec)] → s.ReadyWith op f .fields counterChecks x →
    x.s.self.status = .running →
    x.s.virtualAccess s.issuing .atomic (x.s.self.uniformLane f) (laneVal x.a 0) 8 = (s1, .ok a) →
    a.spots = (List.range 8).map (fun j => Spot.device (.mem (pa + j))) →
    u = (s1.flushStores s.issuing).markAccess s.issuing op a → Memory.wf u.mem = true →
    let old := u.loadNum s.issuing false a.spots
    let b := (laneVal x.b 0).toNat % 2 ^ 32
    ∃ t, exec i s = .next t ∧ x.SelfAdvances x.s.self.nextPc [] t ∧ x.SameMasks t ∧ t.self.fpst = x.s.self.fpst
      ∧ Memory.readNum t.mem pa 8 = (if op = .depInc then old + b else old + 2 ^ 64 - b) % 2 ^ 64
      ∧ (∀ y, y < pa ∨ pa + 8 ≤ y → Memory.read t.mem y = Memory.read u.mem y) ∧ x.s.SameWindows t)
  ∧ (∀ (f : LongFields) (s s1 : State) (x : Issue) (a : LaneAccess), s.self.resumeWait = none →
    s.ReadyWith .depWait f .never counterChecks x →
    x.s.virtualAccess s.issuing .read (x.s.self.uniformLane f) (laneVal x.a 0) 8 = (s1, .ok a) →
    a.onHost = false → s1.spotPoison a.spots = false →
    (s1.counter a.counterAt.toNat ≤ 0 → ∃ t, exec (.depWait f) s = .next t ∧ x.Yields t
        ∧ (t.core s.issuing.core).l1 = [] ∧ s1.SameMemory t)
    ∧ (0 < s1.counter a.counterAt.toNat → ∃ t, exec (.depWait f) s = .next t ∧ x.Blocks (.dep a.counterAt) t
        ∧ s1.SameMemory t)))
  ∧ (
  (∀ (f : LongFields) (s : State) (x : Issue) (team : Team), s.self.resumeWait = none →
    s.ReadyWith .phase f .never (phaseChecks f) x →
    let at_ : TeamRef := ⟨s.issuing.core, x.s.self.team⟩
    let size := (laneVal x.a 0).setWidth 32
    let stage := f.extBits 2 0
    let n := x.s.self.number
    x.s.self.kind = .general → x.s.team? at_ = some team → x.s.self.call = none → x.s.self.sup = false →
    (team.phaseArrived = [] → ∃ t, exec (.phase f) s = .next t ∧ x.Blocks .phase t ∧ s.SameMemory t
        ∧ t.team? at_ = some { team with phaseSize := size, phaseStage := stage, phaseArrived := [n] })
    ∧ (team.phaseArrived ≠ [] → team.phaseSize = size → team.phaseStage = stage →
        ∃ t, exec (.phase f) s = .next t ∧ x.Blocks .phase t ∧ s.SameMemory t
          ∧ t.team? at_ = some { team with phaseArrived := team.phaseArrived ++ [n] })
    ∧ (team.phaseArrived ≠ [] → team.phaseSize ≠ size ∨ team.phaseStage ≠ stage →
        exec (.phase f) s = .next (x.s.trap s.issuing (Trap.plain .barrier))))
  ∧ (∀ (f : LongFields) (s : State) (x : Issue) (team : Team),
    s.ReadyWith .retire f .never (fun x => x.s.pure) x →
    let at_ : TeamRef := ⟨s.issuing.core, x.s.self.team⟩
    x.s.self.kind = .general → x.s.team? at_ = some team → team.ending = .no →
    ∃ t, exec (.retire f) s = .next t ∧ t.self.status = .exited ∧ t.self.v = []
      ∧ (t.team? at_).map (·.ending) = some .retire
      ∧ (∀ slot ∈ team.slots, slot ≠ s.issuing.slot →
          (x.s.group ⟨s.issuing.core, slot⟩).status = .running →
          Instr.haltDelivery ⟨s.issuing.core, slot⟩ ∈ t.agenda)
      ∧ s.SameMemory t ∧ x.s.SameWindows t))
  ∧ (
  ∀ (f : LongFields) (s s1 : State) (x : Issue) (h n : Nat) (l : Launch) (a : LaneAccess),
    let stage := (laneVal x.b 0).toNat % 2 ^ 32
    let occ := (s1.descField l n 0x20 8 + 2 ^ 64 - s1.descField l n 0x18 8) % 2 ^ 64
    let gives := fun (i : Instr) (words v : Nat) => ∃ t, exec i s = .next t ∧ x.Awaits words (fun k _ => wordOf v k) t
      ∧ x.SameMasks t ∧ s1.SameMemory t ∧ x.s.SameWindows t
    (s.ReadyWith .qstat f .fields (fun x => do
        check (x.s.ownLaunch.isSome && x.s.stageOk (num32 x.b)) .illegalOperand
        x.s.pure) x → x.s.ownLaunch = some (h, l) → s1 = x.s →
      gives (.qstatQaddr f) 2 ((l.area + BitVec.ofNat 64 (128 * (1 + stage))).toNat))
    ∧ (s.ReadyWith .qstat f .fields (fun x => do
        check (x.s.ownLaunch.isSome && true) .illegalOperand
        x.s.pure) x → x.s.ownLaunch = some (h, l) → s1 = x.s →
      gives (.qstatTree f) 2 (Memory.readNum x.s.mem (l.pa 0x18) 8))
    ∧ (s.ReadyWith .qstat f .fields (fun x => x.s.pure) x →
      x.s.virtualAccess s.issuing .read (x.s.self.uniformLane f) (laneVal x.a 0) 128 = (s1, .ok a) →
      s1.descriptorOf a = some (h, l, n) →
      gives (.qstatOcc f) 1 occ ∧ gives (.qstatRoom f) 1 (s1.descField l n 0x10 4 - occ)))

/-- R83 orders 2 and 3, R254-R256: words of decode mode 9 whose first word has OP8 0xFF, or an OP8 of no assigned
cell, raise ILLEGAL_INSTRUCTION with REASON 2 or 1. Where the vector has a handler, the group is not in one,
and SP + 128 is within LIMIT, the handler is entered, with the words' own address, cause 1 and the REASON in
every lane's frame; no register and no byte of memory changes. -/
def Obligations.IllegalWordsEnterTheHandler : Prop :=
  ∀ (s : State) (w : Word) (rest : List Word) (h : DWord) (reason : Nat),
    let g := s.self
    let base := g.spFinal
    (s.group? s.issuing).isSome = true → s.selfAttrs.decode = 9 →
    (w.extractLsb' 3 8 = 0xFF ∧ reason = 2) ∨ (w.extractLsb' 3 8 ≠ 0xFF ∧ Op.ofOp8 (w.extractLsb' 3 8) = none ∧ reason = 1) →
    s.handler s.issuing .illegalInstruction = some h → g.sup = false → base + 128 ≤ g.limit → g.skidLeft = none →
    g.copies = [] → Memory.wf g.stack = true →
    ∃ t, exec (.illegalInstruction (w :: rest)) s = .next t ∧ s.OnlyGroup t s.issuing ∧ s.SameMemory t ∧ s.SameWindows t
      ∧ t.self.pc = h &&& ~~~3#64 ∧ t.self.sp = base + 128 ∧ t.self.sup = true ∧ t.self.cause = 1 ∧ t.self.em = g.em
      ∧ t.self.v = g.v ∧ t.self.s = g.s ∧ t.self.k = g.k ∧ t.self.preds = g.preds ∧ t.self.fpst = g.fpst
      ∧ ∀ l < 32, t.self.readStack l base 8 = g.pc.toNat ∧ t.self.readStack l (base + 0x1C) 1 = 1
          ∧ t.self.readStack l (base + 0x1D) 1 = reason

/-- R443-R445, R453: a cold start with a good image (its MAGIC, its SVN at least the fused minimum, its signature)
scrubs the device but for the CXL window, extends MEAS0 to MEAS4 from 0, the digests of the Pilot's and the Tug's
images among them, starts the Tug of every core in slot 15 and leaves FAILS, and the module starts anew in
STARTING; a warm start of a powered module outside SAFE keeps the cycle and the key. Where the image stands is the
model's reading (log entry 74). The signature is that of the vendor key, which comes with the start by the same
reading. A start that fails counts in FAILS, and the third leaves the module in SAFE; while a start waits for READY, READY
sets RUNNING and FAILS to 0, and no other READY or failure acts; a write of MBOX sets it, and in SAFE makes a cold
start; a thermal trip removes power. R439-R442, R450-R452: a write of EXTCMD with GO extends MEAS5 to MEAS7 by EXTDATA and no other;
a write of ATTCMD with GO and an address in device memory writes the report there, and with one where the block
cannot write (a hole, and by the model's reading, log entry 17, control space and a core without power) sets ERR;
a firmware append of event 0x100 to 0x1FF is taken with APPEND as it stands, and at the end of its cycle, once the ring has
room, it is the next entry of the chain; and the block spills its oldest unspilled entry to the host half, a step that falls
due while there is one and a spill region. -/
def Obligations.StartsPowerAndAuditComplete : Prop :=
  (
  ∀ (s : State) (inp : StartInput) (val : DWord),
    let ext := fun (d : BitVec 512) => sha3 (bytes512 0 ++ bytes512 d)
    let fails := min 3 (s.security.fails + 1)
    let n := 16 + s.imageField 8 + s.imageField 12
    let good := fun minSvn digest => s.imageField 0 = 0x4D575A47 ∧ minSvn ≤ s.imageField 4 ∧ sha3 inp.vendorKey = digest
      ∧ mlDsaVerify inp.vendorKey (s.startImage 0 n) (s.startImage n 4627) = true
    let pilot := sha3 (s.startImage 16 (s.imageField 8))
    let tug := sha3 (s.startImage (16 + s.imageField 8) (s.imageField 12))
    let scrubbed := fun (t : State) => t.contexts = [] ∧ t.agenda = [] ∧ t.hostMem = s.hostMem
      ∧ (Memory.wf s.mem = true → ∀ a, Memory.read t.mem a =
          if 0x080000000000 ≤ a ∧ a < 0x0F0000000000 then Memory.read s.mem a else 0)
    let tugs := fun (t : State) => ∀ c < 384, ∃ g, (t.core c).groups = [(15, g)] ∧ g.kind = .tug ∧ g.status = .running
      ∧ g.pc = alignTarget g.pc ∧ (t.core c).ctx = none ∧ ∀ o, Memory.read (t.core c).win o = 0
    (inp.trained = true → inp.selfTest = true → good inp.minSvn inp.vendorDigest →
      ∃ t, exec (.coldStart inp) s = .next t ∧ t.cycle = 0 ∧ scrubbed t ∧ tugs t ∧ t.security.state = .starting
        ∧ t.security.fails = s.security.fails ∧ t.security.warm = false ∧ t.security.powered = true
        ∧ t.security.meas = [ext inp.romDigest, ext inp.fuseDigest, ext pilot, ext tug, ext 0, 0, 0, 0])
    ∧ ((inp.trained && inp.selfTest) = false ∨ ¬ good inp.minSvn inp.vendorDigest →
      ∃ t, exec (.coldStart inp) s = .next t ∧ scrubbed t ∧ t.cores = [] ∧ t.security.fails = fails
        ∧ t.security.state = if fails = 3 then .safe else .starting)
    ∧ (s.security.powered = true → s.security.state ≠ .safe → good s.security.minSvn s.security.vendorDigest →
      ∃ t, exec (.warmStart inp) s = .next t ∧ t.cycle = s.cycle ∧ scrubbed t ∧ tugs t
        ∧ t.security.warm = true ∧ t.security.state = .starting ∧ t.security.seedHash = s.security.seedHash
        ∧ t.security.meas = [ext s.security.romDigest, ext s.security.fuseDigest, ext pilot, ext tug, ext 1, 0, 0, 0])
    ∧ (s.security.powered = true → s.security.state ≠ .safe → ¬ good s.security.minSvn s.security.vendorDigest →
      ∃ t, exec (.warmStart inp) s = .next t ∧ scrubbed t ∧ t.cores = [] ∧ t.security.fails = fails)
    ∧ (s.security.started = true → ∃ t, exec .startFailure s = .next t ∧ t.security.fails = fails
        ∧ (t.security.state = if fails = 3 then .safe else s.security.state) ∧ t.security.started = false
        ∧ t.mem = s.mem ∧ t.cores = s.cores)
    ∧ (s.security.started = true → ∃ t, exec .ready s = .next t ∧ t.security.state = .running ∧ t.security.fails = 0
        ∧ t.security.started = false ∧ t.mem = s.mem ∧ t.cores = s.cores)
    ∧ (s.security.started = false → exec .startFailure s = .next s ∧ exec .ready s = .next s)
    ∧ (s.security.state ≠ .safe → ∃ t, exec (.mboxWrite val inp) s = .next t ∧ t.security.mbox = val ∧ t.mem = s.mem
        ∧ t.cores = s.cores ∧ t.security.state = s.security.state)
    ∧ (s.security.state = .safe → s.security.powered = true →
        exec (.mboxWrite val inp) s = exec (.coldStart inp) { s with security := { s.security with mbox := val } })
    ∧ (s.security.powered = true → ∃ t, exec .thermalTrip s = .next t ∧ t.security.powered = false ∧ t.mem = s.mem
        ∧ t.cores = s.cores))
  ∧ (
  ∀ (s : State),
    let y := s.security
    (∀ (cmd : Word), cmd.toNat.testBit 8 = true → 5 ≤ cmd.toNat % 8 → y.meas.length = 8 →
      ∃ t, exec (.measExtend cmd) s = .next t ∧ t.mem = s.mem ∧ t.cores = s.cores
        ∧ ∀ n < 8, t.security.meas.getD n 0 = if n = cmd.toNat % 8 then
            sha3 (bytes512 (y.meas.getD n 0) ++ bytes512 y.extData) else y.meas.getD n 0)
    ∧ (∀ (cmd : DWord), let a := cmd.toNat / 2 ^ 8 % 2 ^ 40 * 256
      cmd.getLsbD 0 = true →
      (s.unwritable a 0x1500 = true → ∃ t, exec (.attestationReport cmd) s = .next t ∧ t.security.attErr = true
        ∧ t.mem = s.mem ∧ t.cores = s.cores)
      ∧ ((∀ j < 0x1500, placeOf (a + j) = .mem (a + j)) → Memory.wf s.mem = true →
        ∃ t, exec (.attestationReport cmd) s = .next t ∧ t.security.attErr = false
          ∧ (∀ p, p < a ∨ a + 0x1500 ≤ p → Memory.read t.mem p = Memory.read s.mem p)
          ∧ Memory.readNum t.mem a 4 = 0x54415A47 ∧ Memory.readNum t.mem (a + 4) 2 = s.links.modId.toNat
          ∧ ∀ j < 64, Memory.read t.mem (a + 0x20 + j) = (bytes512 y.nonce).getD j 0))
    ∧ (∀ (event : BitVec 16) (tug : Bool), 0x100 ≤ event.toNat → event.toNat ≤ 0x1FF →
      exec (.auditAppend event tug) s =
        .next { s with security := { y with appends := y.appends ++ [(event.toNat, tug, y.append)] } })
    ∧ (∀ (event : Nat) (tug : Bool) (data : BitVec 256), event < 2 ^ 16 → y.appends = [(event, tug, data)] →
      let t := s.auditTick
      (y.unspilled < 512 → ∃ e, t.security.nextSeq = y.nextSeq + 1 ∧ t.security.appends = []
        ∧ t.security.unspilled = y.unspilled + 1 ∧ t.security.ring = (e :: y.ring).take 512 ∧ e.seq = y.nextSeq
        ∧ e.hash = sha3 (bytes512 y.head ++ e.body) ∧ t.security.head = e.hash ∧ e.body.length = 64
        ∧ numOfBytes ((e.body.drop 16).take 2) = event ∧ e.body.drop 32 = bytesOfNum 32 data.toNat
        ∧ t.mem = s.mem ∧ t.cores = s.cores)
      ∧ (512 ≤ y.unspilled → t.security.appends = y.appends ∧ t.security.ring = y.ring))
    ∧ (s.auditTick.security.unspilled ≠ 0 → 9 ≤ y.spillM → y.spillM ≤ 24 → Instr.auditSpill ∈ s.auditTick.agenda)
    ∧ (∀ e, let seq := y.nextSeq - y.unspilled
      y.unspilled ≠ 0 → 9 ≤ y.spillM → y.spillM ≤ 24 → y.ring.find? (fun x => x.seq = seq) = some e → y.lostDue = 0 →
      e.body.length = 64 → Memory.wf (Table.get s.hostMem [] 0) = true →
      ∃ t, exec .auditSpill s = .next t ∧ t.security.unspilled = y.unspilled - 1 ∧ t.mem = s.mem ∧ t.cores = s.cores
        ∧ ∀ j < 128, Memory.read (Table.get t.hostMem [] 0) (y.spillBase.toNat + 128 * (seq % 2 ^ y.spillM) + j) =
            (e.body ++ bytes512 e.hash).getD j 0))

/-- R447-R449: a context whose descriptor has a root and a free function 0 to 64 is created: valid, with an empty
directory, no remote range and no debugger, its descriptor kept. A context with no team, no mapped queue and
no debugger is released: its descriptor is at the cold-start values and no core holds it; with a core that has no power
the release ends after that core's scrub, at its wake. That a release leaves the bytes of device memory as they are, where
R447 step 2 zeroes tagged lines of the L2, is the model's reading (log entry 39), and so is that a context under release is
no context for an assignment (log entry 86). A write of CORECTX assigns a clean, unoccupied, unfenced core, or sets ERR. -/
def Obligations.ContextsAndAssignmentComplete : Prop :=
  ∀ (s : State) (ctx : Fin 64),
    let c := s.context ctx
    let free := s.security.releasing = none
    (free → c.valid = false → c.root ≠ 0 → c.func ≤ 64 → s.funcTaken ctx c.func = false →
      ∃ t, exec (.ctxCreate ctx) s = .next t ∧ (t.context ctx).valid = true ∧ (t.context ctx).root = c.root
        ∧ (t.context ctx).func = c.func ∧ (t.context ctx).directory = [] ∧ (t.context ctx).remote = []
        ∧ (t.context ctx).debugger = false ∧ (t.context ctx).tvec = 0 ∧ t.security.ctxStatus = 0
        ∧ (∀ n, n ≠ ctx.val → t.context n = s.context n) ∧ t.mem = s.mem ∧ t.cores = s.cores)
    ∧ (free → c.valid = true → ∃ t, exec (.ctxCreate ctx) s = .next t ∧ t.security.ctxStatus = 1 ∧ t.contexts = s.contexts)
    ∧ (free → c.valid = true → s.hasTeam ctx = false → s.hasMappedQueue ctx = false → c.debugger = false →
      (s.cores.map (·.1)).Nodup → s.scrubWaits ctx = false →
      ((∀ e ∈ s.cores, s.isGated e.1 = false) →
        ∃ t, exec (.ctxRelease ctx) s = .next t ∧ t.context ctx = Context.cold ∧ t.security.ctxStatus = 0
          ∧ (∀ n, n ≠ ctx.val → t.context n = s.context n) ∧ (∀ k, (t.core k).ctx ≠ some ctx.val) ∧ t.mem = s.mem)
      ∧ (∀ k, (s.core k).ctx = some ctx.val → s.isGated k = true →
        ∃ t, exec (.ctxRelease ctx) s = .next t ∧ t.security.releasing = some ctx.val ∧ (t.context ctx).valid = true
          ∧ (t.core k).ctx = none ∧ (t.core k).scrubDue = some (ctx.val, none) ∧ t.mem = s.mem))
    ∧ (free → c.valid = true → (s.hasTeam ctx || s.hasMappedQueue ctx || c.debugger) = true →
      ∃ t, exec (.ctxRelease ctx) s = .next t ∧ t.security.ctxStatus = 1 ∧ t.contexts = s.contexts ∧ t.mem = s.mem)
    ∧ (∀ (core : Fin 384) (val : DWord), let k := s.core core
      val.toNat / 2 ^ 7 % 2 = 1 → val.toNat % 64 = ctx.val → k.scrubDue = none →
      (k.occupied = false → c.valid = true → s.security.releasing ≠ some ctx.val → k.fenced = false → k.clean = true →
        ∃ t, exec (.corectxWrite core val) s = .next t ∧ (t.core core).ctx = some ctx.val
          ∧ (t.core core).corectxErr = false ∧ t.mem = s.mem ∧ ∀ n, n ≠ core.val → t.core n = s.core n)
      ∧ ((k.occupied || k.fenced || !c.valid) = true →
        ∃ t, exec (.corectxWrite core val) s = .next t ∧ (t.core core).corectxErr = true ∧ (t.core core).ctx = k.ctx
          ∧ t.mem = s.mem ∧ ∀ n, n ≠ core.val → t.core n = s.core n))

/-- R266, R271, R270, R277, R278: a walk of a core that ends at a leaf that permits a read sets A in the leaf and
installs the translation in the core's TLB and its die's. The host's response to a page lets each held group
go on, ready from the next cycle; an ATS completion that grants an access holds its rights for the page, and one that
grants none is not held and asks for the page; a page request's success lets its groups go on, and an invalidation drops
the page's rights. A shootdown that completes leaves no entry of its context that covers its range in the TLB of a core or
of a die, and no buffered store of its context; the packets that the front end has read stay as they were, and that of an
INVAL completes. -/
def Obligations.TranslationEventsComplete : Prop :=
  ∀ (s : State) (ctx : Fin 64) (page va : DWord),
    let c := s.context ctx
    (∀ (core : Fin 384), let v := va.toNat % 2 ^ 56
      let w := walkChecked s.mem v 3 c.root
      let e := tlbEntryOf s.mem ctx w v
      c.valid = true → va.toNat / 2 ^ 56 = 0xFF → c.remoteOf va.toNat = none → w.result = .leaf →
      w.entry.testBit 2 = true → Memory.wf s.mem = true →
      ∃ t, exec (.pageWalkComplete core ctx va) s = .next t ∧ (t.core core).tlb = e :: (s.core core).tlb
        ∧ Table.get t.dieTlb [] (dieOf core) = (e :: Table.get s.dieTlb [] (dieOf core)).take 12288
        ∧ (Memory.readNum t.mem w.at_ 8).testBit 6 = true
        ∧ (∀ a, a < w.at_ ∨ w.at_ + 8 ≤ a → Memory.read t.mem a = Memory.read s.mem a)
        ∧ t.contexts = s.contexts ∧ s.SameWindows t)
    ∧ (∀ h : HostRequest, c.hostRequests.find? (fun x => x.page = page) = some h → h.queues = [] →
      (∀ r ∈ h.groups, (s.group r).status = .hostHeld page ∧ (s.group? r).isSome = true) → h.groups.Nodup →
      ∀ i ∈ [Instr.hostPageResponse ctx page true, .priResponse ctx page true],
        ∃ t, exec i s = .next t ∧ t.mem = s.mem
          ∧ (∀ r ∈ h.groups, (t.group r).status = .running ∧ (t.group r).pc = (s.group r).pc
              ∧ (r.slot / 16 < (s.core r.core).ready.length →
                (s.cycle + 1, r.slot) ∈ (t.core r.core).ready.getD (r.slot / 16) []))
          ∧ (t.context ctx).hostRequests.find? (fun x => x.page = page) = none)
    ∧ (c.valid = true → va.msb = false → s.queuesOf ctx = [] → ∀ r w : Bool,
      ∃ t, exec (.atsCompletion ctx va r w) s = .next t ∧ t.mem = s.mem ∧ t.cores = s.cores
        ∧ ((r || w) = true → (t.context ctx).ats.head? = some ⟨pageOf va, c.func, r, w⟩
            ∧ (t.context ctx).ats.tail = c.ats.filter (fun x => x.page ≠ pageOf va))
        ∧ ((r || w) = false → (t.context ctx).ats = c.ats ∧ ∃ h ∈ (t.context ctx).hostRequests, h.page = pageOf va)
        ∧ ∀ n, n ≠ ctx.val → t.context n = s.context n)
    ∧ (∃ t, exec (.atsInvalidateRequest ctx va) s = .next t ∧ (∀ x ∈ (t.context ctx).ats, x.page ≠ pageOf va)
        ∧ (∀ n, n ≠ ctx.val → t.context n = s.context n) ∧ s.SameWindows t)
    ∧ (∀ (id : Nat) (x : Shootdown), s.shootdowns.find? (fun y => y.id = id) = some x →
      let clear := fun (tlb : List TlbEntry) => ∀ y ∈ tlb, y.ctx = x.ctx → ∀ p ∈ y.pages,
        x.hi ≤ 0xFF00000000000000 + p.1 * 2 ^ pageBits y.level
          ∨ 0xFF00000000000000 + (p.1 + 1) * 2 ^ pageBits y.level ≤ x.lo
      ∃ t, t.shootdowns = s.shootdowns.filter (fun y => y.id ≠ id) ∧ (∀ k ∈ t.cores, clear k.2.tlb)
        ∧ (∀ d ∈ t.dieTlb, clear d.2) ∧ ((s.cores.map (·.1)).Nodup → ∀ e ∈ t.cores, ∀ b ∈ e.2.stores, b.ctx ≠ x.ctx) ∧ s.SameWindows t
        ∧ t.front.queues = s.front.queues
        ∧ exec (.shootdownComplete id) s = .next (match x.packet with
            | some (q, index) => (t.finishPacket q index true true).pump q
            | none => t))

/-- R429, R430, R432-R434, R269, R5: a host access through BAR2 to device memory writes the bytes that it gives (at every device
address with memory, where R429 gives 2 TiB: the model's reading, log entry 18),
and a remote write, fetch-and-add, swap or compare-and-swap that its context translates to device memory writes the value that the
operation gives, with no other byte changed but D of the leaf, while a remote read changes nothing; a link that is trained is UP
with its peer, one that goes down is not;
POOLTAIL takes a value that leaves the count within POOLSIZE. Control space: whole-word writes of the context descriptors (R268,
R269), remote ranges (R431), MODID and LINKSTAT (R430), the run list (R406), ATTNONCE, EXTDATA, the spill region, MBOX (R440-R443,
R452) and the debug registers (R262) set the writable fields and no other; and what their registers read, with MEAS, SECSTAT,
AUDITHEAD, AUDITSTAT, CTXCMD and CORECTX (R440, R445-R452). A POOLSIZE above 2^24 is stored as written (the model's choice, log
entry 97). -/
def Obligations.OutsideAccessesComplete : Prop :=
  ∀ (s : State),
    (∀ (addr : BitVec 48) (n : Nat) (v : DWord) (w : BitVec 128), n ≤ 8 → (∀ j < n, placeOf (addr.toNat + j) = .mem (addr.toNat + j)) →
      Memory.wf s.mem = true →
      (∃ t, exec (.hostBar2Access addr (.write n w)) s = .next t
        ∧ Memory.readNum t.mem addr.toNat n = w.toNat % 2 ^ (8 * n)
        ∧ (∀ a, a < addr.toNat ∨ addr.toNat + n ≤ a → Memory.read t.mem a = Memory.read s.mem a) ∧ s.SameWindows t)
      ∧ (∃ t, exec (.hostBar2Access addr (.fetchAdd n v)) s = .next t
        ∧ Memory.readNum t.mem addr.toNat n = (Memory.readNum s.mem addr.toNat n + v.toNat) % 2 ^ (8 * n)
        ∧ ∀ a, a < addr.toNat ∨ addr.toNat + n ≤ a → Memory.read t.mem a = Memory.read s.mem a)
      ∧ exec (.hostBar2Access addr (.read n)) s = .next s)
    ∧ (∀ (ctx : Fin 64) (va v : DWord) (n pa : Nat) (u : State), n ≤ 8 → (s.context ctx).valid = true →
      s.spotsAt true ctx .atomic va n = .ok ((List.range n).map (fun j => Spot.device (.mem (pa + j)))) →
      u = (chunksOf va n).foldl (fun y c => y.markDirtyHere ctx c.1) s → Memory.wf u.mem = true →
      ∃ t, exec (.remoteAccess ctx va (.swap n v)) s = .next t ∧ Memory.readNum t.mem pa n = v.toNat % 2 ^ (8 * n)
        ∧ ∀ a, a < pa ∨ pa + n ≤ a → Memory.read t.mem a = Memory.read u.mem a)
    ∧ (∀ (ctx : Fin 64) (va v c : DWord) (w : BitVec 128) (n pa : Nat) (u : State), n ≤ 16 → (s.context ctx).valid = true →
      u = (chunksOf va n).foldl (fun y c => y.markDirtyHere ctx c.1) s → Memory.wf u.mem = true →
      let old := Memory.readNum s.mem pa n
      let cells := Except.ok ((List.range n).map (fun j => Spot.device (.mem (pa + j))))
      let writes := fun (a : OutsideAccess) (x : Nat) => ∃ t, exec (.remoteAccess ctx va a) s = .next t
        ∧ Memory.readNum t.mem pa n = x % 2 ^ (8 * n)
        ∧ ∀ a, a < pa ∨ pa + n ≤ a → Memory.read t.mem a = Memory.read u.mem a
      (s.spotsAt true ctx .read va n = cells → exec (.remoteAccess ctx va (.read n)) s = .next s)
      ∧ (s.spotsAt true ctx .write va n = cells → writes (.write n w) w.toNat)
      ∧ (s.spotsAt true ctx .atomic va n = cells → n ≤ 8 → writes (.fetchAdd n v) (old + v.toNat)
          ∧ writes (.cas n c v) (if old = c.toNat % 2 ^ (8 * n) then v.toNat else old)))
    ∧ (∀ (ctx : Fin 64) (va : DWord) (a : OutsideAccess) (x : DWord) (why : Cause), (s.context ctx).valid = true →
      s.spotsAt true ctx (outsideKind a) va (outsideSize a) = .error (x, .cause why) →
      exec (.remoteAccess ctx va a) s = .next s)
    ∧ (∀ (link : Fin 18) (peer : BitVec 16), s.links.up.length = 18 → s.links.peer.length = 18 →
      (∃ t, exec (.linkUp link peer) s = .next t ∧ t.links.up.getD link false = true ∧ t.links.peer.getD link 0 = peer
        ∧ (∀ n, n ≠ link.val → t.links.up.getD n false = s.links.up.getD n false) ∧ t.mem = s.mem ∧ t.cores = s.cores)
      ∧ (∃ t, exec (.linkDown link) s = .next t ∧ t.links.up.getD link false = false ∧ t.links.peer = s.links.peer
        ∧ (∀ n, n ≠ link.val → t.links.up.getD n false = s.links.up.getD n false) ∧ t.mem = s.mem))
    ∧ (∀ (ctx : Fin 64) (v : Word), let c := s.context ctx
      ((v - c.poolHead).toNat ≤ c.poolSize.toNat → exec (.pooltailWrite ctx v) s = .next
        { s with contexts := Table.set s.contexts ctx { c with poolTail := v } })
      ∧ (c.poolSize.toNat < (v - c.poolHead).toNat →
        ∃ t, exec (.pooltailWrite ctx v) s = .next t ∧ (∀ n, t.context n = s.context n) ∧ t.mem = s.mem ∧ t.cores = s.cores))
    ∧ (∀ v : DWord, s.security.state ≠ .safe →
      ∃ t, exec (.registerWrite 0x0FF000030000 2 v) s = .next t ∧ t.links.modId = v.setWidth 16 ∧ t.links.up = s.links.up
        ∧ t.mem = s.mem ∧ t.cores = s.cores ∧ t.contexts = s.contexts)
    ∧ (∀ (o : Nat) (v : DWord), s.security.state ≠ .safe →
      let write := exec (.registerWrite (BitVec.ofNat 48 (0x0FF000000000 + o)) 8 v) s
      let n := v.toNat
      let y := s.security
      let d := s.dbg
      (∀ c < 64, let x := s.context c
        let set := fun (z : Context) => Host.Outcome.next { s with contexts := Table.set s.contexts c z }
        let at_ := 0x20000 + 32 * c
        (o = at_ → write = set { x with root := n / 2 ^ 13 % 2 ^ 35 * 2 ^ 13, func := n / 2 % 2 ^ 7 })
        ∧ (o = at_ + 8 → write = set { x with poolBase := n / 2 ^ 7 % 2 ^ 41 * 2 ^ 7 })
        ∧ (o = at_ + 16 → write =
            set (if n % 2 ^ 32 < (x.poolTail - x.poolHead).toNat then x else { x with poolSize := v.setWidth 32 }))
        ∧ (o = at_ + 24 → write = set (if x.poolSize.toNat < ((v >>> 32).setWidth 32 - x.poolHead).toNat then x
            else { x with poolTail := (v >>> 32).setWidth 32 }))
        ∧ ∀ e < 16, let z := Table.get x.remote (0, 0) e
          (o = 0x40000 + 256 * c + 16 * e → write =
              set { x with remote := Table.set x.remote e (v &&& 0xFFFFFFFFFFFFFF#64, z.2) })
          ∧ (o = 0x40000 + 256 * c + 16 * e + 8 → write =
              set { x with remote := Table.set x.remote e (z.1, v &&& 0xFFFFFF#64) }))
      ∧ (o = 0x30000 → write = .next { s with links := { s.links with modId := v.setWidth 16 } })
      ∧ (0x30100 ≤ o → o < 0x30190 → o % 8 = 0 → write = .next s)
      ∧ (∀ q < 1024, o = 0x12000 + 8 * q → write = .next (if s.isAttached q then s else
          { s with front := { s.front with
              runList := Table.set s.front.runList q ⟨n / 2 ^ 7 % 2 ^ 41 * 2 ^ 7, n / 2 % 2 ^ 6, v.getLsbD 0⟩ } }))
      ∧ (∀ i < 8, let word := fun (x : BitVec 512) (j : Nat) => x.toNat / 2 ^ (64 * j) % 2 ^ 64
        (o = 0x50380 + 8 * i → ∃ x, write = .next { s with security := { y with nonce := x } }
          ∧ ∀ j < 8, word x j = if j = i then n else word y.nonce j)
        ∧ (o = 0x50300 + 8 * i → ∃ x, write = .next { s with security := { y with extData := x } }
          ∧ ∀ j < 8, word x j = if j = i then n else word y.extData j))
      ∧ (o = 0x50448 → write = .next { s with security := { y with spillBase := v } })
      ∧ (o = 0x50450 → y.spillM < 2 ^ 64 → write = .next { s with security := { y with spillM := n } })
      ∧ (o = 0x52000 → write = .next { s with fresh := s.fresh + 1, security := { y with mbox := v } })
      ∧ (let busy := ∃ i ∈ s.agenda, i ∈ [Instr.debugAttach, .debugDetach, .debugStop, .debugResume, .debugStep, .debugRead, .debugWrite]
        d.status < 2 ^ 4 → d.op < 2 ^ 4 → d.ctx < 2 ^ 6 → d.core < 2 ^ 9 → d.slot < 2 ^ 6 →
        (busy → 0x60000 ≤ o → o < 0x60100 → o % 8 = 0 → write = .next s)
        ∧ (¬ busy →
          (o = 0x60000 → write = .next { s with dbg := { d with
              op := n / 2 ^ 52 % 2 ^ 4, ctx := n / 2 ^ 46 % 2 ^ 6, core := n / 2 ^ 37 % 2 ^ 9, slot := n / 2 ^ 31 % 2 ^ 6 } })
          ∧ (o = 0x60008 → write = .next { s with dbg := { d with
              kind := n / 2 ^ 20 % 2 ^ 4, num := n / 2 ^ 12 % 2 ^ 8, index := n / 2 ^ 6 % 2 ^ 6 } })
          ∧ (o = 0x60010 → v.getLsbD 0 = false → write = .next s)
          ∧ (∀ k i, (k, i) ∈ [(0, Instr.debugAttach), (1, .debugDetach), (2, .debugStop), (3, .debugResume), (4, .debugStep),
                (5, .debugRead), (6, .debugWrite)] → o = 0x60010 → v.getLsbD 0 = true → d.op = k →
              write = .next { s with agenda := s.agenda ++ [i] })
          ∧ (o = 0x60010 → v.getLsbD 0 = true → 7 ≤ d.op → write = .next { s with dbg := { d with status := 1 } })
          ∧ (∀ j < 16, o = 0x60080 + 8 * j → write = .next { s with dbg := { d with
              data := (d.data.set (2 * j) (v.setWidth 32)).set (2 * j + 1) ((v >>> 32).setWidth 32) } }))))
    ∧ (s.security.state ≠ .safe →
      let y := s.security
      let bit := fun (b : Bool) (i : Nat) => if b then 2 ^ i else 0
      let word := fun (x : BitVec 512) (j : Nat) => x.toNat / 2 ^ (64 * j) % 2 ^ 64
      (∀ c < 64, let x := s.context c
        s.controlWord (0x20000 + 32 * c) = x.root + x.func * 2 + bit x.valid 0
        ∧ s.controlWord (0x20008 + 32 * c) = x.poolBase ∧ s.controlWord (0x20010 + 32 * c) = x.poolSize.toNat
        ∧ s.controlWord (0x20018 + 32 * c) = x.poolTail.toNat * 2 ^ 32 + x.poolHead.toNat
        ∧ ∀ e < 16, let z := Table.get x.remote (0, 0) e
          s.controlWord (0x40000 + 256 * c + 16 * e) = z.1.toNat ∧ s.controlWord (0x40008 + 256 * c + 16 * e) = z.2.toNat)
      ∧ s.controlWord 0x30000 = s.links.modId.toNat
      ∧ (∀ n < 18, s.controlWord (0x30100 + 8 * n) =
          bit (s.links.up.getD n false) 16 + (s.links.peer.getD n 0).toNat)
      ∧ (∀ q < 1024, let e := Table.get s.front.runList ⟨0, 0, false⟩ q
          s.controlWord (0x12000 + 8 * q) = e.qcb + e.ctx * 2 + bit e.valid 0)
      ∧ s.controlWord 0x50000 = (if y.state = .starting then 0 else 2 ^ 16) + y.fails * 2 ^ 12 + bit y.warm 8
      ∧ (∀ i < 8, (∀ j < 8, s.controlWord (0x50100 + 64 * i + 8 * j) = word (y.meas.getD i 0) j)
          ∧ s.controlWord (0x50400 + 8 * i) = word y.head i)
      ∧ s.controlWord 0x50440 = y.lost * 2 ^ 32 + y.unspilled ∧ s.controlWord 0x52000 = y.mbox.toNat
      ∧ s.controlWord 0x50800 = bit y.releasing.isSome 31 + y.ctxStatus * 2 ^ 28 + y.ctxOp * 2 ^ 9 + y.ctxCtx
      ∧ (∀ n < 384, let k := s.core n
          s.controlWord (0x54000 + 8 * n) = bit k.scrubDue.isSome 63 + bit k.corectxErr 62
            + bit (if k.scrubDue.isSome then (k.scrubDue.bind (·.2)).isSome else k.ctx.isSome) 7 + k.corectxCtx))

/-- R405, R406, R423-R425: a doorbell write within the ring sets WIDX of a valid queue, and one past it sets
STATE.FAULTED; a run-list write sets the entry of a queue in no slot; MAP puts a mappable queue into an empty
slot; UNMAP with MODE 0 takes a queue with no started packet in its way out of its slot; SWITCH does both, and the new
queue is in the slot; while a started packet is in the way both wait, and are due again. UNMAP with MODE 1 sets the queue to
be destroyed. The front end then brings the queue forward (`pump`). An operation that names no such slot or queue is refused:
that this holds of a SWITCH of a slot that holds no queue, where R424 could be read as a MAP alone, is the model's choice
(log entry 41). -/
def Obligations.QueueOperationsComplete : Prop :=
  ∀ (s : State) (q q' : Fin 1024) (slot : Fin 128) (val : DWord),
    let e := s.runEntry q
    let since := fun off => (val - BitVec.ofNat 64 (s.qcbField q off 8)).toNat
    let size := s.qcbField q 8 4
    (e.valid = true → s.qcbValid q = true → (s.qState q).testBit 0 = false → (s.qState q).testBit 2 = false →
      Memory.wf s.mem = true →
      (since 0x10 ≤ size → since 0x20 ≤ size → since 0x20 ≠ 0 →
        ∃ u : State, exec (.doorbellWrite q val 0) s = .next (if s.isAttached q then u.pump q else u)
          ∧ Memory.readNum u.mem (e.qcb + 0x20) 8 = val.toNat ∧ u.front = s.front
          ∧ ∀ a, a < e.qcb + 0x20 ∨ e.qcb + 0x28 ≤ a → Memory.read u.mem a = Memory.read s.mem a)
      ∧ (size < since 0x10 ∨ size < since 0x20 → ∃ t, exec (.doorbellWrite q val 0) s = .next t
          ∧ (Memory.readNum t.mem (e.qcb + 0x28) 1).testBit 0 = true ∧ Memory.readNum t.mem (e.qcb + 0x29) 1 = 9
          ∧ Memory.readNum t.mem (e.qcb + 0x30) 8 = val.toNat))
    ∧ (s.isAttached q = false → ∃ t, exec (.runListWrite q val) s = .next t
        ∧ t.runEntry q = ⟨val.toNat / 2 ^ 7 % 2 ^ 41 * 128, val.toNat / 2 % 64, val.getLsbD 0⟩
        ∧ (∀ n, n ≠ q.val → t.runEntry n = s.runEntry n) ∧ t.mem = s.mem ∧ t.cores = s.cores)
    ∧ (s.isAttached q = true → exec (.runListWrite q val) s = .next s)
    ∧ (Table.find s.front.slots slot = none → s.mappable q = true →
        ∃ u : State, exec (.map slot q) s = .next (u.pump q) ∧ Table.find u.front.slots slot = some q.val
          ∧ u.front.hqBusy = false ∧ u.front.hqRefused = false ∧ u.front.hqQcb = e.qcb ∧ u.mem = s.mem
          ∧ ∀ n, n ≠ slot.val → Table.find u.front.slots n = Table.find s.front.slots n)
    ∧ ((Table.find s.front.slots slot ≠ none ∨ s.mappable q = false) →
        ∃ t, exec (.map slot q) s = .next t ∧ t.front.hqRefused = true ∧ t.front.slots = s.front.slots ∧ t.mem = s.mem)
    ∧ (Table.find s.front.slots slot = some q.val → (s.frontQueue q).packets = [] →
        (∃ t, exec (.unmapSuspend slot) s = .next t ∧ Table.find t.front.slots slot = none ∧ t.front.hqBusy = false
          ∧ t.front.hqRefused = false ∧ t.mem = s.mem ∧ (t.frontQueue q).stopping = true)
        ∧ (∃ u : State, exec (.unmapDestroy slot) s = .next ((u.pump q).due
              [if s.front.launches.any (fun l => l.2.queue = q.val && !l.2.draining && l.2.lost) then .unmapDestroy slot
                else .queueDestroyed q]) ∧
            ((∀ l ∈ s.front.launches, l.2.queue ≠ q.val) → (u.frontQueue q).destroying = true ∧ u.mem = s.mem))
        ∧ ((s.detach slot).mappable q' = true →
            exec (.switch slot q') s =
              exec (.map slot q') ((((s.stopQueue q).retryFinish q).retireAll q).detach slot)
            ∧ ∃ u : State, exec (.switch slot q') s = .next (u.pump q') ∧ Table.find u.front.slots slot = some q'.val
              ∧ u.front.hqBusy = false ∧ u.front.hqRefused = false ∧ u.front.hqQcb = (s.runEntry q').qcb ∧ u.mem = s.mem
              ∧ ∀ n, n ≠ slot.val → Table.find u.front.slots n = Table.find s.front.slots n))
    ∧ (Table.find s.front.slots slot = some q.val → let u := (s.stopQueue q).retryFinish q
        u.queueBusy q = true → exec (.unmapSuspend slot) s = .next (u.due [.unmapSuspend slot])
          ∧ ((s.frontQueue q).stopping = true ∨ (s.detach slot).mappable q' = true →
            exec (.switch slot q') s = .next (u.due [.switch slot q'])))
    ∧ (Table.find s.front.slots slot = some q.val → (s.frontQueue q).stopping = false → (s.detach slot).mappable q' = false →
        ∃ t, exec (.switch slot q') s = .next t ∧ t.front.hqRefused = true ∧ t.front.slots = s.front.slots ∧ t.mem = s.mem)
    ∧ (Table.find s.front.slots slot = none →
        ∀ i ∈ [Instr.unmapSuspend slot, .unmapDestroy slot, .switch slot q], ∃ t, exec i s = .next t
          ∧ t.front.hqRefused = true ∧ t.front.slots = s.front.slots ∧ t.mem = s.mem)
    ∧ ((s.frontQueue q).destroying = true →
        let u := s.pump q
        u.front.launches.all (fun l => l.2.queue ≠ q.val) = true → (u.frontQueue q).packets = [] →
        u.qcbField q 0x10 8 = u.qcbField q 0x20 8 → ((u.zeroAreas q).frontQueue q).areas = [] →
        ∃ t, exec (.queueDestroyed q) s = .next t ∧ (∀ n, Table.find t.front.slots n ≠ some q.val)
          ∧ (t.runEntry q).valid = false ∧ t.front.hqBusy = false)

/-- R410-R414, R417, R419, R420: the packet that may start, once its addresses are translated: a NOP completes; a
SIGNAL writes or adds to its signal and completes; a COPY starts, and completes when its bytes are written; a
BARRIER is evaluated at its start, and completes when every condition holds; a PRED sets its arms by its
condition; an INVAL starts its shootdown; a MARKER writes its time; a LAUNCH begins its launch. `fin` is the
completion of R411, and the front end then goes on (`pump`). R411, R412: a packet with COMPL 0 and no
interrupt completes by being marked complete. With COMPL set, one that succeeds adds -1 to the signal, and one that fails,
or whose queue is being destroyed, stores -1, and the interrupt follows; a write that meets a fault or a misaligned COMPL is
skipped, with WRITE_FAULT for a packet that succeeded; a page not present is awaited. With an address in device memory the
operation on a signal, a SIGNAL packet's too, writes the sum or the value. -/
def Obligations.PacketsComplete : Prop :=
  (
  ∀ (s u v : State) (q : Fin 1024) (p : Packet),
    let ctx := (u.runEntry q).ctx
    let fin := fun (x : State) => (x.finishPacket q p.index true true).pump q
    (s.currentPacket q 0 = some (p, u) → exec (.nopPacket q) s = .next (fin u))
    ∧ (s.currentPacket q 3 = some (p, u) → u.signal ctx (p.field 0x10) (p.arg = 1) (p.field 0x18) = .ok v →
        exec (.signalPacket q) s = .next (fin v))
    ∧ (s.currentPacket q 4 = some (p, u) →
        exec (.copyPacket q) s = .next ((u.pump q).due [.copyComplete q (BitVec.ofNat 64 p.index)]))
    ∧ (∀ src dst : List Spot, let n := (p.field 0x20).toNat
        u = s → (s.frontQueue q).packets.find? (fun y => y.index = p.index && y.progress = .started && y.type = 4) = some p →
        p.index < 2 ^ 64 → s.spotsUpTo ctx .read (p.field 0x10) n = (src, none) →
        s.spotsUpTo ctx .write (p.field 0x18) n = (dst, none) →
        v = (chunksOf (p.field 0x18) (min src.length dst.length)).foldl (fun x c => x.markDirty ctx c.1) s →
        exec (.copyComplete q (BitVec.ofNat 64 p.index)) s =
          .next (fin ((v.writeSpots (dst.take (min src.length dst.length))
            (v.spotBytes (src.take (min src.length dst.length)))).readRemote src)))
    ∧ (s.currentPacket q 2 = some (p, u) → exec (.barrierPacket q) s = exec (.barrierEvaluation q) u
      ∧ ∀ values : List DWord,
        (u.frontQueue q).packets.find? (fun y => y.progress = .started && y.type = 2) = some { p with progress := .started } →
        (barrierSignals p.bytes).map (fun va => u.readPlain ctx va 8) = values.map (fun x => .ok (bytesOfNum 8 x.toNat)) →
        (∀ x ∈ values, x.msb = false) →
        (∀ k x, values[k]? = some x →
          condHolds (p.arg / 2 ^ (3 + 2 * k) % 4) x ((BitVec.ofNat 32 p.arg32).signExtend 64) = true) →
        exec (.barrierPacket q) s = .next (fin ((barrierSignals p.bytes).foldl (fun y va => y.usedRemote ctx va) u)))
    ∧ (∀ values : List DWord, u = s →
        (s.frontQueue q).packets.find? (fun y => y.progress = .started && y.type = 2) = some p →
        (barrierSignals p.bytes).map (fun va => s.readPlain ctx va 8) = values.map (fun x => .ok (bytesOfNum 8 x.toNat)) →
        (∀ x ∈ values, x.msb = false) →
        (∀ k x, values[k]? = some x →
          condHolds (p.arg / 2 ^ (3 + 2 * k) % 4) x ((BitVec.ofNat 32 p.arg32).signExtend 64) = true) →
        exec (.barrierEvaluation q) s =
          .next (fin ((barrierSignals p.bytes).foldl (fun y va => y.usedRemote ctx va) s)))
    ∧ (∀ x : DWord, s.currentPacket q 5 = some (p, u) → u.readPlain ctx (p.field 0x10) 8 = .ok (bytesOfNum 8 x.toNat) →
        exec (.predPacket q) s = .next (fin ((u.usedRemote ctx (p.field 0x10)).modQueue q (fun y =>
          { y with arms := predArms p (some (condHolds (p.arg / 256 % 4) x (p.field 0x18))) }))))
    ∧ (s.currentPacket q 6 = some (p, u) → p.progress ≠ .started → ∃ t : State, exec (.invalPacket q) s = .next (t.pump q) ∧ t.mem = u.mem
        ∧ ∃ y ∈ t.shootdowns, y.ctx = ctx ∧ y.packet = some (q.val, p.index)
            ∧ (p.arg ≠ 1 → y.lo = (p.field 0x10).toNat ∧ y.hi = y.lo + (p.field 0x18).toNat)
            ∧ (p.arg = 1 → y.lo = 0 ∧ y.hi = 2 ^ 64))
    ∧ (s.currentPacket q 7 = some (p, u) → p.arg ≠ 1 → p.field 0x10 ≠ 0 →
        u.writePlain ctx (p.field 0x10) (bytesOfNum 8 u.time) = .ok v → exec (.markerPacket q) s = .next (fin v))
    ∧ (∀ l total, s.currentPacket q 1 = some (p, u) → s.checkLaunch q p = .ok (l, total) →
        exec (.launchPacket q) s = .next ((((u.beginLaunch l total).usedRemote l.ctx (p.field 0x10)).usedRemote l.ctx
            (p.field 0x18)).pump q)
          ∧ (u.beginLaunch l total).launch? u.freshHandle = some l))
  ∧ (
  (∀ (s : State) (q index : Nat) (ok : Bool) (p : Packet),
    (s.frontQueue q).packets.find? (fun y => y.index = index) = some p → p.complete = false → p.compl = 0 → p.intr = false →
    s.finishPacket q index ok true = s.modPacket q index (fun y => { y with progress := .done ok }))
  ∧ (∀ (s : State) (q index : Nat) (ok : Bool) (p : Packet),
    (s.frontQueue q).packets.find? (fun y => y.index = index) = some p → p.complete = false → p.compl ≠ 0 →
    let ctx := (s.runEntry q).ctx
    let ends := fun (x : State) => let y := x.modPacket q index (fun y => { y with progress := .done ok })
      if p.intr then y.queueInterrupt q else y
    let write := s.signal ctx p.compl (ok && !(s.frontQueue q).destroying) (BitVec.allOnes 64)
    (p.compl.toNat % 8 = 0 → (∀ t, write = .ok t → s.finishPacket q index ok true = ends t)
      ∧ (∀ c, write = .error (.fault c) → s.finishPacket q index ok true = ends (if ok then s.setErr q 11 index else s))
      ∧ (∀ page, write = .error (.wait page) →
          (∀ x, page = some x → (index, x) ∉ (s.frontQueue q).refused) → s.finishPacket q index ok true =
            (s.queueWaits q index page).modPacket q index (fun y => { y with progress := .finishing ok true (!ok) })))
    ∧ (p.compl.toNat % 8 ≠ 0 → s.finishPacket q index ok true = ends (if ok then s.setErr q 11 index else s)))
  ∧ (∀ (s u : State) (ctx pa : Nat) (va val : DWord) (add : Bool),
    s.spotsPlain ctx (if add = true ∨ va.msb = false then .atomic else .write) va 8 = .ok ((List.range 8).map (fun j => Spot.device (.mem (pa + j)))) →
    u = s.markDirty ctx va → Memory.wf u.mem = true →
    ∃ t, s.signal ctx va add val = .ok t
      ∧ Memory.readNum t.mem pa 8 = (if add then (Memory.readNum s.mem pa 8 + val.toNat) % 2 ^ 64 else val.toNat)
      ∧ ∀ a, a < pa ∨ pa + 8 ≤ a → Memory.read t.mem a = Memory.read u.mem a))

/-- R261-R263: ATTACH and DETACH set and end the debugger of a context; STOP stops a team without a kill, RESUME
lets its groups go on at their recorded addresses, and STEP one group for one instruction; READ delivers the
object that it names (a v, s or k register, a latch or operand-cache entry that holds a value, a predicate, em, a system register,
PC) and WRITE writes it and nothing else. Each ends with status 0. A latch or entry that a legacy group's decode mode lacks is
written and read as any other (the model's choice, log entry 93). -/
def Obligations.DebugRequestsComplete : Prop :=
  ∀ s : State, let d := s.dbg
    let c := s.context d.ctx
    let r := s.debugGroup
    let low : DWord := (d.data.getD 1 0) ++ (d.data.getD 0 0)
    (c.valid = true → c.debugger = false → ∃ t : State, exec .debugAttach s = .next t
      ∧ t.context d.ctx = { c with debugger := true } ∧ t.dbg = { d with status := 0 }
      ∧ (∀ n, n ≠ d.ctx → t.context n = s.context n) ∧ t.cores = s.cores ∧ t.mem = s.mem)
    ∧ (c.valid = true → c.debugger = true → ∃ t : State, exec .debugDetach s = .next t
      ∧ t.context d.ctx = { c with debugger := false } ∧ t.dbg = { d with status := 0 }
      ∧ (∀ x team, t.team? x = some team → team.ctx = d.ctx → team.ending ≠ .stop) ∧ t.mem = s.mem)
    ∧ (∀ team, s.debugCheck false false = 0 → s.team? s.debugTeam = some team → team.ending = .no →
      ∃ t : State, exec .debugStop s = .next t
        ∧ t.team? s.debugTeam = some { team with ending := .stop, frozenAt := some s.time }
        ∧ (∀ slot ∈ s.liveSlots s.debugTeam team, Instr.haltDelivery ⟨d.core, slot⟩ ∈ t.agenda)
        ∧ t.dbg = { d with status := 0 } ∧ (∀ x, t.group x = s.group x) ∧ t.mem = s.mem)
    ∧ (∀ team, s.debugCheck false true = 0 → s.team? s.debugTeam = some team →
      ∃ t : State, exec .debugResume s = .next t ∧ t.dbg = { d with status := 0 } ∧ t.mem = s.mem
        ∧ (∃ u, t.team? s.debugTeam = some u ∧ u.frozenAt = none
            ∧ u.ending = if ∀ slot ∈ team.slots, (s.group ⟨d.core, slot⟩).status = .exited then .retire else .no)
        ∧ ∀ slot ∈ team.slots, let x : GroupRef := ⟨d.core, slot⟩
          (s.group x).status = .halted →
            (t.group x).status = .running ∧ (t.group x).halt = none ∧ (t.group x).pc = (s.group x).pc
            ∧ (t.group x).em = (s.group x).em)
    ∧ (s.debugCheck false true = 0 → (s.group r).status = .halted →
      ∃ t : State, exec .debugStep s = .next t ∧ t.dbg = { d with status := 0 } ∧ t.mem = s.mem
        ∧ (t.group r).status = .running ∧ (t.group r).stepping = true ∧ (t.group r).pc = (s.group r).pc
        ∧ (∀ x, x ≠ r → t.group x = s.group x) ∧ ∀ x, t.team? x = s.team? x)
    ∧ (s.debugCheck true true = 0 → s.debugPending = false → s.debugDead = false → let u := s.settleAll r
      ∃ t : State, exec .debugRead s = .next t ∧ t.dbg.status = 0 ∧ t.cores = u.cores ∧ t.mem = s.mem
        ∧ (d.kind = 0 → t.dbg.data = u.readReg r (.v d.num))
        ∧ (d.kind = 1 → t.dbg.data = objectWords (((u.group r).s.getD d.num 0).setWidth 64))
        ∧ (d.kind = 2 → t.dbg.data = objectWords (((u.group r).k.getD d.num 0).setWidth 64))
        ∧ (∀ y, d.kind = 3 → (u.group r).latch d.num = some y → t.dbg.data = y)
        ∧ (∀ y, d.kind = 4 → (u.group r).cache.getD d.num none = some y → t.dbg.data = y)
        ∧ (d.kind = 7 → let g := u.group r
            let kc := u.core r.core
            let x := u.context (u.attrs r).ctx
            let p := u.core (partnerOf r.core)
            let state := fun (y : GateState) => if y = .on then 0 else if y = .pending then 1 else if y = .gated then 2 else 3
            let w := fun (n : Nat) => objectWords (BitVec.ofNat 32 n).toNat
            (d.num = 0x00 → t.dbg.data = objectWords (u.bmap r))
            ∧ (d.num = 0x01 → t.dbg.data = g.fpst)
            ∧ (d.num = 0x02 → t.dbg.data = w (if g.nonUniform then 1 else 0))
            ∧ (d.num = 0x03 → t.dbg.data = w (u.footValue r).toNat)
            ∧ (d.num = 0x04 → t.dbg.data = w g.sp) ∧ (d.num = 0x05 → t.dbg.data = w g.limit)
            ∧ (d.num = 0x06 → t.dbg.data = objectWords (BitVec.ofNat 64 (u.cycle * 10 / 33)))
            ∧ (d.num = 0x07 → t.dbg.data =
                w (g.cause * 2 ^ 8 + (if g.kind = .tug then 2 else 0) + (if g.sup then 1 else 0)))
            ∧ (d.num = 0x08 → t.dbg.data = objectWords x.tvec) ∧ (d.num = 0x09 → t.dbg.data = w kc.swapth)
            ∧ (d.num = 0x0A → t.dbg.data = w (kc.matrix.held * 2 ^ 22 + kc.matrix.ramp * 2 ^ 11 + kc.matrix.budget))
            ∧ (d.num = 0x0B → t.dbg.data = w (x.qbound.getD d.index 0).toNat)
            ∧ (d.num = 0x0C → t.dbg.data = w x.vthresh) ∧ (d.num = 0x0D → t.dbg.data = w x.vwin)
            ∧ (d.num = 0x0E → t.dbg.data = w ((kc.incoming.filter (fun e => e.present)).length * 2 ^ 8
                + (16 - p.incoming.length - p.taking)))
            ∧ (d.num = 0x0F → t.dbg.data =
                w (if 48 ≤ r.core % 96 then 0 else state kc.gate * 2 + (if kc.gateReq then 1 else 0))))
        ∧ (d.kind = 5 → ∀ l < 32, Lanes.at' t.dbg.data l = if ((s.group r).preds.getD d.num 0).lane l then 1 else 0)
        ∧ (d.kind = 6 → t.dbg.data = objectWords ((s.group r).em.setWidth 64))
        ∧ (d.kind = 8 → t.dbg.data = objectWords (s.group r).pc))
    ∧ (s.debugCheck true true = 0 → s.debugPending = false → Memory.wf (s.core d.core).win = true →
      (d.kind = 0 → s.debugFull = false →
        ∃ t : State, exec .debugWrite s = .next t ∧ t.dbg = { d with status := 0 } ∧ t.mem = s.mem
          ∧ (∀ l < 32, (t.readReg r (.v d.num)).at' l = Lanes.at' d.data l)
          ∧ ∀ x, x ≠ r → t.group x = s.group x)
      ∧ (d.kind = 1 ∨ d.kind = 2 → let u := s.settleAll r
          ∃ t : State, exec .debugWrite s = .next t ∧ t.dbg = { d with status := 0 } ∧ t.mem = s.mem
          ∧ (t.group r).s = (if d.kind = 1 then (u.group r).s.set d.num (d.data.getD 0 0) else (u.group r).s)
          ∧ (t.group r).k = (if d.kind = 2 then (u.group r).k.set d.num (d.data.getD 0 0) else (u.group r).k)
          ∧ (t.group r).v = (u.group r).v ∧ (t.group r).pc = (s.group r).pc ∧ ∀ x, x ≠ r → t.group x = s.group x)
      ∧ (d.kind = 3 ∨ d.kind = 4 → let u := s.settleAll r
          ∃ t : State, exec .debugWrite s = .next t ∧ t.dbg = { d with status := 0 } ∧ t.mem = s.mem
          ∧ (∀ j, 1 ≤ j → j ≤ 3 → (t.group r).latch j =
              if d.kind = 3 ∧ j = d.num then some d.data else (u.group r).latch j)
          ∧ ((u.group r).cache.length = 8 → ∀ j < 8, (t.group r).cache.getD j none =
              if d.kind = 4 ∧ j = d.num then some d.data else (u.group r).cache.getD j none)
          ∧ (t.group r).v = (u.group r).v ∧ (t.group r).pc = (s.group r).pc ∧ ∀ x, x ≠ r → t.group x = s.group x)
      ∧ (d.kind = 5 → (s.group r).preds.length = 7 →
          ∃ t : State, exec .debugWrite s = .next t ∧ t.dbg = { d with status := 0 } ∧ t.mem = s.mem
          ∧ (∀ j < 7, ∀ l < 32, ((t.group r).preds.getD j 0).lane l =
              if j = d.num then (d.data.getD l 0).getLsbD 0 else ((s.group r).preds.getD j 0).lane l)
          ∧ (t.group r).em = (s.group r).em ∧ (t.group r).pc = (s.group r).pc)
      ∧ (d.kind = 7 → let u := s.settleAll r
          let g := u.group r
          let x := u.context (u.attrs r).ctx
          let kc := u.core r.core
          let n := low.toNat
          ∃ t : State, exec .debugWrite s = .next t ∧ t.dbg = { d with status := 0 } ∧ t.mem = s.mem
          ∧ (∀ l < 32, (t.group r).fpst.at' l = if d.num = 0x01 then Lanes.at' d.data l &&& 0x1F else g.fpst.at' l)
          ∧ (t.group r).nonUniform = (if d.num = 0x02 ∧ low.getLsbD 0 = true then false else g.nonUniform)
          ∧ (t.group r).sp = (if d.num = 0x04 then n % 2 ^ 17 else g.sp)
          ∧ (t.group r).limit = (if d.num = 0x05 then n % 2 ^ 17 else g.limit)
          ∧ (t.context (u.attrs r).ctx).tvec = (if d.num = 0x08 then low &&& ~~~0x1FE#64 else x.tvec)
          ∧ (t.core r.core).swapth = (if d.num = 0x09 then n % 2 ^ 16 else kc.swapth)
          ∧ (t.core r.core).matrix = (if d.num = 0x0A then
              { kc.matrix with held := n / 2 ^ 22 % 2 ^ 10, ramp := n / 2 ^ 11 % 2 ^ 11, budget := n % 2 ^ 11 } else kc.matrix)
          ∧ (t.context (u.attrs r).ctx).vthresh = (if d.num = 0x0C then n % 128 else x.vthresh)
          ∧ (t.context (u.attrs r).ctx).vwin = (if d.num = 0x0D then n % 128 else x.vwin)
          ∧ (t.group r).em = g.em ∧ (t.group r).pc = g.pc ∧ (t.group r).v = g.v)
      ∧ (d.kind = 6 → ∃ t : State, exec .debugWrite s = .next t ∧ t.dbg = { d with status := 0 }
          ∧ (t.group r).em = d.data.getD 0 0 ∧ (t.group r).preds = (s.group r).preds ∧ (t.group r).pc = (s.group r).pc)
      ∧ (d.kind = 8 → ∃ t : State, exec .debugWrite s = .next t ∧ t.dbg = { d with status := 0 }
          ∧ (t.group r).pc = alignTarget low ∧ (t.group r).em = (s.group r).em))

/-- R426, R57, R58: a team whose residency clock reaches T1 is asked to pre-empt, at T2 it is killed with
WATCHDOG, and at T3 its core is fenced and holds no team; a halt that reaches a group that does not issue
stops it with the CAUSE that is due, and a team that is killed and has settled leaves its core. -/
def Obligations.WatchdogAndKillsComplete : Prop :=
  ∀ (s : State) (tr : TeamRef) (team : Team), s.team? tr = some team →
    (∀ l, s.launch? team.launch = some l →
      (s.clockReached team l.t1 = true → team.ending = .no ∨ team.ending = .stop → ∃ t : State, exec (.watchdogT1 tr) s = .next t
        ∧ t.team? tr = some { team with preempt := true } ∧ Instr.eviction tr ∈ t.agenda
        ∧ (∀ x, t.group x = s.group x) ∧ t.mem = s.mem)
      ∧ (s.clockReached team l.t2 = true → team.ending.isKill = false → team.ending ≠ .retire →
        ∃ t : State, exec (.watchdogT2 tr) s = .next t ∧ t.team? tr = some { team with ending := .kill 0x28 }
          ∧ (∀ slot ∈ s.liveSlots tr team, Instr.haltDelivery ⟨tr.core, slot⟩ ∈ t.agenda)
          ∧ Instr.teamKill tr ∈ t.agenda ∧ (∀ x, t.group x = s.group x) ∧ t.mem = s.mem)
      ∧ (s.clockReached team l.t3 = true → ∃ t : State, exec (.watchdogT3 tr) s = .next t
        ∧ (t.core tr.core).fenced = true ∧ (t.core tr.core).crane = [[], [], [], []] ∧ (t.core tr.core).matrix.queue = []
        ∧ ∀ id, t.team? ⟨tr.core, id⟩ = none))
    ∧ (∀ (slot c : Nat), let r : GroupRef := ⟨tr.core, slot⟩
      s.teamOf r = some team → team.ending = .kill c → (s.group? r).isSome = true → (s.group r).status ≠ .halted →
      (s.group r).status ≠ .exited → (s.group r).skidLeft = none → s.isIssuing r = false →
      ∃ t : State, exec (.haltDelivery r) s = .next t ∧ (t.group r).status = .halted
        ∧ (t.group r).halt = some { pc := (s.group r).pc, cause := if c = 0x28 then 0x28 else 0, reason := 0,
                                    skid := (s.group r).skid, flags := 0, detail := 0 }
        ∧ (t.group r).pc = (s.group r).pc ∧ (∀ x, x ≠ r → t.group x = s.group x) ∧ t.mem = s.mem)
    ∧ (∀ c, team.ending = .kill c → s.liveSlots tr team = [] → s.commandsOut tr = false → s.loadsOut tr team = false →
      ∃ t : State, exec (.teamKill tr) s = .next t ∧ t.team? tr = none
        ∧ ∀ slot ∈ team.slots, t.group? ⟨tr.core, slot⟩ = none)

/-- R392, R393, R395, R54, R400: the Pilot's round sets the assignments, each core's Tug looks for work, and no stage
that is owed service stays unassigned for more than one round (the model's reading of R393, log entry 80); a Tug takes
a ticket of the launch assigned to it and places its team on the core, with its groups at the entry of the variant;
and an eviction takes a team at a pre-emption point off its core, with its groups kept in a place of the save area. -/
def Obligations.SchedulersComplete : Prop :=
  ∀ s : State,
    (∀ plan : List Assignment, ∃ t : State, exec (.pilotSchedulingRound plan) s = .next t
      ∧ t.front = { s.front with assignments := s.completePlan plan } ∧ t.cores = s.cores ∧ t.mem = s.mem
      ∧ (∀ a ∈ plan, (∀ b ∈ plan, b.core = a.core → b = a) → ∃ b ∈ t.front.assignments, b.core = a.core
          ∧ (∀ x ∈ a.stages, x ∈ b.stages) ∧ b.tickets = a.tickets)
      ∧ (∀ a ∈ t.front.assignments, a.core < 384 → ∃ p, Instr.tugClaim (Fin.ofNat 384 a.core) p ∈ t.agenda)
      ∧ (∀ x ∈ s.owedStages, ∀ l, s.launch? x.1 = some l → (∃ c ∈ s.cores, s.takesTeams c.1 l.ctx = true) →
          assigned s.front.assignments x = true ∨ assigned t.front.assignments x = true))
    ∧ (∀ (core : Fin 384) (p : Placement) (a : Assignment) (h vi : Nat) (l : Launch) (v : VariantEntry) (x : Reserve),
      s.front.assignments.find? (fun y => y.core = core.val) = some a → a.stages = [] → a.tickets = [h] →
      s.launch? h = some l → s.takesTeams core l.ctx = true → l.aborted = false → l.draining = false → l.lost = false →
      (∀ e ∈ s.front.evicted, e.launch ≠ h) → s.launchField l recNext 8 < s.launchField l recTotal 8 →
      (∀ c, l.pinOf (s.launchField l recNext 8) = some c → c = core.val) → l.header.select 0 l.size = some (vi, v) →
      (s.core core).reserve l.header v p.sub.val = some x → x.slots.Nodup → Memory.wf s.mem = true →
      let n := s.launchField l recNext 8
      ∃ (t : State) (id : Nat) (team : Team), exec (.tugClaim core p) s = .next t
        ∧ t.team? ⟨core, id⟩ = some team ∧ team.launch = h ∧ team.ctx = l.ctx ∧ team.stage = 0 ∧ team.variant = vi
        ∧ team.slots = x.slots ∧ team.foot = v.foot ∧ team.size = l.size ∧ team.user = l.user
        ∧ team.tx = BitVec.ofNat 32 ((l.firstTicket + n) % l.gx)
        ∧ t.launchField l recNext 8 = n + 1
        ∧ ∀ i slot, x.slots[i]? = some slot → let g := t.group ⟨core, slot⟩
          (t.group? ⟨core, slot⟩).isSome = true ∧ g.pc = l.code + BitVec.ofNat 64 (l.header.textOff + v.entry)
          ∧ g.team = id ∧ g.number = i ∧ g.status = .running ∧ g.em = 0xFFFFFFFF#32 ∧ g.sup = false
          ∧ g.limit = l.header.stack ∧ g.sp = 0 ∧ g.s.getD 2 0 = l.size)
    ∧ (∀ (tr : TeamRef) (team : Team) (l : Launch) (block : Nat), s.team? tr = some team →
      s.launch? team.launch = some l → s.atPoint tr team = true →
      let records := (s.core tr.core).surrogate.slipway.filter (fun x => team.slots.contains x.slot && !x.orphan)
      (s.modTeam tr (fun x => { x with preempt := false })).saveRoom team.launch l
        (4096 + team.scratchBytes + 40960 * team.slots.length + 64 * records.length + 256) = some block →
      ∃ (t : State) (e : Evicted), exec (.eviction tr) s = .next t ∧ t.team? tr = none
        ∧ (∀ slot ∈ team.slots, t.group? ⟨tr.core, slot⟩ = none)
        ∧ e ∈ t.front.evicted ∧ e.launch = team.launch ∧ e.core = tr.core ∧ e.block = block
        ∧ e.team = { team with preempt := false } ∧ e.groups.length = team.slots.length)

/-- R46, R48-R50, R243, R245: the run of a group that has issued 64 instructions ends, and it is ready from the
next cycle; a group whose stall has passed THRESH, at least 64, leaves its barrel slot and keeps its state; a
sleeping group that was swapped out joins the ready queue once its time has come; and the words that a group
waits for arrive, and it goes on. -/
def Obligations.RunsAndWakesComplete : Prop :=
  ∀ (s : State) (r : GroupRef), let g := s.group r
    let th := (s.core r.core).swapth
    (g.status = .running → 64 ≤ g.run → ∃ t : State, exec (.runLimit r) s = .next t ∧ (t.group r).run = 0
        ∧ (t.group r).status = .running ∧ (t.group r).history = [] ∧ (t.group r).pc = g.pc ∧ (t.group r).cache = g.cache
        ∧ (t.group r).em = g.em ∧ (t.group r).v = g.v ∧ some r.slot ∉ (t.core r.core).barrel
        ∧ (r.slot / 16 < (s.core r.core).ready.length →
          (s.cycle + 1, r.slot) ∈ (t.core r.core).ready.getD (r.slot / 16) [])
        ∧ (∀ x, x ≠ r → t.group x = s.group x) ∧ t.mem = s.mem)
    ∧ (g.status = .running → g.run < 64 → exec (.runLimit r) s = .next s)
    ∧ (g.status = .running → th ≠ 0 → 64 < g.stall → th < g.stall → ∃ t : State, exec (.transparentSwap r) s = .next t
        ∧ t.group r = { g with status := .swapped, stall := 0 } ∧ some r.slot ∉ (t.core r.core).barrel
        ∧ (∀ q ∈ (t.core r.core).ready, ∀ e ∈ q, e.2 ≠ r.slot) ∧ (∀ x, x ≠ r → t.group x = s.group x) ∧ t.mem = s.mem)
    ∧ (th = 0 → exec (.transparentSwap r) s = .next s)
    ∧ (∀ τ, (s.group? r).isSome = true → g.hold = .sleep τ → τ ≤ s.time → g.status = .swapped →
      ∃ t : State, exec (.sleepExpiry r) s = .next t ∧ t.group r = { g with status := .running }
        ∧ (r.slot / 16 < (s.core r.core).ready.length →
          (s.cycle + 1, r.slot) ∈ (t.core r.core).ready.getD (r.slot / 16) [])
        ∧ (∀ x, x ≠ r → t.group x = s.group x) ∧ t.mem = s.mem)
    ∧ (∀ (u : State) (ws : List Word) (e : Option Stop), g.hold = .fetch → g.status = .running → s.fetch r true = (u, ws, e) →
      exec (.instructionFetch r) s = .next (u.modGroup r (fun g => { g with hold := .none })))

/-- R165, R177, R157, R236: a result of variable latency that returns writes the lanes of its registers that it
names and is awaited no more; a store that leaves the buffer writes its bytes, with no other byte changed; the
stack cache writes the 512 bytes of a block to the block's page, or refills the block from it. -/
def Obligations.ReturnsStoresAndStackBlocksComplete : Prop :=
  (∀ (s : State) (r : GroupRef) (id : Nat) (o : Outstanding) (reg : Nat) (vals : Lanes),
    let s0 := s.settle r
    let g := s0.group r
    (s.group? r).isSome = true → g.outstanding.find? (fun x => x.id = id) = some o → g.mayReturn s.cycle o = true →
    (∀ x ∈ s.shootdowns, x.group ≠ some r) → (o.regs.map (·.1)).Nodup → (Reg.v reg, vals) ∈ o.regs → reg < 240 →
    (Table.find g.v reg).isSome = true →
    ∃ t : State, exec (.loadReturn r id) s = .next t
      ∧ (∀ l < 32, (t.readReg r (.v reg)).at' l = if o.mask.lane l then vals.at' l else (s0.readReg r (.v reg)).at' l)
      ∧ (t.group r).outstanding = g.outstanding.filter (fun x => x.id ≠ id) ∧ (t.group r).pc = g.pc
      ∧ (t.group r).em = g.em ∧ (t.group r).preds = g.preds ∧ s.SameMemory t)
  ∧ (∀ (s : State) (core : Fin 384) (id : Nat) (b : BufferedStore),
    (s.core core).stores.find? (fun b => b.id = id) = some b → b.host = false → Memory.wf s.mem = true →
    (∀ x ∈ (s.core core).stores.takeWhile (fun x => x.id ≠ id), x.host = false → ∀ c ∈ x.cells, ∀ d ∈ b.cells, c.1 ≠ d.1) →
    ∃ t : State, exec (.storePerform core id) s = .next t
      ∧ (t.core core).stores = (s.core core).stores.filter (fun x => x.id ≠ id)
      ∧ (∀ a, Memory.read t.mem a = ((b.cells.reverse.find? (fun c => c.1 = a)).map (·.2)).getD (Memory.read s.mem a))
      ∧ s.SameWindows t ∧ t.hostMem = s.hostMem)
  ∧ (∀ (s u : State) (r : GroupRef) (offset : Nat) (ps : List Spot), let g := s.group r
    let block := offset / 16
    (s.group? r).isSome = true → offset < g.limit → block ∉ g.missing →
    (s.blockSpots r .write block = (u, .ok ps) → (∀ p ∈ ps, ∃ pa, p = .device (.mem pa)) →
      let v := u.markDirtyBy r.core (s.attrs r).ctx (g.blockAddr block)
      Memory.wf v.mem = true →
      ∃ t : State, exec (.stackWriteback r offset false) s = .next t
        ∧ (∀ a, Memory.read t.mem a = lastByte (ps.zip (g.blockBytes block)) (.device (.mem a)) (Memory.read v.mem a))
        ∧ block ∈ (t.group r).backed ∧ (t.group r).stack = g.stack ∧ s.SameWindows t)
    ∧ (s.blockSpots r .read block = (u, .ok ps) → block ∈ g.backed → Memory.wf g.stack = true →
      ∃ t : State, exec (.stackWriteback r offset true) s = .next t
        ∧ (t.group r).blockBytes block = u.spotBytes ps
        ∧ (∀ a, a < 512 * block ∨ 512 * block + 512 ≤ a → Memory.read (t.group r).stack a = Memory.read g.stack a)
        ∧ (t.group r).pc = g.pc ∧ (t.group r).sp = g.sp ∧ t.mem = u.mem ∧ s.SameWindows t))

/-- R294, R295, R297, R300: the command at the head of a Crane queue begins, performs its copy and awaits its
completion; completing, it leaves the queue, its ring's prod moves past its reservation, and its berth is
ready; a fence passes once it heads every queue that it names. No other queue and no other berth changes. -/
def Obligations.CraneQueuesRunTheirCommands : Prop :=
  ∀ (s : State) (core : Fin 384) (cq : Fin 4) (c : CraneCommand) (rest : List CraneCommand),
    let k := s.core core
    k.crane.length = 4 → k.crane.getD cq [] = c :: rest → c.fault = none →
    (∀ (held : Bool) (u : State), c.begun = false → c.op ≠ .fence → c.op ≠ .chain →
      (craneTransfer core cq c c.job).run s = (.ok held, u) →
      ∃ (t : State) (h : CraneCommand), exec (.craneCommandBegin core cq) s = .next t
        ∧ t.craneHead core cq = some h ∧ h.begun = true ∧ h.id = c.id ∧ h.berth = c.berth
        ∧ Instr.craneCommandComplete core cq ∈ t.agenda ∧ t.mem = u.mem ∧ t.hostMem = u.hostMem ∧ u.SameWindows t
        ∧ (t.core core).rings = (u.core core).rings)
    ∧ (c.begun = false → c.op = .fence → (∀ q < 4, c.mask.testBit q = true → (s.craneHead core q).map (·.id) = some c.id) →
      ∃ t : State, exec (.craneCommandBegin core cq) s = .next t ∧ t.mem = s.mem ∧ s.SameWindows t
        ∧ ∀ q < 4, (t.core core).crane.getD q [] = if c.mask.testBit q then (k.crane.getD q []).tail else k.crane.getD q [])
    ∧ (∀ b, c.begun = true → c.op ≠ .fence → c.op ≠ .chain → c.berth = some b →
      (c.counter = none → c.ring = none → s.advancesDone core c.id = true →
        ∃ t : State, exec (.craneCommandComplete core cq) s = .next t
          ∧ (∀ q < 4, (t.core core).crane.getD q [] = if q = cq.val then rest else k.crane.getD q [])
          ∧ (∀ n, (t.core core).berth n = if n = b then ⟨.ready, none, 0⟩ else k.berth n)
          ∧ (t.core core).rings = k.rings ∧ t.mem = s.mem ∧ s.SameWindows t)
      ∧ (∀ n x len, c.counter = none → c.ring = some n → c.reserved.isSome = true → s.ring? core n = some x →
        (∃ d, x.reserved = [⟨c.id, len, d⟩]) → (∀ e ∈ k.rings, if e.1 = n then e.2 = x else e.2.released c.id = true) →
        ∃ t : State, exec (.craneCommandComplete core cq) s = .next t
          ∧ (t.core core).crane.getD cq [] = rest ∧ (t.core core).berth b = ⟨.ready, none, 0⟩
          ∧ t.ring? core n = some { x with prod := x.prod + BitVec.ofNat 32 len, reserved := [] }
          ∧ (∀ m, m ≠ n → t.ring? core m = s.ring? core m) ∧ t.mem = s.mem)
      ∧ (∀ (va v : DWord) (ps : List Spot) (pa : Nat) (y : List Spot × DWord) (u u' : State), c.counter = some va →
        c.ring = none → (engineCounter (c.as core) .atomic va).run s = (.ok y, u) → u.advancesDone core c.id = true →
        (engineCounter (c.as core) .atomic va).run u = (.ok (ps, v), u') →
        ps = (List.range 8).map (fun j => Spot.device (.mem (pa + j))) →
        Memory.wf (u'.engineDirty (c.as core) va 8).mem = true →
        ∃ t : State, exec (.craneCommandComplete core cq) s = .next t ∧ (t.core core).crane.getD cq [] = rest
          ∧ (t.core core).berth b = ⟨.ready, none, 0⟩ ∧ Memory.readNum t.mem pa 8 = (v.toNat + 1) % 2 ^ 64))

/-- R301: a chain's entries run one after another. COPY performs its copy; LOOP, until its count is reached, goes
back by its length with the coordinates and the bias moved, and then goes on with them set back; IFCNT skips
entries when the counter has reached its value (a COUNT of 0 is reached at once, by the model's reading, log entry 52; that a COPY
sets a high half of 0 and blames its own address is that of log entry 25); SIGNAL writes or adds to its counter; FENCE waits until it
heads the queues that it names; END ends the command. After each the walker is at the next entry, and that
entry's step is due. -/
def Obligations.ChainEntriesComplete : Prop :=
  ∀ (s : State) (core : Fin 384) (cq : Fin 4) (c : CraneCommand) (rest : List CraneCommand) (w : Walker),
    let k := s.core core
    let e := w.entry
    k.crane.length = 4 → k.crane.getD cq [] = c :: rest → c.fault = none → c.walker = some w →
    (∀ w' ev, w'.at_ + 32 ≤ c.scratchBytes → w'.at_ < c.a.toNat % 2 ^ 32 + 8192 → w'.passed ≤ 2 ^ 32 →
      chainEvent ((s.chainEntry core c w'.at_).headD 0).toNat = some ev →
      (s.chainGo core cq c w').craneHead core cq =
        some { c with
               walker := some { w' with entry := s.chainEntry core c w'.at_ }, awaits := none, read := [], rows := none }
      ∧ ev core cq ∈ (s.chainGo core cq c w').agenda ∧ (s.chainGo core cq c w').mem = s.mem)
    ∧ (∀ (op : CraneOp) (held : Bool) (u : State), (e.headD 0).toNat = 1 → chainOp e = some op →
      (numAt e 2 1).testBit 7 = false →
      let j : CopyJob :=
        { op := op, record := BitVec.ofNat 64 (numAt e 8 8), p := (numAt e 4 4 + w.bias.toNat) % 2 ^ 32
          c := if op = .set then BitVec.ofNat 64 (numAt e 4 4) else BitVec.ofNat 64 (numAt e 0x10 8)
          ring := none, coords := w.xs, physical := c.physical, blame := BitVec.ofNat 64 w.at_ }
      (craneTransfer core cq c j).run s = (.ok held, u) →
      exec (.chainCopy core cq) s =
        .next ((u.modHead core cq (fun c => { c with reserved := none })).chainGo core cq c (w.after 0)))
    ∧ ((e.headD 0).toNat = 2 → let n := Table.get w.counts 0 w.at_ + 1
      let inc (d : Nat) : Word := (BitVec.ofNat 16 (numAt e (0x10 + 2 * d) 2)).signExtend 32
      let bias := BitVec.ofNat 32 (numAt e 0xC 4)
      ∃ w' : Walker, exec (.chainLoop core cq) s = .next (s.chainGo core cq c w') ∧ w'.xs.length = w.xs.length
        ∧ (n < numAt e 4 4 → w'.at_ = (BitVec.ofNat 32 w.at_ - BitVec.ofNat 32 (numAt e 8 4)).toNat
          ∧ (∀ d < 8, d < w.xs.length → w'.xs.getD d 0 = w.xs.getD d 0 + inc d) ∧ w'.bias = w.bias + bias
          ∧ Table.get w'.counts 0 w.at_ = n)
        ∧ (numAt e 4 4 ≤ n → let m : Word := BitVec.ofNat 32 (numAt e 4 4) - 1
          w'.at_ = w.at_ + 32
          ∧ (∀ d < 8, d < w.xs.length → w'.xs.getD d 0 = w.xs.getD d 0 - m * inc d) ∧ w'.bias = w.bias - m * bias
          ∧ Table.get w'.counts 0 w.at_ = 0)
        ∧ ∀ d, 8 ≤ d → w'.xs.getD d 0 = w.xs.getD d 0)
    ∧ (∀ (ps : List Spot) (v : DWord) (u : State), (e.headD 0).toNat = 3 →
      (engineCounter (c.as core) .read (BitVec.ofNat 64 (numAt e 8 8))).run s = (.ok (ps, v), u) →
      exec (.chainIfcnt core cq) s = .next (u.chainGo core cq c
        (w.after (if numAt e 0x10 8 ≤ v.toNat then numAt e 4 4 else 0))))
    ∧ (∀ (ps : List Spot) (v : DWord) (u : State) (pa : Nat), (e.headD 0).toNat = 4 → numAt e 1 1 ≤ 1 →
      s.advancesDone core c.id = true → let va := BitVec.ofNat 64 (numAt e 8 8)
      (engineCounter (c.as core) (if numAt e 1 1 = 1 then .atomic else .write) va).run s = (.ok (ps, v), u) →
      ps = (List.range 8).map (fun j => Spot.device (.mem (pa + j))) → Memory.wf (u.engineDirty (c.as core) va 8).mem = true →
      ∃ t : State, exec (.chainSignal core cq) s = .next (t.chainGo core cq c (w.after 0))
        ∧ Memory.readNum t.mem pa 8 = ((if numAt e 1 1 = 1 then v.toNat else 0) + numAt e 0x10 8) % 2 ^ 64
        ∧ (t.core core).crane = (s.core core).crane)
    ∧ ((e.headD 0).toNat = 5 → let named := (List.range 4).filter (fun q => (numAt e 1 1).testBit q && q ≠ cq.val)
      (w.fenced = none → (∀ q ∈ named, (k.crane.getD q []).length < 16) →
        ∃ (t : State) (x : CraneCommand), exec (.chainFence core cq) s = .next t ∧ x.op = .fence ∧ x.berth = none
          ∧ t.craneHead core cq = some { c with walker := some { w with fenced := some x.id } }
          ∧ (∀ q < 4, q ≠ cq.val → (t.core core).crane.getD q [] = if q ∈ named then k.crane.getD q [] ++ [x] else k.crane.getD q [])
          ∧ Instr.chainFence core cq ∈ t.agenda ∧ t.mem = s.mem)
      ∧ (∀ id, w.fenced = some id → s.advancesDone core c.id = true →
        (∀ q ∈ named, (s.craneHead core q).map (·.id) = some id) →
        ∃ t : State, exec (.chainFence core cq) s = .next (t.chainGo core cq c { w.after 0 with fenced := none }) ∧ t.mem = s.mem
          ∧ ∀ q < 4, (t.core core).crane.getD q [] = if q ∈ named then (k.crane.getD q []).tail else k.crane.getD q []))
    ∧ (∀ b, (e.headD 0).toNat = 0 → c.berth = some b → c.counter = none → c.ring = none → s.advancesDone core c.id = true →
      ∃ t : State, exec (.chainEnd core cq) s = .next t ∧ (t.core core).crane.getD cq [] = rest
        ∧ (∀ n, (t.core core).berth n = if n = b then ⟨.ready, none, 0⟩ else k.berth n) ∧ t.mem = s.mem ∧ s.SameWindows t)

/-- R329, R334, R339: the drain at the head of the queue starts, once no mma that it waits for is left, with its
program and constants latched; each of its rows is one store; when its rows are done it leaves the queue, its
ring's prod moves past its bytes, and its berth is ready with its flags. An mdrain.load or mdrain.const copies
its bytes from the scratchpad. -/
def Obligations.DrainQueueRunsItsCommands : Prop :=
  ∀ (s : State) (core : Fin 384) (c : DrainCommand) (rest : List DrainCommand), let k := s.core core
    k.drain = c :: rest →
    (∀ (u : State) (image : Option (Word × Nat)), c.op = .drain → c.latched = none → c.held = none → c.ready = true →
      (∀ m ∈ k.matrix.queue, m.id ∉ c.after) → programOk (k.latch c.sel).program c.ne c.ring.isSome = true →
      s.drainRoom core c (appends (k.latch c.sel).program c.me c.ne) = (u, .ready image) →
      ∃ t : State, exec (.drainStart core) s = .next t
        ∧ (t.core core).drain = { c with latched := some (k.latch c.sel), image := image } :: rest
        ∧ Instr.drainRowStore core ∈ t.agenda ∧ (t.core core).rings = (u.core core).rings ∧ t.mem = s.mem ∧ s.SameWindows t)
    ∧ (∀ (l : Latched) (x : DrainRow), c.latched = some l → c.held = none → c.row < c.me →
      drainRow l c.row c.ne c.scratchBytes (fun y => Memory.read k.win (c.scratchBase + y))
        ((List.range c.ne).map (fun j => BitVec.ofNat 32 (k.readWin (bankOffset c.bank c.row j) 4))) = .ok x →
      (c.row + 1 = c.me → c.bad = false) →
      let after := { c with row := c.row + 1, stored := c.row + 1, flags := c.flags ||| x.flags } :: rest
      let next := if c.row + 1 < c.me then Instr.drainRowStore core else Instr.drainComplete core
      (∀ (va : DWord) (bs : List Byte) (u : State) (ps : List Spot), x.dst = some (va, bs) → x.dstr = none → dstrType l.program = none →
        drainSpots (c.as core) va bs.length s = (u, .ok ps) → (∀ p ∈ ps, ∃ pa, p = .device (.mem pa)) →
        let v := u.engineDirty (c.as core) va bs.length
        Memory.wf v.mem = true →
        ∃ t : State, exec (.drainRowStore core) s = .next t ∧ (t.core core).drain = after ∧ next ∈ t.agenda
          ∧ (∀ a, Memory.read t.mem a = lastByte (ps.zip bs) (.device (.mem a)) (Memory.read v.mem a)) ∧ s.SameWindows t)
      ∧ (∀ (xs : List Word) (ty : Nat), x.dst = none → x.dstr = some xs → dstrType l.program = some ty →
        ∃ t : State, exec (.drainRowStore core) s = .next t ∧ (t.core core).drain = after ∧ next ∈ t.agenda
          ∧ (t.core core).win = (((if c.row + 1 < c.me then s.appendRow core c ty c.row xs
              else (s.appendRow core c ty c.row xs).padImage core c)).core core).win ∧ t.mem = s.mem)
      ∧ (x.dst = none → x.dstr = none → dstrType l.program = none →
        ∃ t : State, exec (.drainRowStore core) s = .next t ∧ (t.core core).drain = after ∧ next ∈ t.agenda
          ∧ t.mem = s.mem ∧ s.SameWindows t))
    ∧ (c.op = .drain → c.latched.isSome = true → c.held = none → c.me ≤ c.row → c.bad = false → c.mmaBad = false →
      (∀ d ∈ rest, d.passed = false ∧ d.id ≠ c.id) →
      (c.ring = none → s.advancesDone core c.id = true →
        ∃ t : State, exec (.drainComplete core) s = .next t ∧ (t.core core).drain = rest
          ∧ (∀ n, (t.core core).berth n = if n = c.berth then ⟨.ready, none, c.flags⟩ else k.berth n)
          ∧ (t.core core).rings = k.rings ∧ t.mem = s.mem ∧ s.SameWindows t)
      ∧ (∀ n x len d, c.ring = some n → s.ring? core n = some x → x.reserved = [⟨c.id, len, d⟩] →
        (∀ e ∈ k.rings, if e.1 = n then e.2 = x else e.2.released c.id = true) →
        ∃ t : State, exec (.drainComplete core) s = .next t ∧ (t.core core).drain = rest
          ∧ (∀ n, (t.core core).berth n = if n = c.berth then ⟨.ready, none, c.flags⟩ else k.berth n)
          ∧ t.ring? core n = some { x with prod := x.prod + BitVec.ofNat 32 len, reserved := [] } ∧ t.mem = s.mem))
    ∧ (c.op ≠ .drain → (∀ d ∈ rest, d.id ≠ c.id) → Memory.wf k.win = true →
      ∃ t : State, exec (.drainConstantLoad core) s = .next t ∧ (t.core core).drain = rest
        ∧ (∀ n, (t.core core).berth n = if n = c.berth then ⟨.ready, none, 0⟩ else k.berth n)
        ∧ (c.op = .load → ∀ y < 48, Memory.read (t.core core).win (0x04000000 + 64 * c.sel + y) =
            Memory.read k.win (c.scratchBase + c.p + y))
        ∧ (c.op = .const → c.sel < 16 → ∀ y < 256, Memory.read (t.core core).win (0x04001000 + 256 * c.sel + y) =
            Memory.read k.win (c.scratchBase + c.p + y))
        ∧ (c.op = .const → 16 ≤ c.sel → c.sel < 20 → ∀ y < 256,
            Memory.read (t.core core).win (0x04002000 + 256 * (c.sel - 16) + y) = Memory.read k.win (c.scratchBase + c.p + y))
        ∧ (c.op = .const → 20 ≤ c.sel → ∀ y < 2048, Memory.read (t.core core).win (0x04003000 + y) =
            Memory.read k.win (c.scratchBase + c.p + y))
        ∧ (∀ a, a < (drainTarget c.op c.sel).1 ∨ (drainTarget c.op c.sel).1 + (drainTarget c.op c.sel).2 ≤ a →
            Memory.read (t.core core).win a = Memory.read k.win a)
        ∧ t.mem = s.mem)

/-- R357, R353: the call at the head of the surrogate queue is decided. Without a resident image every lane of it
runs in place; with one whose counts agree and with room in the Slipway, the accepted lanes take the
surrogate's outputs, and each rejected or sampled lane enters the Slipway. An srg.evict at the head takes the
image out of the store. -/
def Obligations.SurrogateDecisionsComplete : Prop :=
  ∀ (s : State) (core : Fin 384) (rest : List SurrogateEntry), let k := s.core core
    (∀ (slot : Nat) (inputs : List Lanes) (c : SurrogateCall), k.surrogate.queue = .call slot inputs :: rest →
      let r : GroupRef := ⟨core, slot⟩
      let ctx := (s.attrs r).ctx
      let old := (s.context ctx).entry c.surrogate
      let n := c.lanes.lanes.length
      (s.group r).call = some c → c.state = .deciding → (s.group r).status = .running →
      (Table.find k.surrogate.resident c.surrogate = none →
        ∃ t : State, exec (.surrogateDecision core) s = .next t ∧ (t.core core).surrogate.queue = rest
          ∧ (t.group r).call = some { c with state := .inPlace, inPlaceLanes := c.lanes }
          ∧ (t.group r).outstanding = (s.group r).outstanding.filter (fun o => o.id ≠ c.result)
          ∧ (t.context ctx).entry c.surrogate = { old with calls := add48 old.calls n, resFb := add48 old.resFb n }
          ∧ (t.core core).surrogate.slipway = k.surrogate.slipway ∧ (t.group r).pc = (s.group r).pc ∧ t.mem = s.mem)
      ∧ (∀ (off size : Nat), Table.find k.surrogate.resident c.surrogate = some (off, size) →
        let b := k.imageByte off
        let x := imageOf b
        let copy := (k.surrogate.copy c.surrogate).atDecision s.cycle
        let ins (l : Nat) : List Word := inputs.map (fun w => w.at' l)
        let outs (l : Nat) : List Word := x.outputs b (ins l)
        let acc := c.lanes.lanes.filter (fun l =>
          (f32Format.compare 3 (x.predict b (ins l) (outs l)).toNat ((s.context ctx).qbound.getD c.region 0).toNat).1)
        let smp := sampled x.sampk k.surrogate.count acc
        copy.1 = true → x.nin = c.numIn → x.nout = c.numOut → n - acc.length + smp.2.length ≤ s.slipRoom core →
        ∃ (t : State) (c' : SurrogateCall), exec (.surrogateDecision core) s = .next t
          ∧ (t.core core).surrogate.queue = rest ∧ (t.group r).call = some c' ∧ c'.state = .answered ∧ c'.gen = copy.2
          ∧ (∀ l < 32, c'.trusted.lane l = true ↔ l ∈ acc ∧ l ∉ smp.2) ∧ (t.core core).surrogate.count = smp.1
          ∧ (t.core core).surrogate.slipway.length = k.surrogate.slipway.length + (n - acc.length) + smp.2.length
          ∧ ((t.context ctx).entry c.surrogate).calls = add48 old.calls n
          ∧ ((t.context ctx).entry c.surrogate).accepted = add48 old.accepted acc.length
          ∧ ((t.context ctx).entry c.surrogate).rejected = add48 old.rejected (n - acc.length)
          ∧ (acc ≠ [] → Instr.loadReturn r c.result ∈ t.agenda)
          ∧ (∀ o ∈ (s.group r).outstanding, o.id = c.result → acc ≠ [] → c.uniform = false →
              ∃ o' ∈ (t.group r).outstanding, o'.id = c.result ∧ (∀ l < 32, o'.mask.lane l = true ↔ l ∈ acc)
                ∧ ∀ m < c.numOut, ∃ vals, o'.regs[m]? = some (.v (c.firstOut + m), vals)
                  ∧ ∀ l ∈ acc, vals.at' l = (outs l).getD m 0)
          ∧ (t.group r).pc = (s.group r).pc ∧ t.mem = s.mem))
    ∧ (∀ slot id off size, k.surrogate.queue = .evict slot id :: rest → Table.find k.surrogate.resident id = some (off, size) →
      Memory.wf k.win = true →
      ∃ t : State, exec (.surrogateDecision core) s = .next t ∧ (t.core core).surrogate.queue = rest
        ∧ Table.find (t.core core).surrogate.resident id = none
        ∧ (∀ m, m ≠ id → Table.find (t.core core).surrogate.resident m = Table.find k.surrogate.resident m)
        ∧ (∀ a, Memory.read (t.core core).win a =
            if 0x05000000 + off ≤ a ∧ a < 0x05000000 + off + size then 0 else Memory.read k.win a)
        ∧ t.mem = s.mem)

/-- R352, R367, R361, R362, R365: an srg.load at the head of the queue ends with its status: 3 for an address that is not
128-aligned, 1 for an id that is resident, 4 for a read that meets a cause or a page that the host refuses, 3 for a bad header, 2
for 16 resident images or no free run, each with the store as it was, and with status 0 its
image is in the store; a recovery group is formed at the body of its records, with their inputs in its lanes;
a disable or an enable that reaches a core sets its copy. -/
def Obligations.SurrogateLoadsAndRecoveryComplete : Prop :=
  ∀ (s : State) (core : Fin 384), let k := s.core core
    (∀ (slot result id ctx : Nat) (addr : DWord) (user refused : Bool) (awaits : Option DWord) (rest : List SurrogateEntry),
      k.surrogate.queue = .load slot result id addr ctx user awaits refused :: rest →
      let r : GroupRef := ⟨core, slot⟩
      let ends (status : Nat) (t : State) : Prop := (t.core core).surrogate.queue = rest ∧ Instr.loadReturn r result ∈ t.agenda
        ∧ ∀ o ∈ (s.group r).outstanding, o.id = result → ∃ o' ∈ (t.group r).outstanding, o'.id = result
          ∧ o'.regs = o.regs.map (fun x => (x.1, Lanes.splat (BitVec.ofNat 32 status)))
      (addr.toNat % 128 ≠ 0 → ∃ t : State, exec (.srgLoadComplete core) s = .next t ∧ ends 3 t ∧ t.mem = s.mem
        ∧ (t.core core).surrogate.resident = k.surrogate.resident)
      ∧ (addr.toNat % 128 = 0 → (Table.find k.surrogate.resident id).isSome = true →
        ∃ t : State, exec (.srgLoadComplete core) s = .next t ∧ ends 1 t ∧ t.mem = s.mem
          ∧ (t.core core).surrogate.resident = k.surrogate.resident)
      ∧ (addr.toNat % 128 = 0 → Table.find k.surrogate.resident id = none →
        let reader : EngineAs := { core := core, ctx := ctx, user := user, sys := slot = 15, physical := false }
        (refused = true → ∃ t : State, exec (.srgLoadComplete core) s = .next t ∧ ends 4 t
          ∧ (t.core core).surrogate.resident = k.surrogate.resident)
        ∧ (∀ (why : Option Cause) (a : DWord) (u : State), refused = false → (fetchImage reader addr).run s = (.error (.fault why a), u) →
          ∃ t : State, exec (.srgLoadComplete core) s = .next t ∧ ends 4 t
            ∧ (t.core core).surrogate.resident = k.surrogate.resident)
        ∧ (∀ (bs : Option (List Byte)) (u : State), refused = false → (fetchImage reader addr).run s = (.ok bs, u) →
          let x := fun (y : List Byte) => imageOf (fun i => y.toArray.getD i 0)
          (bs = none ∨ (∃ y, bs = some y ∧ (x y).valid (fun i => y.toArray.getD i 0) = false) →
            ∃ t : State, exec (.srgLoadComplete core) s = .next t ∧ ends 3 t
              ∧ (t.core core).surrogate.resident = k.surrogate.resident)
          ∧ (∀ y, bs = some y → (x y).valid (fun i => y.toArray.getD i 0) = true →
            16 ≤ k.surrogate.resident.length ∨ k.surrogate.freeRun (x y).size = none →
            ∃ t : State, exec (.srgLoadComplete core) s = .next t ∧ ends 2 t
              ∧ (t.core core).surrogate.resident = k.surrogate.resident)))
      ∧ (∀ (bs : List Byte) (u : State) (off : Nat), let x := imageOf (fun i => bs.toArray.getD i 0)
        addr.toNat % 128 = 0 → Table.find k.surrogate.resident id = none → refused = false →
        (fetchImage { core := core, ctx := ctx, user := user, sys := slot = 15, physical := false } addr).run s = (.ok (some bs), u) →
        x.valid (fun i => bs.toArray.getD i 0) = true → k.surrogate.resident.length < 16 →
        k.surrogate.freeRun x.size = some off → Memory.wf k.win = true →
        ∃ t : State, exec (.srgLoadComplete core) s = .next t ∧ ends 0 t ∧ t.mem = u.mem
          ∧ Table.find (t.core core).surrogate.resident id = some (off, x.size)
          ∧ (∀ i < bs.length, Memory.read (t.core core).win (0x05000000 + off + i) = bs.getD i 0)
          ∧ ∀ a, a < 0x05000000 + off ∨ 0x05000000 + off + bs.length ≤ a → Memory.read (t.core core).win a = Memory.read k.win a))
    ∧ (∀ (slot : Nat) (x : SlipRecord) (rest : List SlipRecord), s.recoveryDue core = true → k.recoverySlot = some slot →
      s.recoveryRecords core = x :: rest →
      let xs := x :: rest
      ∃ (t : State) (g : Group), exec (.recoveryGroupFormation core) s = .next t ∧ t.group? ⟨core, slot⟩ = some g
        ∧ g.kind = .recovery ∧ g.pc = x.body ∧ g.status = .running ∧ (∀ l < 32, g.em.lane l = true ↔ l < xs.length)
        ∧ (∀ m < x.numIn, x.firstIn + m < 240 → ∃ v, Table.find g.v (x.firstIn + m) = some v ∧ v.compressed = false
            ∧ ∀ l < 32, ∀ y, xs[l]? = some y → v.vals.at' l = y.inputs.getD m 0)
        ∧ (slot / 16 < k.ready.length → (s.cycle + 1, slot) ∈ (t.core core).ready.getD (slot / 16) [])
        ∧ (∀ y, (s.group? y).isSome = true → t.group? y = s.group? y) ∧ t.mem = s.mem)
    ∧ (∀ (id : Fin 256) (enabled : Bool) (gen : Word),
      ∃ t : State, exec (.surrogateDisableArrival core id enabled gen) s = .next t
        ∧ ((t.core core).surrogate.copy id).enabled = enabled ∧ ((t.core core).surrogate.copy id).gen = gen
        ∧ (∀ m, m ≠ id.val → (t.core core).surrogate.copy m = k.surrogate.copy m)
        ∧ (∀ x, t.group x = s.group x) ∧ t.mem = s.mem ∧ t.contexts = s.contexts)

/-- R375, R378, R383, R384: the oldest entry that is not present arrives; the oldest bulk push enters its next
entry while a slot is free, and with its last its berth is ready; a pending gate's closing is due at the end of a cycle in which
its conditions hold (no group of the upper core but its Tug, its queues and the downward FIFO empty), and it closes, with the upper core's stores performed; and an upper core that has woken, with no scrub due, keeps its
assignment, its FIFO and its B-store. -/
def Obligations.LiftAndGateStepsComplete : Prop :=
  ∀ (s : State) (core : Fin 384), let k := s.core core
    (∀ (before after : List LiftEntry) (e : LiftEntry), k.incoming = before ++ e :: after → (∀ x ∈ before, x.present = true) →
      e.present = false → ∃ t : State, exec (.liftEntryArrival core) s = .next t
        ∧ (t.core core).incoming = before ++ { e with present := true } :: after
        ∧ (∀ x, t.group x = s.group x) ∧ t.mem = s.mem ∧ ∀ n, n ≠ core.val → t.core n = s.core n)
    ∧ (∀ (b : BulkPush) (rest : List BulkPush) (e : Lanes) (more : List Lanes), let p := s.core (partnerOf core)
      k.bulk = b :: rest → b.entries = e :: more → p.incoming.length + p.taking < 16 →
      ∃ t : State, exec (.liftBulkEntry core) s = .next t
        ∧ (t.core (partnerOf core)).incoming = p.incoming ++ [⟨e, false, false⟩]
        ∧ (t.core core).bulk = (if more = [] then rest else { b with entries := more } :: rest)
        ∧ (t.core core).berth b.berth = (if more = [] then ⟨.ready, none, 0⟩ else k.berth b.berth)
        ∧ Instr.liftEntryArrival (Fin.ofNat 384 (partnerOf core)) ∈ t.agenda ∧ t.mem = s.mem ∧ s.SameWindows t)
    ∧ (k.gate = .pending → s.gateHolds core = true → Instr.gateEntry core ∈ (s.gateTick core).agenda)
    ∧ (s.gateHolds core = true ↔ let up := s.core (partnerOf core)
        (∀ g ∈ up.groups, g.2.kind = .tug) ∧ (∀ q ∈ up.crane, q = []) ∧ up.matrix.queue = [] ∧ up.drain = []
          ∧ up.surrogate.queue = [] ∧ k.incoming = [])
    ∧ (isUpper core = false → k.gate = .pending → s.gateHolds core = true →
      ∃ t : State, exec (.gateEntry core) s = .next t ∧ (t.core core).gate = .gated
        ∧ (t.core (partnerOf core)).stores = [])
    ∧ (isUpper core = false → k.gate = .waking → k.gateReq = false → let up := s.core (partnerOf core)
      up.scrubDue = none → Memory.wf up.win = true →
      ∃ t : State, exec (.gateWakeComplete core) s = .next t ∧ (t.core core).gate = .on
        ∧ (t.core (partnerOf core)).ctx = up.ctx ∧ (t.core (partnerOf core)).incoming = up.incoming
        ∧ (t.core (partnerOf core)).crane = [[], [], [], []] ∧ (t.core (partnerOf core)).berths = []
        ∧ (∀ a, 0x01000000 ≤ a → a < 0x01400000 → Memory.read (t.core (partnerOf core)).win a = Memory.read up.win a)
        ∧ (∀ a, 0x01400000 ≤ a → inTugMoored a = false → Memory.read (t.core (partnerOf core)).win a = 0)
        ∧ t.mem = s.mem)

/-- R454, R322, R445: an uncorrectable error poisons the register or the line that it meets, marks the matrix
command that read it, or the Lift entry; one in the audit ring or the measurement registers puts the module
into SAFE. The numbers by which the event names a register (v0-v255 from 0, s0-s63 from 256, k0-k15 from 320) are the model's
choice (log entry 57). -/
def Obligations.UncorrectableErrorsPoison : Prop :=
  ∀ s : State,
    (∀ (r : GroupRef) (n : Nat), (s.group? r).isSome = true →
      let reg := if n < 256 then Reg.v n else if n < 320 then .s (n - 256) else .k ((n - 320) % 16)
      (s.group r).isPending reg = false →
      ∃ t : State, exec (.uncorrectableError (.register r n)) s = .next t ∧ reg ∈ (t.group r).poison
        ∧ (∀ x ∈ (s.group r).poison, x ∈ (t.group r).poison) ∧ (t.group r).v = (s.group r).v ∧ (t.group r).pc = (s.group r).pc
        ∧ (∀ x, x ≠ r → t.group x = s.group x) ∧ t.mem = s.mem)
    ∧ (∀ addr, placeOf addr = .mem addr → s.front.launches = [] → s.front.evicted = [] →
      (∀ e ∈ s.cores, (∀ x ∈ e.2.teams, x.2.dep = 0) ∧ ∀ x ∈ e.2.groups, x.2.waitsOn (addr / 128 * 128) 128 = false) →
      ∃ t : State, exec (.uncorrectableError (.line addr)) s = .next t ∧ addr / 128 ∈ t.poisoned
        ∧ (∀ l ∈ s.poisoned, l ∈ t.poisoned) ∧ t.mem = s.mem)
    ∧ (∀ (core : Fin 384) (c : MatrixCommand) (rest : List MatrixCommand), (s.core core).matrix.queue = c :: rest →
      ∃ t : State, exec (.uncorrectableError (.matrix core)) s = .next t
        ∧ (t.core core).matrix.queue = { c with bad := true } :: rest ∧ (∀ x, t.group x = s.group x) ∧ t.mem = s.mem)
    ∧ (∀ (core : Fin 384) (n : Nat) (e : LiftEntry), (s.core core).incoming[n]? = some e →
      ∃ t : State, exec (.uncorrectableError (.liftEntry core n)) s = .next t
        ∧ (t.core core).incoming = (s.core core).incoming.set n { e with poisoned := true } ∧ t.mem = s.mem)
    ∧ (s.security.state ≠ .safe → ∃ t : State, exec (.uncorrectableError .secure) s = .next t ∧ t.security.state = .safe
        ∧ t.cores = s.cores ∧ t.mem = s.mem)
end

