-- ==== Sys2Proof/Laws/Table.lean ====
section
/-! SUPPORT. Laws of the sparse tables and of the canonical form of memory. -/

namespace Sys2Proof.Machine

/-! ### Tables -/

/-- A key that has been set holds what was set. -/
@[simp] theorem Table.find_set_self {α : Type} (t : Table α) (k : Nat) (a : α) : Table.find (Table.set t k a) k = some a := by
  induction t with
  | nil => simp [Table.set, Table.find]
  | cons e rest ih =>
    simp only [Table.set]
    split
    · simp [Table.find]
    · split
      · simp [Table.find]
      · have h : e.1 ≠ k := by omega
        simp [Table.find, h, ih]

/-- Setting a key leaves every other key as it was. -/
theorem Table.find_set_of_ne {α : Type} (t : Table α) {k j : Nat} (a : α) (h : j ≠ k) :
    Table.find (Table.set t k a) j = Table.find t j := by
  induction t with
  | nil => simp [Table.set, Table.find, Ne.symm h]
  | cons e rest ih =>
    simp only [Table.set]
    split
    · simp [Table.find, Ne.symm h]
    · split
      · next hk => subst hk; simp [Table.find, Ne.symm h]
      · simp [Table.find, ih]

@[simp] theorem Table.get_set_self {α : Type} (t : Table α) (d a : α) (k : Nat) : Table.get (Table.set t k a) d k = a := by
  simp [Table.get]

theorem Table.get_set_of_ne {α : Type} (t : Table α) (d a : α) {k j : Nat} (h : j ≠ k) :
    Table.get (Table.set t k a) d j = Table.get t d j := by simp [Table.get, Table.find_set_of_ne t a h]

/-- An erased key is not listed. -/
@[simp] theorem Table.find_erase_self {α : Type} (t : Table α) (k : Nat) : Table.find (Table.erase t k) k = none := by
  induction t with
  | nil => rfl
  | cons e rest ih =>
    unfold Table.erase at ih ⊢
    by_cases h : e.1 = k <;> simp_all [Table.find]

/-- Erasing a key leaves every other key as it was. -/
theorem Table.find_erase_of_ne {α : Type} (t : Table α) {k j : Nat} (h : j ≠ k) :
    Table.find (Table.erase t k) j = Table.find t j := by
  induction t with
  | nil => rfl
  | cons e rest ih =>
    unfold Table.erase at ih ⊢
    by_cases hk : e.1 = k
    · have hj : e.1 ≠ j := by omega
      simpa [Table.find, hk, Ne.symm h] using ih
    · by_cases hj : e.1 = j <;> simp_all [Table.find]

/-- A listed key that has been changed holds what the change gives. -/
@[simp] theorem Table.find_modify_self {α : Type} (t : Table α) (k : Nat) (f : α → α) :
    Table.find (Table.modify t k f) k = (Table.find t k).map f := by
  induction t with
  | nil => rfl
  | cons e rest ih =>
    unfold Table.modify at ih ⊢
    by_cases h : e.1 = k <;> simp_all [Table.find]

/-- Changing a key leaves every other key as it was. -/
theorem Table.find_modify_of_ne {α : Type} (t : Table α) {k j : Nat} (f : α → α) (h : j ≠ k) :
    Table.find (Table.modify t k f) j = Table.find t j := by
  induction t with
  | nil => rfl
  | cons e rest ih =>
    unfold Table.modify at ih ⊢
    by_cases hk : e.1 = k
    · have hj : e.1 ≠ j := by omega
      simp_all [Table.find]
    · by_cases hj : e.1 = j <;> simp_all [Table.find]

/-- A found entry is listed. -/
theorem Table.mem_of_find {α : Type} {t : Table α} {k : Nat} {a : α} (h : Table.find t k = some a) : (k, a) ∈ t := by
  induction t with
  | nil => simp [Table.find] at h
  | cons e rest ih =>
    by_cases hk : e.1 = k
    · simp only [Table.find, hk, if_true, Option.some.injEq] at h
      simp [← hk, ← h]
    · simp only [Table.find, hk, if_false] at h
      exact List.mem_cons_of_mem _ (ih h)

/-! ### The canonical form of memory -/

/-- What the form says of a first entry. -/
theorem Memory.wfAbove_cons {lo k : Nat} {b : Byte} {rest : Memory} :
    Memory.wfAbove lo ((k, b) :: rest) = true ↔ lo ≤ k ∧ b ≠ 0 ∧ Memory.wfAbove (k + 1) rest = true := by
  simp [Memory.wfAbove, and_assoc]

/-- The form above a higher bound is the form above a lower one. -/
theorem Memory.wfAbove_mono {m : Memory} {lo hi : Nat} (h : lo ≤ hi) (hm : Memory.wfAbove hi m = true) :
    Memory.wfAbove lo m = true := by
  cases m with
  | nil => rfl
  | cons e rest =>
    obtain ⟨h1, h2⟩ := Memory.wfAbove_cons.mp hm
    exact Memory.wfAbove_cons.mpr ⟨by omega, h2⟩

/-- A write of a byte keeps the form, above any bound that its address meets. -/
theorem Memory.wfAbove_write {m : Memory} {lo a : Nat} (v : Byte) (ha : lo ≤ a) (h : Memory.wfAbove lo m = true) :
    Memory.wfAbove lo (Memory.write m a v) = true := by
  induction m generalizing lo with
  | nil =>
    by_cases hv : v = 0
    · subst hv; rfl
    · rw [Memory.write, if_neg hv]; exact Memory.wfAbove_cons.mpr ⟨ha, hv, rfl⟩
  | cons e rest ih =>
    obtain ⟨k, b⟩ := e
    obtain ⟨hlo, hb, hrest⟩ := Memory.wfAbove_cons.mp h
    by_cases hk : a < k
    · rw [Memory.write, if_pos hk]
      by_cases hv : v = 0
      · rw [if_pos hv]; exact h
      · rw [if_neg hv]
        exact Memory.wfAbove_cons.mpr ⟨ha, hv, Memory.wfAbove_cons.mpr ⟨hk, hb, hrest⟩⟩
    · rw [Memory.write, if_neg hk]
      by_cases hak : a = k
      · rw [if_pos hak]
        by_cases hv : v = 0
        · rw [if_pos hv]; exact Memory.wfAbove_mono (by omega) hrest
        · rw [if_neg hv, hak]; exact Memory.wfAbove_cons.mpr ⟨hlo, hv, hrest⟩
      · rw [if_neg hak]; exact Memory.wfAbove_cons.mpr ⟨hlo, hb, ih (by omega) hrest⟩

/-- A write of a byte keeps the form. -/
theorem Memory.wf_write {m : Memory} (a : Nat) (v : Byte) (h : m.wf = true) : (m.write a v).wf = true :=
  Memory.wfAbove_write v (Nat.zero_le a) h

/-- A write of bytes keeps the form. -/
theorem Memory.wf_writeBytes {m : Memory} (a : Nat) (bs : List Byte) (h : m.wf = true) : (m.writeBytes a bs).wf = true := by
  induction bs generalizing m a with
  | nil => exact h
  | cons b rest ih => exact ih (a + 1) (Memory.wf_write a b h)

/-- A write of a number keeps the form. -/
theorem Memory.wf_writeNum {m : Memory} (a n x : Nat) (h : m.wf = true) : (m.writeNum a n x).wf = true :=
  Memory.wf_writeBytes a (bytesOfNum n x) h

/-- A copy of bytes keeps the form. -/
theorem Memory.wf_copyFrom {m : Memory} (a : Nat) (from_ : Memory) (src n : Nat) (h : m.wf = true) :
    (m.copyFrom a from_ src n).wf = true := Memory.wf_writeBytes a (from_.readBytes src n) h

/-- A part of a memory in the form is in it. -/
theorem Memory.wfAbove_filter {m : Memory} {lo : Nat} (p : Host.Cell → Bool) (h : Memory.wfAbove lo m = true) :
    Memory.wfAbove lo (m.filter p) = true := by
  induction m generalizing lo with
  | nil => rfl
  | cons e rest ih =>
    obtain ⟨k, b⟩ := e
    obtain ⟨hlo, hb, hrest⟩ := Memory.wfAbove_cons.mp h
    by_cases hp : p (k, b) = true
    · rw [List.filter_cons_of_pos hp]; exact Memory.wfAbove_cons.mpr ⟨hlo, hb, ih hrest⟩
    · rw [List.filter_cons_of_neg hp]; exact Memory.wfAbove_mono (by omega) (ih hrest)

theorem Memory.wf_filter {m : Memory} (p : Host.Cell → Bool) (h : m.wf = true) : Memory.wf (m.filter p) = true :=
  Memory.wfAbove_filter p h

/-- Clearing a range keeps the form. -/
theorem Memory.wf_clear {m : Memory} (lo hi : Nat) (h : m.wf = true) : (m.clear lo hi).wf = true :=
  Memory.wf_filter _ h

/-- A fold of writes keeps the form. -/
theorem Memory.wf_foldl {α : Type} {m : Memory} (f : Memory → α → Memory) (xs : List α)
    (hf : ∀ m x, Memory.wf m = true → Memory.wf (f m x) = true) (h : m.wf = true) : Memory.wf (xs.foldl f m) = true := by
  induction xs generalizing m with
  | nil => exact h
  | cons x rest ih => exact ih (hf m x h)

end Sys2Proof.Machine
end

