-- ==== Sys2Proof/Laws/State.lean ====
section
/-! SUPPORT. What each update of the state does to each field: the field, or the value that it takes. -/

namespace Sys2Proof.Machine

/-! ### State.setCore -/

@[simp] theorem State.setCore_cycle (s : State) (c : Nat) (k : Core) : (s.setCore c k).cycle = s.cycle := rfl
@[simp] theorem State.setCore_turn (s : State) (c : Nat) (k : Core) : (s.setCore c k).turn = s.turn := rfl
@[simp] theorem State.setCore_cursor (s : State) (c : Nat) (k : Core) : (s.setCore c k).cursor = s.cursor := rfl
@[simp] theorem State.setCore_order (s : State) (c : Nat) (k : Core) : (s.setCore c k).order = s.order := rfl
@[simp] theorem State.setCore_issuing (s : State) (c : Nat) (k : Core) : (s.setCore c k).issuing = s.issuing := rfl
@[simp] theorem State.setCore_agenda (s : State) (c : Nat) (k : Core) : (s.setCore c k).agenda = s.agenda := rfl
@[simp] theorem State.setCore_fresh (s : State) (c : Nat) (k : Core) : (s.setCore c k).fresh = s.fresh := rfl
@[simp] theorem State.setCore_mem (s : State) (c : Nat) (k : Core) : (s.setCore c k).mem = s.mem := rfl
@[simp] theorem State.setCore_hostMem (s : State) (c : Nat) (k : Core) : (s.setCore c k).hostMem = s.hostMem := rfl
@[simp] theorem State.setCore_poisoned (s : State) (c : Nat) (k : Core) : (s.setCore c k).poisoned = s.poisoned := rfl
@[simp] theorem State.setCore_cores (s : State) (c : Nat) (k : Core) : (s.setCore c k).cores = Table.set s.cores c k := rfl
@[simp] theorem State.setCore_contexts (s : State) (c : Nat) (k : Core) : (s.setCore c k).contexts = s.contexts := rfl
@[simp] theorem State.setCore_dieTlb (s : State) (c : Nat) (k : Core) : (s.setCore c k).dieTlb = s.dieTlb := rfl
@[simp] theorem State.setCore_shootdowns (s : State) (c : Nat) (k : Core) : (s.setCore c k).shootdowns = s.shootdowns := rfl
@[simp] theorem State.setCore_front (s : State) (c : Nat) (k : Core) : (s.setCore c k).front = s.front := rfl
@[simp] theorem State.setCore_security (s : State) (c : Nat) (k : Core) : (s.setCore c k).security = s.security := rfl
@[simp] theorem State.setCore_dbg (s : State) (c : Nat) (k : Core) : (s.setCore c k).dbg = s.dbg := rfl
@[simp] theorem State.setCore_links (s : State) (c : Nat) (k : Core) : (s.setCore c k).links = s.links := rfl

/-! ### State.modCore -/

@[simp] theorem State.modCore_cycle (s : State) (c : Nat) (f : Core → Core) : (s.modCore c f).cycle = s.cycle := rfl
@[simp] theorem State.modCore_turn (s : State) (c : Nat) (f : Core → Core) : (s.modCore c f).turn = s.turn := rfl
@[simp] theorem State.modCore_cursor (s : State) (c : Nat) (f : Core → Core) : (s.modCore c f).cursor = s.cursor := rfl
@[simp] theorem State.modCore_order (s : State) (c : Nat) (f : Core → Core) : (s.modCore c f).order = s.order := rfl
@[simp] theorem State.modCore_issuing (s : State) (c : Nat) (f : Core → Core) : (s.modCore c f).issuing = s.issuing := rfl
@[simp] theorem State.modCore_agenda (s : State) (c : Nat) (f : Core → Core) : (s.modCore c f).agenda = s.agenda := rfl
@[simp] theorem State.modCore_fresh (s : State) (c : Nat) (f : Core → Core) : (s.modCore c f).fresh = s.fresh := rfl
@[simp] theorem State.modCore_mem (s : State) (c : Nat) (f : Core → Core) : (s.modCore c f).mem = s.mem := rfl
@[simp] theorem State.modCore_hostMem (s : State) (c : Nat) (f : Core → Core) : (s.modCore c f).hostMem = s.hostMem := rfl
@[simp] theorem State.modCore_poisoned (s : State) (c : Nat) (f : Core → Core) : (s.modCore c f).poisoned = s.poisoned := rfl
@[simp] theorem State.modCore_cores (s : State) (c : Nat) (f : Core → Core) : (s.modCore c f).cores = Table.set s.cores c (f (s.core c)) := rfl
@[simp] theorem State.modCore_contexts (s : State) (c : Nat) (f : Core → Core) : (s.modCore c f).contexts = s.contexts := rfl
@[simp] theorem State.modCore_dieTlb (s : State) (c : Nat) (f : Core → Core) : (s.modCore c f).dieTlb = s.dieTlb := rfl
@[simp] theorem State.modCore_shootdowns (s : State) (c : Nat) (f : Core → Core) : (s.modCore c f).shootdowns = s.shootdowns := rfl
@[simp] theorem State.modCore_front (s : State) (c : Nat) (f : Core → Core) : (s.modCore c f).front = s.front := rfl
@[simp] theorem State.modCore_security (s : State) (c : Nat) (f : Core → Core) : (s.modCore c f).security = s.security := rfl
@[simp] theorem State.modCore_dbg (s : State) (c : Nat) (f : Core → Core) : (s.modCore c f).dbg = s.dbg := rfl
@[simp] theorem State.modCore_links (s : State) (c : Nat) (f : Core → Core) : (s.modCore c f).links = s.links := rfl

/-! ### State.modGroup -/

@[simp] theorem State.modGroup_cycle (s : State) (r : GroupRef) (f : Group → Group) : (s.modGroup r f).cycle = s.cycle := rfl
@[simp] theorem State.modGroup_turn (s : State) (r : GroupRef) (f : Group → Group) : (s.modGroup r f).turn = s.turn := rfl
@[simp] theorem State.modGroup_cursor (s : State) (r : GroupRef) (f : Group → Group) : (s.modGroup r f).cursor = s.cursor := rfl
@[simp] theorem State.modGroup_order (s : State) (r : GroupRef) (f : Group → Group) : (s.modGroup r f).order = s.order := rfl
@[simp] theorem State.modGroup_issuing (s : State) (r : GroupRef) (f : Group → Group) : (s.modGroup r f).issuing = s.issuing := rfl
@[simp] theorem State.modGroup_agenda (s : State) (r : GroupRef) (f : Group → Group) : (s.modGroup r f).agenda = s.agenda := rfl
@[simp] theorem State.modGroup_fresh (s : State) (r : GroupRef) (f : Group → Group) : (s.modGroup r f).fresh = s.fresh := rfl
@[simp] theorem State.modGroup_mem (s : State) (r : GroupRef) (f : Group → Group) : (s.modGroup r f).mem = s.mem := rfl
@[simp] theorem State.modGroup_hostMem (s : State) (r : GroupRef) (f : Group → Group) : (s.modGroup r f).hostMem = s.hostMem := rfl
@[simp] theorem State.modGroup_poisoned (s : State) (r : GroupRef) (f : Group → Group) : (s.modGroup r f).poisoned = s.poisoned := rfl
@[simp] theorem State.modGroup_contexts (s : State) (r : GroupRef) (f : Group → Group) : (s.modGroup r f).contexts = s.contexts := rfl
@[simp] theorem State.modGroup_dieTlb (s : State) (r : GroupRef) (f : Group → Group) : (s.modGroup r f).dieTlb = s.dieTlb := rfl
@[simp] theorem State.modGroup_shootdowns (s : State) (r : GroupRef) (f : Group → Group) : (s.modGroup r f).shootdowns = s.shootdowns := rfl
@[simp] theorem State.modGroup_front (s : State) (r : GroupRef) (f : Group → Group) : (s.modGroup r f).front = s.front := rfl
@[simp] theorem State.modGroup_security (s : State) (r : GroupRef) (f : Group → Group) : (s.modGroup r f).security = s.security := rfl
@[simp] theorem State.modGroup_dbg (s : State) (r : GroupRef) (f : Group → Group) : (s.modGroup r f).dbg = s.dbg := rfl
@[simp] theorem State.modGroup_links (s : State) (r : GroupRef) (f : Group → Group) : (s.modGroup r f).links = s.links := rfl

/-! ### State.modTeam -/

@[simp] theorem State.modTeam_cycle (s : State) (t : TeamRef) (f : Team → Team) : (s.modTeam t f).cycle = s.cycle := rfl
@[simp] theorem State.modTeam_turn (s : State) (t : TeamRef) (f : Team → Team) : (s.modTeam t f).turn = s.turn := rfl
@[simp] theorem State.modTeam_cursor (s : State) (t : TeamRef) (f : Team → Team) : (s.modTeam t f).cursor = s.cursor := rfl
@[simp] theorem State.modTeam_order (s : State) (t : TeamRef) (f : Team → Team) : (s.modTeam t f).order = s.order := rfl
@[simp] theorem State.modTeam_issuing (s : State) (t : TeamRef) (f : Team → Team) : (s.modTeam t f).issuing = s.issuing := rfl
@[simp] theorem State.modTeam_agenda (s : State) (t : TeamRef) (f : Team → Team) : (s.modTeam t f).agenda = s.agenda := rfl
@[simp] theorem State.modTeam_fresh (s : State) (t : TeamRef) (f : Team → Team) : (s.modTeam t f).fresh = s.fresh := rfl
@[simp] theorem State.modTeam_mem (s : State) (t : TeamRef) (f : Team → Team) : (s.modTeam t f).mem = s.mem := rfl
@[simp] theorem State.modTeam_hostMem (s : State) (t : TeamRef) (f : Team → Team) : (s.modTeam t f).hostMem = s.hostMem := rfl
@[simp] theorem State.modTeam_poisoned (s : State) (t : TeamRef) (f : Team → Team) : (s.modTeam t f).poisoned = s.poisoned := rfl
@[simp] theorem State.modTeam_contexts (s : State) (t : TeamRef) (f : Team → Team) : (s.modTeam t f).contexts = s.contexts := rfl
@[simp] theorem State.modTeam_dieTlb (s : State) (t : TeamRef) (f : Team → Team) : (s.modTeam t f).dieTlb = s.dieTlb := rfl
@[simp] theorem State.modTeam_shootdowns (s : State) (t : TeamRef) (f : Team → Team) : (s.modTeam t f).shootdowns = s.shootdowns := rfl
@[simp] theorem State.modTeam_front (s : State) (t : TeamRef) (f : Team → Team) : (s.modTeam t f).front = s.front := rfl
@[simp] theorem State.modTeam_security (s : State) (t : TeamRef) (f : Team → Team) : (s.modTeam t f).security = s.security := rfl
@[simp] theorem State.modTeam_dbg (s : State) (t : TeamRef) (f : Team → Team) : (s.modTeam t f).dbg = s.dbg := rfl
@[simp] theorem State.modTeam_links (s : State) (t : TeamRef) (f : Team → Team) : (s.modTeam t f).links = s.links := rfl

/-! ### State.modContext -/

@[simp] theorem State.modContext_cycle (s : State) (n : Nat) (f : Context → Context) : (s.modContext n f).cycle = s.cycle := rfl
@[simp] theorem State.modContext_turn (s : State) (n : Nat) (f : Context → Context) : (s.modContext n f).turn = s.turn := rfl
@[simp] theorem State.modContext_cursor (s : State) (n : Nat) (f : Context → Context) : (s.modContext n f).cursor = s.cursor := rfl
@[simp] theorem State.modContext_order (s : State) (n : Nat) (f : Context → Context) : (s.modContext n f).order = s.order := rfl
@[simp] theorem State.modContext_issuing (s : State) (n : Nat) (f : Context → Context) : (s.modContext n f).issuing = s.issuing := rfl
@[simp] theorem State.modContext_agenda (s : State) (n : Nat) (f : Context → Context) : (s.modContext n f).agenda = s.agenda := rfl
@[simp] theorem State.modContext_fresh (s : State) (n : Nat) (f : Context → Context) : (s.modContext n f).fresh = s.fresh := rfl
@[simp] theorem State.modContext_mem (s : State) (n : Nat) (f : Context → Context) : (s.modContext n f).mem = s.mem := rfl
@[simp] theorem State.modContext_hostMem (s : State) (n : Nat) (f : Context → Context) : (s.modContext n f).hostMem = s.hostMem := rfl
@[simp] theorem State.modContext_poisoned (s : State) (n : Nat) (f : Context → Context) : (s.modContext n f).poisoned = s.poisoned := rfl
@[simp] theorem State.modContext_cores (s : State) (n : Nat) (f : Context → Context) : (s.modContext n f).cores = s.cores := rfl
@[simp] theorem State.modContext_contexts (s : State) (n : Nat) (f : Context → Context) : (s.modContext n f).contexts = Table.set s.contexts n (f (s.context n)) := rfl
@[simp] theorem State.modContext_dieTlb (s : State) (n : Nat) (f : Context → Context) : (s.modContext n f).dieTlb = s.dieTlb := rfl
@[simp] theorem State.modContext_shootdowns (s : State) (n : Nat) (f : Context → Context) : (s.modContext n f).shootdowns = s.shootdowns := rfl
@[simp] theorem State.modContext_front (s : State) (n : Nat) (f : Context → Context) : (s.modContext n f).front = s.front := rfl
@[simp] theorem State.modContext_security (s : State) (n : Nat) (f : Context → Context) : (s.modContext n f).security = s.security := rfl
@[simp] theorem State.modContext_dbg (s : State) (n : Nat) (f : Context → Context) : (s.modContext n f).dbg = s.dbg := rfl
@[simp] theorem State.modContext_links (s : State) (n : Nat) (f : Context → Context) : (s.modContext n f).links = s.links := rfl

/-! ### State.joinReady -/

@[simp] theorem State.joinReady_cycle (s : State) (r : GroupRef) (n : Nat) : (s.joinReady r n).cycle = s.cycle := rfl
@[simp] theorem State.joinReady_turn (s : State) (r : GroupRef) (n : Nat) : (s.joinReady r n).turn = s.turn := rfl
@[simp] theorem State.joinReady_cursor (s : State) (r : GroupRef) (n : Nat) : (s.joinReady r n).cursor = s.cursor := rfl
@[simp] theorem State.joinReady_order (s : State) (r : GroupRef) (n : Nat) : (s.joinReady r n).order = s.order := rfl
@[simp] theorem State.joinReady_issuing (s : State) (r : GroupRef) (n : Nat) : (s.joinReady r n).issuing = s.issuing := rfl
@[simp] theorem State.joinReady_agenda (s : State) (r : GroupRef) (n : Nat) : (s.joinReady r n).agenda = s.agenda := rfl
@[simp] theorem State.joinReady_fresh (s : State) (r : GroupRef) (n : Nat) : (s.joinReady r n).fresh = s.fresh := rfl
@[simp] theorem State.joinReady_mem (s : State) (r : GroupRef) (n : Nat) : (s.joinReady r n).mem = s.mem := rfl
@[simp] theorem State.joinReady_hostMem (s : State) (r : GroupRef) (n : Nat) : (s.joinReady r n).hostMem = s.hostMem := rfl
@[simp] theorem State.joinReady_poisoned (s : State) (r : GroupRef) (n : Nat) : (s.joinReady r n).poisoned = s.poisoned := rfl
@[simp] theorem State.joinReady_contexts (s : State) (r : GroupRef) (n : Nat) : (s.joinReady r n).contexts = s.contexts := rfl
@[simp] theorem State.joinReady_dieTlb (s : State) (r : GroupRef) (n : Nat) : (s.joinReady r n).dieTlb = s.dieTlb := rfl
@[simp] theorem State.joinReady_shootdowns (s : State) (r : GroupRef) (n : Nat) : (s.joinReady r n).shootdowns = s.shootdowns := rfl
@[simp] theorem State.joinReady_front (s : State) (r : GroupRef) (n : Nat) : (s.joinReady r n).front = s.front := rfl
@[simp] theorem State.joinReady_security (s : State) (r : GroupRef) (n : Nat) : (s.joinReady r n).security = s.security := rfl
@[simp] theorem State.joinReady_dbg (s : State) (r : GroupRef) (n : Nat) : (s.joinReady r n).dbg = s.dbg := rfl
@[simp] theorem State.joinReady_links (s : State) (r : GroupRef) (n : Nat) : (s.joinReady r n).links = s.links := rfl

/-! ### State.leaveBarrel -/

@[simp] theorem State.leaveBarrel_cycle (s : State) (r : GroupRef) : (s.leaveBarrel r).cycle = s.cycle := rfl
@[simp] theorem State.leaveBarrel_turn (s : State) (r : GroupRef) : (s.leaveBarrel r).turn = s.turn := rfl
@[simp] theorem State.leaveBarrel_cursor (s : State) (r : GroupRef) : (s.leaveBarrel r).cursor = s.cursor := rfl
@[simp] theorem State.leaveBarrel_order (s : State) (r : GroupRef) : (s.leaveBarrel r).order = s.order := rfl
@[simp] theorem State.leaveBarrel_issuing (s : State) (r : GroupRef) : (s.leaveBarrel r).issuing = s.issuing := rfl
@[simp] theorem State.leaveBarrel_agenda (s : State) (r : GroupRef) : (s.leaveBarrel r).agenda = s.agenda := rfl
@[simp] theorem State.leaveBarrel_fresh (s : State) (r : GroupRef) : (s.leaveBarrel r).fresh = s.fresh := rfl
@[simp] theorem State.leaveBarrel_mem (s : State) (r : GroupRef) : (s.leaveBarrel r).mem = s.mem := rfl
@[simp] theorem State.leaveBarrel_hostMem (s : State) (r : GroupRef) : (s.leaveBarrel r).hostMem = s.hostMem := rfl
@[simp] theorem State.leaveBarrel_poisoned (s : State) (r : GroupRef) : (s.leaveBarrel r).poisoned = s.poisoned := rfl
@[simp] theorem State.leaveBarrel_contexts (s : State) (r : GroupRef) : (s.leaveBarrel r).contexts = s.contexts := rfl
@[simp] theorem State.leaveBarrel_dieTlb (s : State) (r : GroupRef) : (s.leaveBarrel r).dieTlb = s.dieTlb := rfl
@[simp] theorem State.leaveBarrel_shootdowns (s : State) (r : GroupRef) : (s.leaveBarrel r).shootdowns = s.shootdowns := rfl
@[simp] theorem State.leaveBarrel_front (s : State) (r : GroupRef) : (s.leaveBarrel r).front = s.front := rfl
@[simp] theorem State.leaveBarrel_security (s : State) (r : GroupRef) : (s.leaveBarrel r).security = s.security := rfl
@[simp] theorem State.leaveBarrel_dbg (s : State) (r : GroupRef) : (s.leaveBarrel r).dbg = s.dbg := rfl
@[simp] theorem State.leaveBarrel_links (s : State) (r : GroupRef) : (s.leaveBarrel r).links = s.links := rfl

/-! ### State.modFront -/

@[simp] theorem State.modFront_cycle (s : State) (f : FrontEnd → FrontEnd) : (s.modFront f).cycle = s.cycle := rfl
@[simp] theorem State.modFront_turn (s : State) (f : FrontEnd → FrontEnd) : (s.modFront f).turn = s.turn := rfl
@[simp] theorem State.modFront_cursor (s : State) (f : FrontEnd → FrontEnd) : (s.modFront f).cursor = s.cursor := rfl
@[simp] theorem State.modFront_order (s : State) (f : FrontEnd → FrontEnd) : (s.modFront f).order = s.order := rfl
@[simp] theorem State.modFront_issuing (s : State) (f : FrontEnd → FrontEnd) : (s.modFront f).issuing = s.issuing := rfl
@[simp] theorem State.modFront_agenda (s : State) (f : FrontEnd → FrontEnd) : (s.modFront f).agenda = s.agenda := rfl
@[simp] theorem State.modFront_fresh (s : State) (f : FrontEnd → FrontEnd) : (s.modFront f).fresh = s.fresh := rfl
@[simp] theorem State.modFront_mem (s : State) (f : FrontEnd → FrontEnd) : (s.modFront f).mem = s.mem := rfl
@[simp] theorem State.modFront_hostMem (s : State) (f : FrontEnd → FrontEnd) : (s.modFront f).hostMem = s.hostMem := rfl
@[simp] theorem State.modFront_poisoned (s : State) (f : FrontEnd → FrontEnd) : (s.modFront f).poisoned = s.poisoned := rfl
@[simp] theorem State.modFront_cores (s : State) (f : FrontEnd → FrontEnd) : (s.modFront f).cores = s.cores := rfl
@[simp] theorem State.modFront_contexts (s : State) (f : FrontEnd → FrontEnd) : (s.modFront f).contexts = s.contexts := rfl
@[simp] theorem State.modFront_dieTlb (s : State) (f : FrontEnd → FrontEnd) : (s.modFront f).dieTlb = s.dieTlb := rfl
@[simp] theorem State.modFront_shootdowns (s : State) (f : FrontEnd → FrontEnd) : (s.modFront f).shootdowns = s.shootdowns := rfl
@[simp] theorem State.modFront_front (s : State) (f : FrontEnd → FrontEnd) : (s.modFront f).front = f s.front := rfl
@[simp] theorem State.modFront_security (s : State) (f : FrontEnd → FrontEnd) : (s.modFront f).security = s.security := rfl
@[simp] theorem State.modFront_dbg (s : State) (f : FrontEnd → FrontEnd) : (s.modFront f).dbg = s.dbg := rfl
@[simp] theorem State.modFront_links (s : State) (f : FrontEnd → FrontEnd) : (s.modFront f).links = s.links := rfl

/-! ### State.modSecurity -/

@[simp] theorem State.modSecurity_cycle (s : State) (f : Security → Security) : (s.modSecurity f).cycle = s.cycle := rfl
@[simp] theorem State.modSecurity_turn (s : State) (f : Security → Security) : (s.modSecurity f).turn = s.turn := rfl
@[simp] theorem State.modSecurity_cursor (s : State) (f : Security → Security) : (s.modSecurity f).cursor = s.cursor := rfl
@[simp] theorem State.modSecurity_order (s : State) (f : Security → Security) : (s.modSecurity f).order = s.order := rfl
@[simp] theorem State.modSecurity_issuing (s : State) (f : Security → Security) : (s.modSecurity f).issuing = s.issuing := rfl
@[simp] theorem State.modSecurity_agenda (s : State) (f : Security → Security) : (s.modSecurity f).agenda = s.agenda := rfl
@[simp] theorem State.modSecurity_fresh (s : State) (f : Security → Security) : (s.modSecurity f).fresh = s.fresh := rfl
@[simp] theorem State.modSecurity_mem (s : State) (f : Security → Security) : (s.modSecurity f).mem = s.mem := rfl
@[simp] theorem State.modSecurity_hostMem (s : State) (f : Security → Security) : (s.modSecurity f).hostMem = s.hostMem := rfl
@[simp] theorem State.modSecurity_poisoned (s : State) (f : Security → Security) : (s.modSecurity f).poisoned = s.poisoned := rfl
@[simp] theorem State.modSecurity_cores (s : State) (f : Security → Security) : (s.modSecurity f).cores = s.cores := rfl
@[simp] theorem State.modSecurity_contexts (s : State) (f : Security → Security) : (s.modSecurity f).contexts = s.contexts := rfl
@[simp] theorem State.modSecurity_dieTlb (s : State) (f : Security → Security) : (s.modSecurity f).dieTlb = s.dieTlb := rfl
@[simp] theorem State.modSecurity_shootdowns (s : State) (f : Security → Security) : (s.modSecurity f).shootdowns = s.shootdowns := rfl
@[simp] theorem State.modSecurity_front (s : State) (f : Security → Security) : (s.modSecurity f).front = s.front := rfl
@[simp] theorem State.modSecurity_security (s : State) (f : Security → Security) : (s.modSecurity f).security = f s.security := rfl
@[simp] theorem State.modSecurity_dbg (s : State) (f : Security → Security) : (s.modSecurity f).dbg = s.dbg := rfl
@[simp] theorem State.modSecurity_links (s : State) (f : Security → Security) : (s.modSecurity f).links = s.links := rfl

/-! ### State.due -/

@[simp] theorem State.due_cycle (s : State) (is : List Instr) : (s.due is).cycle = s.cycle := rfl
@[simp] theorem State.due_turn (s : State) (is : List Instr) : (s.due is).turn = s.turn := rfl
@[simp] theorem State.due_cursor (s : State) (is : List Instr) : (s.due is).cursor = s.cursor := rfl
@[simp] theorem State.due_order (s : State) (is : List Instr) : (s.due is).order = s.order := rfl
@[simp] theorem State.due_issuing (s : State) (is : List Instr) : (s.due is).issuing = s.issuing := rfl
@[simp] theorem State.due_agenda (s : State) (is : List Instr) : (s.due is).agenda = s.agenda ++ is := rfl
@[simp] theorem State.due_fresh (s : State) (is : List Instr) : (s.due is).fresh = s.fresh := rfl
@[simp] theorem State.due_mem (s : State) (is : List Instr) : (s.due is).mem = s.mem := rfl
@[simp] theorem State.due_hostMem (s : State) (is : List Instr) : (s.due is).hostMem = s.hostMem := rfl
@[simp] theorem State.due_poisoned (s : State) (is : List Instr) : (s.due is).poisoned = s.poisoned := rfl
@[simp] theorem State.due_cores (s : State) (is : List Instr) : (s.due is).cores = s.cores := rfl
@[simp] theorem State.due_contexts (s : State) (is : List Instr) : (s.due is).contexts = s.contexts := rfl
@[simp] theorem State.due_dieTlb (s : State) (is : List Instr) : (s.due is).dieTlb = s.dieTlb := rfl
@[simp] theorem State.due_shootdowns (s : State) (is : List Instr) : (s.due is).shootdowns = s.shootdowns := rfl
@[simp] theorem State.due_front (s : State) (is : List Instr) : (s.due is).front = s.front := rfl
@[simp] theorem State.due_security (s : State) (is : List Instr) : (s.due is).security = s.security := rfl
@[simp] theorem State.due_dbg (s : State) (is : List Instr) : (s.due is).dbg = s.dbg := rfl
@[simp] theorem State.due_links (s : State) (is : List Instr) : (s.due is).links = s.links := rfl

/-! ### State.useFresh -/

@[simp] theorem State.useFresh_cycle (s : State) : (s.useFresh).cycle = s.cycle := rfl
@[simp] theorem State.useFresh_turn (s : State) : (s.useFresh).turn = s.turn := rfl
@[simp] theorem State.useFresh_cursor (s : State) : (s.useFresh).cursor = s.cursor := rfl
@[simp] theorem State.useFresh_order (s : State) : (s.useFresh).order = s.order := rfl
@[simp] theorem State.useFresh_issuing (s : State) : (s.useFresh).issuing = s.issuing := rfl
@[simp] theorem State.useFresh_agenda (s : State) : (s.useFresh).agenda = s.agenda := rfl
@[simp] theorem State.useFresh_fresh (s : State) : (s.useFresh).fresh = s.fresh + 1 := rfl
@[simp] theorem State.useFresh_mem (s : State) : (s.useFresh).mem = s.mem := rfl
@[simp] theorem State.useFresh_hostMem (s : State) : (s.useFresh).hostMem = s.hostMem := rfl
@[simp] theorem State.useFresh_poisoned (s : State) : (s.useFresh).poisoned = s.poisoned := rfl
@[simp] theorem State.useFresh_cores (s : State) : (s.useFresh).cores = s.cores := rfl
@[simp] theorem State.useFresh_contexts (s : State) : (s.useFresh).contexts = s.contexts := rfl
@[simp] theorem State.useFresh_dieTlb (s : State) : (s.useFresh).dieTlb = s.dieTlb := rfl
@[simp] theorem State.useFresh_shootdowns (s : State) : (s.useFresh).shootdowns = s.shootdowns := rfl
@[simp] theorem State.useFresh_front (s : State) : (s.useFresh).front = s.front := rfl
@[simp] theorem State.useFresh_security (s : State) : (s.useFresh).security = s.security := rfl
@[simp] theorem State.useFresh_dbg (s : State) : (s.useFresh).dbg = s.dbg := rfl
@[simp] theorem State.useFresh_links (s : State) : (s.useFresh).links = s.links := rfl

/-! ### Cores, contexts, groups and teams after an update -/

@[simp] theorem State.core_setCore_self (s : State) (c : Nat) (k : Core) : (s.setCore c k).core c = k := by
  simp [State.core]

theorem State.core_setCore_of_ne (s : State) {c d : Nat} (k : Core) (h : d ≠ c) : (s.setCore c k).core d = s.core d := by
  simp [State.core, Table.get_set_of_ne _ _ _ h]

@[simp] theorem State.core_modCore_self (s : State) (c : Nat) (f : Core → Core) : (s.modCore c f).core c = f (s.core c) := by
  simp [State.modCore]

theorem State.core_modCore_of_ne (s : State) {c d : Nat} (f : Core → Core) (h : d ≠ c) :
    (s.modCore c f).core d = s.core d := State.core_setCore_of_ne s _ h

@[simp] theorem State.context_modContext_self (s : State) (n : Nat) (f : Context → Context) :
    (s.modContext n f).context n = f (s.context n) := by simp [State.context]

theorem State.context_modContext_of_ne (s : State) {n m : Nat} (f : Context → Context) (h : m ≠ n) :
    (s.modContext n f).context m = s.context m := by simp [State.context, Table.get_set_of_ne _ _ _ h]

@[simp] theorem State.group?_modGroup_self (s : State) (r : GroupRef) (f : Group → Group) :
    (s.modGroup r f).group? r = (s.group? r).map f := by simp [State.group?, State.modGroup]

/-- A change of one group leaves every other group as it was. -/
theorem State.group?_modGroup_of_ne (s : State) {r q : GroupRef} (f : Group → Group) (h : q ≠ r) :
    (s.modGroup r f).group? q = s.group? q := by
  by_cases hc : q.core = r.core
  · have hs : q.slot ≠ r.slot := fun hs => h (by cases q; cases r; simp_all)
    simp [State.group?, State.modGroup, hc, Table.find_modify_of_ne _ f hs]
  · simp [State.group?, State.modGroup, State.core_modCore_of_ne _ _ hc]

/-- A resident group after its change. -/
theorem State.group_modGroup_self (s : State) {r : GroupRef} (f : Group → Group) (h : (s.group? r).isSome = true) :
    (s.modGroup r f).group r = f (s.group r) := by
  obtain ⟨g, hg⟩ := Option.isSome_iff_exists.mp h
  simp [State.group, hg]

theorem State.group_modGroup_of_ne (s : State) {r q : GroupRef} (f : Group → Group) (h : q ≠ r) :
    (s.modGroup r f).group q = s.group q := by simp [State.group, State.group?_modGroup_of_ne s f h]

@[simp] theorem State.team?_modTeam_self (s : State) (t : TeamRef) (f : Team → Team) :
    (s.modTeam t f).team? t = (s.team? t).map f := by simp [State.team?, State.modTeam]

/-- A change of a group changes no team. -/
@[simp] theorem State.team?_modGroup (s : State) (r : GroupRef) (f : Group → Group) (t : TeamRef) :
    (s.modGroup r f).team? t = s.team? t := by
  by_cases h : t.core = r.core
  · simp [State.team?, State.modGroup, h]
  · simp [State.team?, State.modGroup, State.core_modCore_of_ne _ _ h]

/-- A change of a team changes no group. -/
@[simp] theorem State.group?_modTeam (s : State) (t : TeamRef) (f : Team → Team) (r : GroupRef) :
    (s.modTeam t f).group? r = s.group? r := by
  by_cases h : r.core = t.core
  · simp [State.group?, State.modTeam, h]
  · simp [State.group?, State.modTeam, State.core_modCore_of_ne _ _ h]

/-- A change of a context changes no core. -/
@[simp] theorem State.core_modContext (s : State) (n : Nat) (f : Context → Context) (c : Nat) :
    (s.modContext n f).core c = s.core c := rfl

/-- Steps that become due, and a free value used, change no core, no context and no group. -/
@[simp] theorem State.core_due (s : State) (is : List Instr) (c : Nat) : (s.due is).core c = s.core c := rfl
@[simp] theorem State.core_useFresh (s : State) (c : Nat) : s.useFresh.core c = s.core c := rfl
@[simp] theorem State.group_due (s : State) (is : List Instr) (r : GroupRef) : (s.due is).group r = s.group r := rfl
@[simp] theorem State.group_useFresh (s : State) (r : GroupRef) : s.useFresh.group r = s.group r := rfl
@[simp] theorem State.context_modCore (s : State) (c : Nat) (f : Core → Core) (n : Nat) :
    (s.modCore c f).context n = s.context n := rfl

end Sys2Proof.Machine
end

