-- ==== Sys2Proof/Laws/Issue.lean ====
section
/-! SUPPORT. What settling, the checks of an issue and its end can do: one lemma for each, which the proofs cite. -/

namespace Sys2Proof.Machine

/-! ### Attempts -/

/-- An attempt that succeeds is the next state. -/
@[simp] theorem State.finish_ok (s t : State) : s.finish (.ok t) = .next t := rfl

/-- One that stops leaves what the stop does to the state before it. -/
@[simp] theorem State.finish_error (s : State) (e : Stop) : s.finish (.error e) = .next (s.stopped e) := rfl

/-- A check passes exactly when its condition holds. -/
theorem check_ok (b : Bool) (c : Cause) : check b c = .ok () ↔ b = true := by cases b <;> simp [check, trapWith]

/-- What follows a check is reached exactly when its condition holds. -/
theorem check_bind_ok {α : Type} {b : Bool} {c : Cause} {k : Attempt α} {x : α} :
    (check b c >>= fun _ => k) = .ok x ↔ b = true ∧ k = .ok x := by
  cases b <;> simp [check, trapWith, bind, Except.bind]

/-- An attempt after another: both succeed. -/
theorem attempt_bind_ok {α β : Type} {x : Attempt α} {k : α → Attempt β} {y : β} :
    (x >>= k) = .ok y ↔ ∃ a, x = .ok a ∧ k a = .ok y := by
  cases x <;> simp [bind, Except.bind]

/-! ### File writes -/

/-- A write of a register changes the cores only. -/
theorem State.writeReg_eq (s : State) (r : GroupRef) (reg : Reg) (mask : Mask) (vals : Lanes) :
    s.writeReg r reg mask vals = { s with cores := (s.writeReg r reg mask vals).cores } := by
  unfold State.writeReg
  cases reg with
  | v n => by_cases h : n < 240 <;> simp only [h, if_true, if_false] <;> rfl
  | s n => rfl
  | k n => rfl

/-- A write of a register changes, of its core, the groups and the windows only. -/
theorem State.writeReg_core (s : State) (r : GroupRef) (reg : Reg) (mask : Mask) (vals : Lanes) (c : Nat) :
    ∃ gs win, (s.writeReg r reg mask vals).core c = { s.core c with groups := gs, win := win } := by
  unfold State.writeReg
  have key : ∀ f : Core → Core, (∀ k, ∃ gs win, f k = { k with groups := gs, win := win }) →
      ∃ gs win, (s.modCore r.core f).core c = { s.core c with groups := gs, win := win } := by
    intro f hf
    by_cases h : c = r.core
    · subst h; simpa using hf (s.core r.core)
    · exact ⟨_, _, State.core_modCore_of_ne s f h⟩
  cases reg with
  | v n =>
    by_cases h : n < 240
    · simp only [h, if_true]; exact key _ (fun k => ⟨_, _, rfl⟩)
    · simp only [h, if_false]; exact key _ (fun k => ⟨_, _, rfl⟩)
  | s n => exact key _ (fun k => ⟨_, _, rfl⟩)
  | k n => exact key _ (fun k => ⟨_, _, rfl⟩)

/-- A write of a register of a group changes no other group. -/
theorem State.writeReg_group_of_ne (s : State) {r q : GroupRef} (reg : Reg) (mask : Mask) (vals : Lanes) (h : q ≠ r) :
    (s.writeReg r reg mask vals).group? q = s.group? q := by
  unfold State.writeReg
  cases reg with
  | v n =>
    by_cases hn : n < 240
    · simp only [hn, if_true]; exact State.group?_modGroup_of_ne s _ h
    · simp only [hn, if_false]
      by_cases hc : q.core = r.core
      · simp [State.group?, hc]
      · simp [State.group?, State.core_modCore_of_ne _ _ hc]
  | s n => exact State.group?_modGroup_of_ne s _ h
  | k n => exact State.group?_modGroup_of_ne s _ h

/-- A file write that lands changes the cores only. -/
theorem State.land_eq (s : State) (r : GroupRef) (w : FileWrite) : s.land r w = { s with cores := (s.land r w).cores } := by
  have h := State.writeReg_eq s r w.reg w.mask w.vals
  unfold State.land
  rw [h]; rfl

theorem State.land_group_of_ne (s : State) {r q : GroupRef} (w : FileWrite) (h : q ≠ r) :
    (s.land r w).group? q = s.group? q := by
  unfold State.land
  rw [State.group?_modGroup_of_ne _ _ h, State.writeReg_group_of_ne s _ _ _ h]

/-- File writes that land change the cores only. -/
theorem State.lands_eq (ws : List FileWrite) (s : State) (r : GroupRef) :
    ws.foldl (fun s w => s.land r w) s = { s with cores := (ws.foldl (fun s w => s.land r w) s).cores } := by
  induction ws generalizing s with
  | nil => rfl
  | cons w rest ih =>
    simp only [List.foldl_cons]
    rw [ih (s.land r w)]
    have h := State.land_eq s r w
    generalize (rest.foldl (fun s w => s.land r w) (s.land r w)).cores = cs
    rw [h]

theorem State.lands_group_of_ne (ws : List FileWrite) (s : State) {r q : GroupRef} (h : q ≠ r) :
    (ws.foldl (fun s w => s.land r w) s).group? q = s.group? q := by
  induction ws generalizing s with
  | nil => rfl
  | cons w rest ih => simp only [List.foldl_cons]; rw [ih, State.land_group_of_ne s w h]

/-! ### Settling -/

/-- Settling a group changes the cores only. -/
theorem State.settle_eq (s : State) (r : GroupRef) : s.settle r = { s with cores := (s.settle r).cores } := by
  have h := State.lands_eq ((s.group r).inflight.filter (fun w => w.due < s.cycle)) s r
  unfold State.settle
  dsimp only
  rw [h]; rfl

@[simp] theorem State.settle_cycle (s : State) (r : GroupRef) : (s.settle r).cycle = s.cycle := by rw [State.settle_eq]
@[simp] theorem State.settle_turn (s : State) (r : GroupRef) : (s.settle r).turn = s.turn := by rw [State.settle_eq]
@[simp] theorem State.settle_cursor (s : State) (r : GroupRef) : (s.settle r).cursor = s.cursor := by rw [State.settle_eq]
@[simp] theorem State.settle_order (s : State) (r : GroupRef) : (s.settle r).order = s.order := by rw [State.settle_eq]
@[simp] theorem State.settle_issuing (s : State) (r : GroupRef) : (s.settle r).issuing = s.issuing := by rw [State.settle_eq]
@[simp] theorem State.settle_agenda (s : State) (r : GroupRef) : (s.settle r).agenda = s.agenda := by rw [State.settle_eq]
@[simp] theorem State.settle_fresh (s : State) (r : GroupRef) : (s.settle r).fresh = s.fresh := by rw [State.settle_eq]
@[simp] theorem State.settle_mem (s : State) (r : GroupRef) : (s.settle r).mem = s.mem := by rw [State.settle_eq]
@[simp] theorem State.settle_hostMem (s : State) (r : GroupRef) : (s.settle r).hostMem = s.hostMem := by rw [State.settle_eq]
@[simp] theorem State.settle_poisoned (s : State) (r : GroupRef) : (s.settle r).poisoned = s.poisoned := by rw [State.settle_eq]
@[simp] theorem State.settle_contexts (s : State) (r : GroupRef) : (s.settle r).contexts = s.contexts := by rw [State.settle_eq]
@[simp] theorem State.settle_dieTlb (s : State) (r : GroupRef) : (s.settle r).dieTlb = s.dieTlb := by rw [State.settle_eq]
@[simp] theorem State.settle_shootdowns (s : State) (r : GroupRef) : (s.settle r).shootdowns = s.shootdowns := by rw [State.settle_eq]
@[simp] theorem State.settle_front (s : State) (r : GroupRef) : (s.settle r).front = s.front := by rw [State.settle_eq]
@[simp] theorem State.settle_security (s : State) (r : GroupRef) : (s.settle r).security = s.security := by rw [State.settle_eq]
@[simp] theorem State.settle_dbg (s : State) (r : GroupRef) : (s.settle r).dbg = s.dbg := by rw [State.settle_eq]
@[simp] theorem State.settle_links (s : State) (r : GroupRef) : (s.settle r).links = s.links := by rw [State.settle_eq]

/-- Settling a group changes no other group. -/
theorem State.settle_group_of_ne (s : State) {r q : GroupRef} (h : q ≠ r) : (s.settle r).group? q = s.group? q := by
  unfold State.settle
  dsimp only
  rw [State.group?_modGroup_of_ne _ _ h, State.lands_group_of_ne _ s h]

/-! ### The checks of an issue (07 R179) -/

/-- What the uniform check leaves: the state, or the state with NU set. -/
theorem State.checkUniform_ok {s t : State} {r : GroupRef} {f : LongFields} {gate : Bool} {values : List Lanes}
    (h : s.checkUniform r f gate values = .ok t) : t = s ∨ t = s.modGroup r Group.markNU := by
  unfold State.checkUniform at h
  dsimp only at h
  split at h
  · split at h
    · simp [trapWith] at h
    · exact .inr (Except.ok.inj h).symm
  · exact .inl (Except.ok.inj h).symm

/-- What the checks of R179 leave: the state, or the state with NU set. -/
theorem State.operandChecks_ok {s t : State} {r : GroupRef} {op : Op} {f : LongFields} {xs : List (Option Source)} {d : Dest}
    (h : s.operandChecks r op f xs d = .ok t) : t = s ∨ t = s.modGroup r Group.markNU := by
  simp only [State.operandChecks, State.valueChecks, attempt_bind_ok] at h
  obtain ⟨_, _, _, _, u, hu, _, _, _, _, ht⟩ := h
  exact Except.ok.inj ht ▸ State.checkUniform_ok hu

/-- What an instruction that passes its checks is supplied with: the settled state, with NU set or not, and what `issueOf`
reads from it. -/
theorem State.prepare_ok {s : State} {op : Op} {f : LongFields} {x : Issue} (h : s.prepare op f = .ok x) :
    let u := s.settle s.issuing
    (x.s = u ∨ x.s = u.modGroup s.issuing Group.markNU)
      ∧ x = { u.issueOf s.issuing op f (u.sources s.issuing op f) (u.dest s.issuing op f) with s := x.s } := by
  simp only [State.prepare, attempt_bind_ok] at h
  obtain ⟨t, ht, hx⟩ := h
  have hx := Except.ok.inj hx
  subst hx
  exact ⟨State.operandChecks_ok ht, rfl⟩

/-- An instruction that has been prepared is of the same group. -/
theorem State.prepare_issuing {s : State} {op : Op} {f : LongFields} {x : Issue} (h : s.prepare op f = .ok x) :
    x.s.issuing = s.issuing := by
  obtain ⟨h | h, _⟩ := State.prepare_ok h <;> simp [h]

/-- Nor does it change memory. -/
theorem State.prepare_mem {s : State} {op : Op} {f : LongFields} {x : Issue} (h : s.prepare op f = .ok x) :
    x.s.mem = s.mem ∧ x.s.hostMem = s.hostMem := by
  obtain ⟨h | h, _⟩ := State.prepare_ok h <;> simp [h]

end Sys2Proof.Machine
end

