-- ==== Sys2Proof/Laws/PerInstr.lean ====
section
/-! SUPPORT. Statements about every instruction as syntax, one lemma for each constructor. -/

/-- The two readings of an instruction agree: the opcode and the form that it shows build it again, when its constructor
is the one that its fields select. -/
def Sys2Proof.Laws.ViewBuild.Statement (i : Sys2Proof.Instr) : Prop :=
  ∀ (op : Sys2Proof.Op) (form : Sys2Proof.Form), i.view = some (op, form) → i.subOk = true → op.build form = some i

namespace Sys2Proof.Laws.ViewBuild

theorem coldStart (inp : StartInput) : Statement (.coldStart inp) := fun _ _ h _ => nomatch h
theorem warmStart (inp : StartInput) : Statement (.warmStart inp) := fun _ _ h _ => nomatch h
theorem startFailure : Statement (.startFailure) := fun _ _ h _ => nomatch h
theorem ready : Statement (.ready) := fun _ _ h _ => nomatch h
theorem mboxWrite (val : BitVec 64) (inp : StartInput) : Statement (.mboxWrite val inp) := fun _ _ h _ => nomatch h
theorem thermalTrip : Statement (.thermalTrip) := fun _ _ h _ => nomatch h
theorem measExtend (cmd : BitVec 32) : Statement (.measExtend cmd) := fun _ _ h _ => nomatch h
theorem attestationReport (cmd : BitVec 64) : Statement (.attestationReport cmd) := fun _ _ h _ => nomatch h
theorem ctxCreate (ctx : Fin 64) : Statement (.ctxCreate ctx) := fun _ _ h _ => nomatch h
theorem ctxRelease (ctx : Fin 64) : Statement (.ctxRelease ctx) := fun _ _ h _ => nomatch h
theorem corectxWrite (core : Fin 384) (val : BitVec 64) : Statement (.corectxWrite core val) := fun _ _ h _ => nomatch h
theorem auditAppend (event : BitVec 16) (tug : Bool) : Statement (.auditAppend event tug) := fun _ _ h _ => nomatch h
theorem auditSpill : Statement (.auditSpill) := fun _ _ h _ => nomatch h
theorem doorbellWrite (q : Fin 1024) (val : BitVec 64) (func : Nat) : Statement (.doorbellWrite q val func) := fun _ _ h _ => nomatch h
theorem runListWrite (q : Fin 1024) (val : BitVec 64) : Statement (.runListWrite q val) := fun _ _ h _ => nomatch h
theorem map (slot : Fin 128) (q : Fin 1024) : Statement (.map slot q) := fun _ _ h _ => nomatch h
theorem unmapSuspend (slot : Fin 128) : Statement (.unmapSuspend slot) := fun _ _ h _ => nomatch h
theorem unmapDestroy (slot : Fin 128) : Statement (.unmapDestroy slot) := fun _ _ h _ => nomatch h
theorem queueDestroyed (q : Fin 1024) : Statement (.queueDestroyed q) := fun _ _ h _ => nomatch h
theorem switch (slot : Fin 128) (q : Fin 1024) : Statement (.switch slot q) := fun _ _ h _ => nomatch h
theorem pooltailWrite (ctx : Fin 64) (val : Word) : Statement (.pooltailWrite ctx val) := fun _ _ h _ => nomatch h
theorem registerWrite (addr : BitVec 48) (size : Nat) (val : BitVec 64) : Statement (.registerWrite addr size val) := fun _ _ h _ => nomatch h
theorem debugAttach : Statement (.debugAttach) := fun _ _ h _ => nomatch h
theorem debugDetach : Statement (.debugDetach) := fun _ _ h _ => nomatch h
theorem debugStop : Statement (.debugStop) := fun _ _ h _ => nomatch h
theorem debugResume : Statement (.debugResume) := fun _ _ h _ => nomatch h
theorem debugStep : Statement (.debugStep) := fun _ _ h _ => nomatch h
theorem debugRead : Statement (.debugRead) := fun _ _ h _ => nomatch h
theorem debugWrite : Statement (.debugWrite) := fun _ _ h _ => nomatch h
theorem launchPacket (q : Fin 1024) : Statement (.launchPacket q) := fun _ _ h _ => nomatch h
theorem barrierPacket (q : Fin 1024) : Statement (.barrierPacket q) := fun _ _ h _ => nomatch h
theorem barrierEvaluation (q : Fin 1024) : Statement (.barrierEvaluation q) := fun _ _ h _ => nomatch h
theorem signalPacket (q : Fin 1024) : Statement (.signalPacket q) := fun _ _ h _ => nomatch h
theorem copyPacket (q : Fin 1024) : Statement (.copyPacket q) := fun _ _ h _ => nomatch h
theorem copyComplete (q : Fin 1024) (index : BitVec 64) : Statement (.copyComplete q index) := fun _ _ h _ => nomatch h
theorem predPacket (q : Fin 1024) : Statement (.predPacket q) := fun _ _ h _ => nomatch h
theorem invalPacket (q : Fin 1024) : Statement (.invalPacket q) := fun _ _ h _ => nomatch h
theorem markerPacket (q : Fin 1024) : Statement (.markerPacket q) := fun _ _ h _ => nomatch h
theorem nopPacket (q : Fin 1024) : Statement (.nopPacket q) := fun _ _ h _ => nomatch h
theorem watchdogT1 (team : TeamRef) : Statement (.watchdogT1 team) := fun _ _ h _ => nomatch h
theorem watchdogT2 (team : TeamRef) : Statement (.watchdogT2 team) := fun _ _ h _ => nomatch h
theorem watchdogT3 (team : TeamRef) : Statement (.watchdogT3 team) := fun _ _ h _ => nomatch h
theorem pilotSchedulingRound (plan : List Assignment) : Statement (.pilotSchedulingRound plan) := fun _ _ h _ => nomatch h
theorem tugClaim (core : Fin 384) (placement : Placement) : Statement (.tugClaim core placement) := fun _ _ h _ => nomatch h
theorem eviction (team : TeamRef) : Statement (.eviction team) := fun _ _ h _ => nomatch h
theorem haltDelivery (group : GroupRef) : Statement (.haltDelivery group) := fun _ _ h _ => nomatch h
theorem teamKill (team : TeamRef) : Statement (.teamKill team) := fun _ _ h _ => nomatch h
theorem runLimit (group : GroupRef) : Statement (.runLimit group) := fun _ _ h _ => nomatch h
theorem transparentSwap (group : GroupRef) : Statement (.transparentSwap group) := fun _ _ h _ => nomatch h
theorem loadReturn (group : GroupRef) (id : Nat) : Statement (.loadReturn group id) := fun _ _ h _ => nomatch h
theorem storePerform (core : Fin 384) (id : Nat) : Statement (.storePerform core id) := fun _ _ h _ => nomatch h
theorem stackWriteback (group : GroupRef) (offset : Nat) (refill : Bool) : Statement (.stackWriteback group offset refill) := fun _ _ h _ => nomatch h
theorem instructionFetch (group : GroupRef) : Statement (.instructionFetch group) := fun _ _ h _ => nomatch h
theorem sleepExpiry (group : GroupRef) : Statement (.sleepExpiry group) := fun _ _ h _ => nomatch h
theorem pageWalkComplete (core : Fin 384) (ctx : Fin 64) (va : BitVec 64) : Statement (.pageWalkComplete core ctx va) := fun _ _ h _ => nomatch h
theorem hostPageResponse (ctx : Fin 64) (page : BitVec 64) (mapped : Bool) : Statement (.hostPageResponse ctx page mapped) := fun _ _ h _ => nomatch h
theorem atsCompletion (ctx : Fin 64) (page : BitVec 64) (r w : Bool) : Statement (.atsCompletion ctx page r w) := fun _ _ h _ => nomatch h
theorem priResponse (ctx : Fin 64) (page : BitVec 64) (ok : Bool) : Statement (.priResponse ctx page ok) := fun _ _ h _ => nomatch h
theorem atsInvalidateRequest (ctx : Fin 64) (page : BitVec 64) : Statement (.atsInvalidateRequest ctx page) := fun _ _ h _ => nomatch h
theorem shootdownComplete (id : Nat) : Statement (.shootdownComplete id) := fun _ _ h _ => nomatch h
theorem hostBar2Access (addr : BitVec 48) (access : OutsideAccess) : Statement (.hostBar2Access addr access) := fun _ _ h _ => nomatch h
theorem remoteAccess (ctx : Fin 64) (va : BitVec 64) (access : OutsideAccess) : Statement (.remoteAccess ctx va access) := fun _ _ h _ => nomatch h
theorem linkDown (link : Fin 18) : Statement (.linkDown link) := fun _ _ h _ => nomatch h
theorem gateEntry (core : Fin 384) : Statement (.gateEntry core) := fun _ _ h _ => nomatch h
theorem gateWakeComplete (core : Fin 384) : Statement (.gateWakeComplete core) := fun _ _ h _ => nomatch h
theorem governorWindow (core : Fin 384) : Statement (.governorWindow core) := fun _ _ h _ => nomatch h
theorem craneCommandBegin (core : Fin 384) (cq : Fin 4) : Statement (.craneCommandBegin core cq) := fun _ _ h _ => nomatch h
theorem craneCommandComplete (core : Fin 384) (cq : Fin 4) : Statement (.craneCommandComplete core cq) := fun _ _ h _ => nomatch h
theorem chainCopy (core : Fin 384) (cq : Fin 4) : Statement (.chainCopy core cq) := fun _ _ h _ => nomatch h
theorem chainLoop (core : Fin 384) (cq : Fin 4) : Statement (.chainLoop core cq) := fun _ _ h _ => nomatch h
theorem chainIfcnt (core : Fin 384) (cq : Fin 4) : Statement (.chainIfcnt core cq) := fun _ _ h _ => nomatch h
theorem chainSignal (core : Fin 384) (cq : Fin 4) : Statement (.chainSignal core cq) := fun _ _ h _ => nomatch h
theorem chainFence (core : Fin 384) (cq : Fin 4) : Statement (.chainFence core cq) := fun _ _ h _ => nomatch h
theorem chainEnd (core : Fin 384) (cq : Fin 4) : Statement (.chainEnd core cq) := fun _ _ h _ => nomatch h
theorem mmaFire (core : Fin 384) : Statement (.mmaFire core) := fun _ _ h _ => nomatch h
theorem arrayPhaseEnd (core : Fin 384) : Statement (.arrayPhaseEnd core) := fun _ _ h _ => nomatch h
theorem matrixCommandComplete (core : Fin 384) : Statement (.matrixCommandComplete core) := fun _ _ h _ => nomatch h
theorem drainStart (core : Fin 384) : Statement (.drainStart core) := fun _ _ h _ => nomatch h
theorem drainConstantLoad (core : Fin 384) : Statement (.drainConstantLoad core) := fun _ _ h _ => nomatch h
theorem drainRowStore (core : Fin 384) : Statement (.drainRowStore core) := fun _ _ h _ => nomatch h
theorem drainComplete (core : Fin 384) : Statement (.drainComplete core) := fun _ _ h _ => nomatch h
theorem surrogateDecision (core : Fin 384) : Statement (.surrogateDecision core) := fun _ _ h _ => nomatch h
theorem srgLoadComplete (core : Fin 384) : Statement (.srgLoadComplete core) := fun _ _ h _ => nomatch h
theorem recoveryGroupFormation (core : Fin 384) : Statement (.recoveryGroupFormation core) := fun _ _ h _ => nomatch h
theorem surrogateDisableArrival (core : Fin 384) (id : Fin 256) (enabled : Bool) (gen : Word) : Statement (.surrogateDisableArrival core id enabled gen) := fun _ _ h _ => nomatch h
theorem liftEntryArrival (core : Fin 384) : Statement (.liftEntryArrival core) := fun _ _ h _ => nomatch h
theorem liftBulkEntry (core : Fin 384) : Statement (.liftBulkEntry core) := fun _ _ h _ => nomatch h
theorem illegalInstruction (words : List Word) : Statement (.illegalInstruction words) := fun _ _ h _ => nomatch h
theorem linkUp (link : Fin 18) (peer : BitVec 16) : Statement (.linkUp link peer) := fun _ _ h _ => nomatch h
theorem uncorrectableError (where_ : ErrorPlace) : Statement (.uncorrectableError where_) := fun _ _ h _ => nomatch h
theorem nopShort (f : ShortFields) : Statement (.nopShort f) := fun _ _ h _ => by cases h; rfl
theorem nopLong (f : LongFields) : Statement (.nopLong f) := fun _ _ h _ => by cases h; rfl
theorem braShort (f : ShortFields) : Statement (.braShort f) := fun _ _ h _ => by cases h; rfl
theorem braLong (f : LongFields) : Statement (.braLong f) := fun _ _ h _ => by cases h; rfl
theorem brxShort (f : ShortFields) : Statement (.brxShort f) := fun _ _ h _ => by cases h; rfl
theorem brxLong (f : LongFields) : Statement (.brxLong f) := fun _ _ h _ => by cases h; rfl
theorem callShort (f : ShortFields) : Statement (.callShort f) := fun _ _ h _ => by cases h; rfl
theorem callLong (f : LongFields) : Statement (.callLong f) := fun _ _ h _ => by cases h; rfl
theorem retShort (f : ShortFields) : Statement (.retShort f) := fun _ _ h _ => by cases h; rfl
theorem retLong (f : LongFields) : Statement (.retLong f) := fun _ _ h _ => by cases h; rfl
theorem banyShort (f : ShortFields) : Statement (.banyShort f) := fun _ _ h _ => by cases h; rfl
theorem banyLong (f : LongFields) : Statement (.banyLong f) := fun _ _ h _ => by cases h; rfl
theorem ballShort (f : ShortFields) : Statement (.ballShort f) := fun _ _ h _ => by cases h; rfl
theorem ballLong (f : LongFields) : Statement (.ballLong f) := fun _ _ h _ => by cases h; rfl
theorem bnoneShort (f : ShortFields) : Statement (.bnoneShort f) := fun _ _ h _ => by cases h; rfl
theorem bnoneLong (f : LongFields) : Statement (.bnoneLong f) := fun _ _ h _ => by cases h; rfl
theorem emsetShort (f : ShortFields) : Statement (.emsetShort f) := fun _ _ h _ => by cases h; rfl
theorem emsetLong (f : LongFields) : Statement (.emsetLong f) := fun _ _ h _ => by cases h; rfl
theorem emandShort (f : ShortFields) : Statement (.emandShort f) := fun _ _ h _ => by cases h; rfl
theorem emandLong (f : LongFields) : Statement (.emandLong f) := fun _ _ h _ => by cases h; rfl
theorem emorShort (f : ShortFields) : Statement (.emorShort f) := fun _ _ h _ => by cases h; rfl
theorem emorLong (f : LongFields) : Statement (.emorLong f) := fun _ _ h _ => by cases h; rfl
theorem emnotShort (f : ShortFields) : Statement (.emnotShort f) := fun _ _ h _ => by cases h; rfl
theorem emnotLong (f : LongFields) : Statement (.emnotLong f) := fun _ _ h _ => by cases h; rfl
theorem yieldShort (f : ShortFields) : Statement (.yieldShort f) := fun _ _ h _ => by cases h; rfl
theorem yieldLong (f : LongFields) : Statement (.yieldLong f) := fun _ _ h _ => by cases h; rfl
theorem barShort (f : ShortFields) : Statement (.barShort f) := fun _ _ h _ => by cases h; rfl
theorem barLong (f : LongFields) : Statement (.barLong f) := fun _ _ h _ => by cases h; rfl
theorem barArriveShort (f : ShortFields) : Statement (.barArriveShort f) := fun _ _ h _ => by cases h; rfl
theorem barArriveLong (f : LongFields) : Statement (.barArriveLong f) := fun _ _ h _ => by cases h; rfl
theorem barWaitShort (f : ShortFields) : Statement (.barWaitShort f) := fun _ _ h _ => by cases h; rfl
theorem barWaitLong (f : LongFields) : Statement (.barWaitLong f) := fun _ _ h _ => by cases h; rfl
theorem waitbAllShort (f : ShortFields) : Statement (.waitbAllShort f) := fun _ _ h _ => by cases h; rfl
theorem waitbAllLong (f : LongFields) : Statement (.waitbAllLong f) := fun _ _ h _ => by cases h; rfl
theorem waitbAnyShort (f : ShortFields) : Statement (.waitbAnyShort f) := fun _ _ h _ => by cases h; rfl
theorem waitbAnyLong (f : LongFields) : Statement (.waitbAnyLong f) := fun _ _ h _ => by cases h; rfl
theorem ffbShort (f : ShortFields) : Statement (.ffbShort f) := fun _ _ h _ => by cases h; rfl
theorem ffbLong (f : LongFields) : Statement (.ffbLong f) := fun _ _ h _ => by cases h; rfl
theorem bclrShort (f : ShortFields) : Statement (.bclrShort f) := fun _ _ h _ => by cases h; rfl
theorem bclrLong (f : LongFields) : Statement (.bclrLong f) := fun _ _ h _ => by cases h; rfl
theorem trapShort (f : ShortFields) : Statement (.trapShort f) := fun _ _ h _ => by cases h; rfl
theorem trapLong (f : LongFields) : Statement (.trapLong f) := fun _ _ h _ => by cases h; rfl
theorem tretShort (f : ShortFields) : Statement (.tretShort f) := fun _ _ h _ => by cases h; rfl
theorem tretLong (f : LongFields) : Statement (.tretLong f) := fun _ _ h hs => by
  simp [Instr.subOk] at hs; obtain ⟨rfl, rfl⟩ := Prod.mk.inj (Option.some.inj h); simp [Op.build, Op.long, hs]
theorem tretKill (f : LongFields) : Statement (.tretKill f) := fun _ _ h hs => by
  simp [Instr.subOk] at hs; obtain ⟨rfl, rfl⟩ := Prod.mk.inj (Option.some.inj h); simp [Op.build, Op.long, hs]
theorem svcShort (f : ShortFields) : Statement (.svcShort f) := fun _ _ h _ => by cases h; rfl
theorem svcLong (f : LongFields) : Statement (.svcLong f) := fun _ _ h _ => by cases h; rfl
theorem exitShort (f : ShortFields) : Statement (.exitShort f) := fun _ _ h _ => by cases h; rfl
theorem exitLong (f : LongFields) : Statement (.exitLong f) := fun _ _ h _ => by cases h; rfl
theorem sleepShort (f : ShortFields) : Statement (.sleepShort f) := fun _ _ h _ => by cases h; rfl
theorem sleepLong (f : LongFields) : Statement (.sleepLong f) := fun _ _ h _ => by cases h; rfl
theorem msrShort (f : ShortFields) : Statement (.msrShort f) := fun _ _ h _ => by cases h; rfl
theorem msrLong (f : LongFields) : Statement (.msrLong f) := fun _ _ h _ => by cases h; rfl
theorem mrsShort (f : ShortFields) : Statement (.mrsShort f) := fun _ _ h _ => by cases h; rfl
theorem mrsLong (f : LongFields) : Statement (.mrsLong f) := fun _ _ h _ => by cases h; rfl
theorem brkShort (f : ShortFields) : Statement (.brkShort f) := fun _ _ h _ => by cases h; rfl
theorem brkLong (f : LongFields) : Statement (.brkLong f) := fun _ _ h _ => by cases h; rfl
theorem movShort (f : ShortFields) : Statement (.movShort f) := fun _ _ h _ => by cases h; rfl
theorem movLong (f : LongFields) : Statement (.movLong f) := fun _ _ h _ => by cases h; rfl
theorem movxShort (f : ShortFields) : Statement (.movxShort f) := fun _ _ h _ => by cases h; rfl
theorem movxLong (f : LongFields) : Statement (.movxLong f) := fun _ _ h _ => by cases h; rfl
theorem movxwShort (f : ShortFields) : Statement (.movxwShort f) := fun _ _ h _ => by cases h; rfl
theorem movxwLong (f : LongFields) : Statement (.movxwLong f) := fun _ _ h _ => by cases h; rfl
theorem xredShort (f : ShortFields) : Statement (.xredShort f) := fun _ _ h _ => by cases h; rfl
theorem xredLong (f : LongFields) : Statement (.xredLong f) := fun _ _ h _ => by cases h; rfl
theorem xscanShort (f : ShortFields) : Statement (.xscanShort f) := fun _ _ h _ => by cases h; rfl
theorem xscanLong (f : LongFields) : Statement (.xscanLong f) := fun _ _ h _ => by cases h; rfl
theorem xshfShort (f : ShortFields) : Statement (.xshfShort f) := fun _ _ h _ => by cases h; rfl
theorem xshfLong (f : LongFields) : Statement (.xshfLong f) := fun _ _ h _ => by cases h; rfl
theorem xbalShort (f : ShortFields) : Statement (.xbalShort f) := fun _ _ h _ => by cases h; rfl
theorem xbalLong (f : LongFields) : Statement (.xbalLong f) := fun _ _ h _ => by cases h; rfl
theorem xreadShort (f : ShortFields) : Statement (.xreadShort f) := fun _ _ h _ => by cases h; rfl
theorem xreadLong (f : LongFields) : Statement (.xreadLong f) := fun _ _ h _ => by cases h; rfl
theorem killShort (f : ShortFields) : Statement (.killShort f) := fun _ _ h _ => by cases h; rfl
theorem killLong (f : LongFields) : Statement (.killLong f) := fun _ _ h _ => by cases h; rfl
theorem footShort (f : ShortFields) : Statement (.footShort f) := fun _ _ h _ => by cases h; rfl
theorem footLong (f : LongFields) : Statement (.footLong f) := fun _ _ h _ => by cases h; rfl
theorem xwriteShort (f : ShortFields) : Statement (.xwriteShort f) := fun _ _ h _ => by cases h; rfl
theorem xwriteLong (f : LongFields) : Statement (.xwriteLong f) := fun _ _ h _ => by cases h; rfl
theorem movpShort (f : ShortFields) : Statement (.movpShort f) := fun _ _ h _ => by cases h; rfl
theorem movpLong (f : LongFields) : Statement (.movpLong f) := fun _ _ h _ => by cases h; rfl
theorem xmatchShort (f : ShortFields) : Statement (.xmatchShort f) := fun _ _ h _ => by cases h; rfl
theorem xmatchLong (f : LongFields) : Statement (.xmatchLong f) := fun _ _ h _ => by cases h; rfl
theorem xrotShort (f : ShortFields) : Statement (.xrotShort f) := fun _ _ h _ => by cases h; rfl
theorem xrotLong (f : LongFields) : Statement (.xrotLong f) := fun _ _ h _ => by cases h; rfl
theorem xfirstShort (f : ShortFields) : Statement (.xfirstShort f) := fun _ _ h _ => by cases h; rfl
theorem xfirstLong (f : LongFields) : Statement (.xfirstLong f) := fun _ _ h _ => by cases h; rfl
theorem movwShort (f : ShortFields) : Statement (.movwShort f) := fun _ _ h _ => by cases h; rfl
theorem movwLong (f : LongFields) : Statement (.movwLong f) := fun _ _ h _ => by cases h; rfl
theorem iaddShort (f : ShortFields) : Statement (.iaddShort f) := fun _ _ h _ => by cases h; rfl
theorem iaddLong (f : LongFields) : Statement (.iaddLong f) := fun _ _ h _ => by cases h; rfl
theorem isubShort (f : ShortFields) : Statement (.isubShort f) := fun _ _ h _ => by cases h; rfl
theorem isubLong (f : LongFields) : Statement (.isubLong f) := fun _ _ h _ => by cases h; rfl
theorem imulShort (f : ShortFields) : Statement (.imulShort f) := fun _ _ h _ => by cases h; rfl
theorem imulLong (f : LongFields) : Statement (.imulLong f) := fun _ _ h _ => by cases h; rfl
theorem imadShort (f : ShortFields) : Statement (.imadShort f) := fun _ _ h _ => by cases h; rfl
theorem imadLong (f : LongFields) : Statement (.imadLong f) := fun _ _ h _ => by cases h; rfl
theorem iminShort (f : ShortFields) : Statement (.iminShort f) := fun _ _ h _ => by cases h; rfl
theorem iminLong (f : LongFields) : Statement (.iminLong f) := fun _ _ h _ => by cases h; rfl
theorem imaxShort (f : ShortFields) : Statement (.imaxShort f) := fun _ _ h _ => by cases h; rfl
theorem imaxLong (f : LongFields) : Statement (.imaxLong f) := fun _ _ h _ => by cases h; rfl
theorem iabsShort (f : ShortFields) : Statement (.iabsShort f) := fun _ _ h _ => by cases h; rfl
theorem iabsLong (f : LongFields) : Statement (.iabsLong f) := fun _ _ h _ => by cases h; rfl
theorem inegShort (f : ShortFields) : Statement (.inegShort f) := fun _ _ h _ => by cases h; rfl
theorem inegLong (f : LongFields) : Statement (.inegLong f) := fun _ _ h _ => by cases h; rfl
theorem andShort (f : ShortFields) : Statement (.andShort f) := fun _ _ h _ => by cases h; rfl
theorem andLong (f : LongFields) : Statement (.andLong f) := fun _ _ h _ => by cases h; rfl
theorem orShort (f : ShortFields) : Statement (.orShort f) := fun _ _ h _ => by cases h; rfl
theorem orLong (f : LongFields) : Statement (.orLong f) := fun _ _ h _ => by cases h; rfl
theorem xorShort (f : ShortFields) : Statement (.xorShort f) := fun _ _ h _ => by cases h; rfl
theorem xorLong (f : LongFields) : Statement (.xorLong f) := fun _ _ h _ => by cases h; rfl
theorem notShort (f : ShortFields) : Statement (.notShort f) := fun _ _ h _ => by cases h; rfl
theorem notLong (f : LongFields) : Statement (.notLong f) := fun _ _ h _ => by cases h; rfl
theorem shlShort (f : ShortFields) : Statement (.shlShort f) := fun _ _ h _ => by cases h; rfl
theorem shlLong (f : LongFields) : Statement (.shlLong f) := fun _ _ h _ => by cases h; rfl
theorem shrShort (f : ShortFields) : Statement (.shrShort f) := fun _ _ h _ => by cases h; rfl
theorem shrLong (f : LongFields) : Statement (.shrLong f) := fun _ _ h _ => by cases h; rfl
theorem sarShort (f : ShortFields) : Statement (.sarShort f) := fun _ _ h _ => by cases h; rfl
theorem sarLong (f : LongFields) : Statement (.sarLong f) := fun _ _ h _ => by cases h; rfl
theorem rotShort (f : ShortFields) : Statement (.rotShort f) := fun _ _ h _ => by cases h; rfl
theorem rotLong (f : LongFields) : Statement (.rotLong f) := fun _ _ h _ => by cases h; rfl
theorem bfeShort (f : ShortFields) : Statement (.bfeShort f) := fun _ _ h _ => by cases h; rfl
theorem bfeLong (f : LongFields) : Statement (.bfeLong f) := fun _ _ h _ => by cases h; rfl
theorem bfiShort (f : ShortFields) : Statement (.bfiShort f) := fun _ _ h _ => by cases h; rfl
theorem bfiLong (f : LongFields) : Statement (.bfiLong f) := fun _ _ h _ => by cases h; rfl
theorem popcShort (f : ShortFields) : Statement (.popcShort f) := fun _ _ h _ => by cases h; rfl
theorem popcLong (f : LongFields) : Statement (.popcLong f) := fun _ _ h _ => by cases h; rfl
theorem clzShort (f : ShortFields) : Statement (.clzShort f) := fun _ _ h _ => by cases h; rfl
theorem clzLong (f : LongFields) : Statement (.clzLong f) := fun _ _ h _ => by cases h; rfl
theorem brevShort (f : ShortFields) : Statement (.brevShort f) := fun _ _ h _ => by cases h; rfl
theorem brevLong (f : LongFields) : Statement (.brevLong f) := fun _ _ h _ => by cases h; rfl
theorem icmpShort (f : ShortFields) : Statement (.icmpShort f) := fun _ _ h _ => by cases h; rfl
theorem icmpLong (f : LongFields) : Statement (.icmpLong f) := fun _ _ h _ => by cases h; rfl
theorem faddShort (f : ShortFields) : Statement (.faddShort f) := fun _ _ h _ => by cases h; rfl
theorem faddLong (f : LongFields) : Statement (.faddLong f) := fun _ _ h _ => by cases h; rfl
theorem fsubShort (f : ShortFields) : Statement (.fsubShort f) := fun _ _ h _ => by cases h; rfl
theorem fsubLong (f : LongFields) : Statement (.fsubLong f) := fun _ _ h _ => by cases h; rfl
theorem fmulShort (f : ShortFields) : Statement (.fmulShort f) := fun _ _ h _ => by cases h; rfl
theorem fmulLong (f : LongFields) : Statement (.fmulLong f) := fun _ _ h _ => by cases h; rfl
theorem ffmaShort (f : ShortFields) : Statement (.ffmaShort f) := fun _ _ h _ => by cases h; rfl
theorem ffmaLong (f : LongFields) : Statement (.ffmaLong f) := fun _ _ h _ => by cases h; rfl
theorem fminShort (f : ShortFields) : Statement (.fminShort f) := fun _ _ h _ => by cases h; rfl
theorem fminLong (f : LongFields) : Statement (.fminLong f) := fun _ _ h _ => by cases h; rfl
theorem fmaxShort (f : ShortFields) : Statement (.fmaxShort f) := fun _ _ h _ => by cases h; rfl
theorem fmaxLong (f : LongFields) : Statement (.fmaxLong f) := fun _ _ h _ => by cases h; rfl
theorem frcpShort (f : ShortFields) : Statement (.frcpShort f) := fun _ _ h _ => by cases h; rfl
theorem frcpLong (f : LongFields) : Statement (.frcpLong f) := fun _ _ h _ => by cases h; rfl
theorem frsqShort (f : ShortFields) : Statement (.frsqShort f) := fun _ _ h _ => by cases h; rfl
theorem frsqLong (f : LongFields) : Statement (.frsqLong f) := fun _ _ h _ => by cases h; rfl
theorem fsqrtShort (f : ShortFields) : Statement (.fsqrtShort f) := fun _ _ h _ => by cases h; rfl
theorem fsqrtLong (f : LongFields) : Statement (.fsqrtLong f) := fun _ _ h _ => by cases h; rfl
theorem fdivShort (f : ShortFields) : Statement (.fdivShort f) := fun _ _ h _ => by cases h; rfl
theorem fdivLong (f : LongFields) : Statement (.fdivLong f) := fun _ _ h _ => by cases h; rfl
theorem fexp2Short (f : ShortFields) : Statement (.fexp2Short f) := fun _ _ h _ => by cases h; rfl
theorem fexp2Long (f : LongFields) : Statement (.fexp2Long f) := fun _ _ h _ => by cases h; rfl
theorem flog2Short (f : ShortFields) : Statement (.flog2Short f) := fun _ _ h _ => by cases h; rfl
theorem flog2Long (f : LongFields) : Statement (.flog2Long f) := fun _ _ h _ => by cases h; rfl
theorem fsinShort (f : ShortFields) : Statement (.fsinShort f) := fun _ _ h _ => by cases h; rfl
theorem fsinLong (f : LongFields) : Statement (.fsinLong f) := fun _ _ h _ => by cases h; rfl
theorem fcosShort (f : ShortFields) : Statement (.fcosShort f) := fun _ _ h _ => by cases h; rfl
theorem fcosLong (f : LongFields) : Statement (.fcosLong f) := fun _ _ h _ => by cases h; rfl
theorem frndShort (f : ShortFields) : Statement (.frndShort f) := fun _ _ h _ => by cases h; rfl
theorem frndLong (f : LongFields) : Statement (.frndLong f) := fun _ _ h _ => by cases h; rfl
theorem fcmpShort (f : ShortFields) : Statement (.fcmpShort f) := fun _ _ h _ => by cases h; rfl
theorem fcmpLong (f : LongFields) : Statement (.fcmpLong f) := fun _ _ h _ => by cases h; rfl
theorem fclassShort (f : ShortFields) : Statement (.fclassShort f) := fun _ _ h _ => by cases h; rfl
theorem fclassLong (f : LongFields) : Statement (.fclassLong f) := fun _ _ h _ => by cases h; rfl
theorem fabsShort (f : ShortFields) : Statement (.fabsShort f) := fun _ _ h _ => by cases h; rfl
theorem fabsLong (f : LongFields) : Statement (.fabsLong f) := fun _ _ h _ => by cases h; rfl
theorem fnegShort (f : ShortFields) : Statement (.fnegShort f) := fun _ _ h _ => by cases h; rfl
theorem fnegLong (f : LongFields) : Statement (.fnegLong f) := fun _ _ h _ => by cases h; rfl
theorem fscaleShort (f : ShortFields) : Statement (.fscaleShort f) := fun _ _ h _ => by cases h; rfl
theorem fscaleLong (f : LongFields) : Statement (.fscaleLong f) := fun _ _ h _ => by cases h; rfl
theorem cvtShort (f : ShortFields) : Statement (.cvtShort f) := fun _ _ h _ => by cases h; rfl
theorem cvtLong (f : LongFields) : Statement (.cvtLong f) := fun _ _ h _ => by cases h; rfl
theorem cvtBfx (f : LongFields) : Statement (.cvtBfx f) := fun _ _ h _ => by cases h; rfl
theorem cvttShort (f : ShortFields) : Statement (.cvttShort f) := fun _ _ h _ => by cases h; rfl
theorem cvttLong (f : LongFields) : Statement (.cvttLong f) := fun _ _ h _ => by cases h; rfl
theorem hadd2Short (f : ShortFields) : Statement (.hadd2Short f) := fun _ _ h _ => by cases h; rfl
theorem hadd2Long (f : LongFields) : Statement (.hadd2Long f) := fun _ _ h _ => by cases h; rfl
theorem hmul2Short (f : ShortFields) : Statement (.hmul2Short f) := fun _ _ h _ => by cases h; rfl
theorem hmul2Long (f : LongFields) : Statement (.hmul2Long f) := fun _ _ h _ => by cases h; rfl
theorem hfma2Short (f : ShortFields) : Statement (.hfma2Short f) := fun _ _ h _ => by cases h; rfl
theorem hfma2Long (f : LongFields) : Statement (.hfma2Long f) := fun _ _ h _ => by cases h; rfl
theorem hmin2Short (f : ShortFields) : Statement (.hmin2Short f) := fun _ _ h _ => by cases h; rfl
theorem hmin2Long (f : LongFields) : Statement (.hmin2Long f) := fun _ _ h _ => by cases h; rfl
theorem hmax2Short (f : ShortFields) : Statement (.hmax2Short f) := fun _ _ h _ => by cases h; rfl
theorem hmax2Long (f : LongFields) : Statement (.hmax2Long f) := fun _ _ h _ => by cases h; rfl
theorem dot2Short (f : ShortFields) : Statement (.dot2Short f) := fun _ _ h _ => by cases h; rfl
theorem dot2Long (f : LongFields) : Statement (.dot2Long f) := fun _ _ h _ => by cases h; rfl
theorem dot4Short (f : ShortFields) : Statement (.dot4Short f) := fun _ _ h _ => by cases h; rfl
theorem dot4Long (f : LongFields) : Statement (.dot4Long f) := fun _ _ h _ => by cases h; rfl
theorem selShort (f : ShortFields) : Statement (.selShort f) := fun _ _ h _ => by cases h; rfl
theorem selLong (f : LongFields) : Statement (.selLong f) := fun _ _ h _ => by cases h; rfl
theorem fpstClearShort (f : ShortFields) : Statement (.fpstClearShort f) := fun _ _ h _ => by cases h; rfl
theorem fpstClearLong (f : LongFields) : Statement (.fpstClearLong f) := fun _ _ h _ => by cases h; rfl
theorem bpermShort (f : ShortFields) : Statement (.bpermShort f) := fun _ _ h _ => by cases h; rfl
theorem bpermLong (f : LongFields) : Statement (.bpermLong f) := fun _ _ h _ => by cases h; rfl
theorem bool3Short (f : ShortFields) : Statement (.bool3Short f) := fun _ _ h _ => by cases h; rfl
theorem bool3Long (f : LongFields) : Statement (.bool3Long f) := fun _ _ h _ => by cases h; rfl
theorem isadShort (f : ShortFields) : Statement (.isadShort f) := fun _ _ h _ => by cases h; rfl
theorem isadLong (f : LongFields) : Statement (.isadLong f) := fun _ _ h _ => by cases h; rfl
theorem iclampShort (f : ShortFields) : Statement (.iclampShort f) := fun _ _ h _ => by cases h; rfl
theorem iclampLong (f : LongFields) : Statement (.iclampLong f) := fun _ _ h _ => by cases h; rfl
theorem fclampShort (f : ShortFields) : Statement (.fclampShort f) := fun _ _ h _ => by cases h; rfl
theorem fclampLong (f : LongFields) : Statement (.fclampLong f) := fun _ _ h _ => by cases h; rfl
theorem ldShort (f : ShortFields) : Statement (.ldShort f) := fun _ _ h _ => by cases h; rfl
theorem ldLong (f : LongFields) : Statement (.ldLong f) := fun _ _ h _ => by cases h; rfl
theorem ldsShort (f : ShortFields) : Statement (.ldsShort f) := fun _ _ h _ => by cases h; rfl
theorem ldsLong (f : LongFields) : Statement (.ldsLong f) := fun _ _ h _ => by cases h; rfl
theorem lduShort (f : ShortFields) : Statement (.lduShort f) := fun _ _ h _ => by cases h; rfl
theorem lduLong (f : LongFields) : Statement (.lduLong f) := fun _ _ h _ => by cases h; rfl
theorem st (f : LongFields) : Statement (.st f) := fun _ _ h _ => by cases h; rfl
theorem sts (f : LongFields) : Statement (.sts f) := fun _ _ h _ => by cases h; rfl
theorem ldw (f : LongFields) : Statement (.ldw f) := fun _ _ h _ => by cases h; rfl
theorem stw (f : LongFields) : Statement (.stw f) := fun _ _ h _ => by cases h; rfl
theorem atom (f : LongFields) : Statement (.atom f) := fun _ _ h _ => by cases h; rfl
theorem atoms (f : LongFields) : Statement (.atoms f) := fun _ _ h _ => by cases h; rfl
theorem red (f : LongFields) : Statement (.red f) := fun _ _ h _ => by cases h; rfl
theorem reds (f : LongFields) : Statement (.reds f) := fun _ _ h _ => by cases h; rfl
theorem fence (f : LongFields) : Statement (.fence f) := fun _ _ h _ => by cases h; rfl
theorem pref (f : LongFields) : Statement (.pref f) := fun _ _ h _ => by cases h; rfl
theorem frameEnter (f : LongFields) : Statement (.frameEnter f) := fun _ _ h _ => by cases h; rfl
theorem frameLeave (f : LongFields) : Statement (.frameLeave f) := fun _ _ h _ => by cases h; rfl
theorem icinv (f : LongFields) : Statement (.icinv f) := fun _ _ h _ => by cases h; rfl
theorem cctl (f : LongFields) : Statement (.cctl f) := fun _ _ h _ => by cases h; rfl
theorem ldl (f : LongFields) : Statement (.ldl f) := fun _ _ h _ => by cases h; rfl
theorem stl (f : LongFields) : Statement (.stl f) := fun _ _ h _ => by cases h; rfl
theorem stm (f : LongFields) : Statement (.stm f) := fun _ _ h _ => by cases h; rfl
theorem crnLd (f : LongFields) : Statement (.crnLd f) := fun _ _ h _ => by cases h; rfl
theorem crnSt (f : LongFields) : Statement (.crnSt f) := fun _ _ h _ => by cases h; rfl
theorem crnCp (f : LongFields) : Statement (.crnCp f) := fun _ _ h _ => by cases h; rfl
theorem crnSet (f : LongFields) : Statement (.crnSet f) := fun _ _ h _ => by cases h; rfl
theorem crnGather (f : LongFields) : Statement (.crnGather f) := fun _ _ h _ => by cases h; rfl
theorem crnChain (f : LongFields) : Statement (.crnChain f) := fun _ _ h _ => by cases h; rfl
theorem crnFence (f : LongFields) : Statement (.crnFence f) := fun _ _ h _ => by cases h; rfl
theorem crnMode (f : LongFields) : Statement (.crnMode f) := fun _ _ h _ => by cases h; rfl
theorem ringDecl (f : LongFields) : Statement (.ringDecl f) := fun _ _ h _ => by cases h; rfl
theorem ringAdv (f : LongFields) : Statement (.ringAdv f) := fun _ _ h _ => by cases h; rfl
theorem ringStat (f : LongFields) : Statement (.ringStat f) := fun _ _ h _ => by cases h; rfl
theorem mxbTake (f : LongFields) : Statement (.mxbTake f) := fun _ _ h hs => by
  simp [Instr.subOk] at hs; obtain ⟨rfl, rfl⟩ := Prod.mk.inj (Option.some.inj h); simp [Op.build, Op.long, hs]
theorem mxbPass (f : LongFields) : Statement (.mxbPass f) := fun _ _ h hs => by
  simp [Instr.subOk] at hs; obtain ⟨rfl, rfl⟩ := Prod.mk.inj (Option.some.inj h); simp [Op.build, Op.long, hs]
theorem mxbQuery (f : LongFields) : Statement (.mxbQuery f) := fun _ _ h hs => by
  simp [Instr.subOk] at hs; obtain ⟨rfl, rfl⟩ := Prod.mk.inj (Option.some.inj h); simp [Op.build, Op.long, hs]
theorem mma (f : LongFields) : Statement (.mma f) := fun _ _ h _ => by cases h; rfl
theorem mzero (f : LongFields) : Statement (.mzero f) := fun _ _ h _ => by cases h; rfl
theorem mlda (f : LongFields) : Statement (.mlda f) := fun _ _ h _ => by cases h; rfl
theorem bld (f : LongFields) : Statement (.bld f) := fun _ _ h _ => by cases h; rfl
theorem mwait (f : LongFields) : Statement (.mwait f) := fun _ _ h _ => by cases h; rfl
theorem mdrain (f : LongFields) : Statement (.mdrain f) := fun _ _ h hs => by
  simp [Instr.subOk] at hs; obtain ⟨rfl, rfl⟩ := Prod.mk.inj (Option.some.inj h); simp [Op.build, Op.long, hs]
theorem mdrainLoad (f : LongFields) : Statement (.mdrainLoad f) := fun _ _ h hs => by
  simp [Instr.subOk] at hs; obtain ⟨rfl, rfl⟩ := Prod.mk.inj (Option.some.inj h); simp [Op.build, Op.long, hs]
theorem mdrainConst (f : LongFields) : Statement (.mdrainConst f) := fun _ _ h hs => by
  simp [Instr.subOk] at hs; obtain ⟨rfl, rfl⟩ := Prod.mk.inj (Option.some.inj h); simp [Op.build, Op.long, hs]
theorem mdresume (f : LongFields) : Statement (.mdresume f) := fun _ _ h _ => by cases h; rfl
theorem srgOpen (f : LongFields) : Statement (.srgOpen f) := fun _ _ h _ => by cases h; rfl
theorem srgClose (f : LongFields) : Statement (.srgClose f) := fun _ _ h _ => by cases h; rfl
theorem srgLoad (f : LongFields) : Statement (.srgLoad f) := fun _ _ h hs => by
  simp [Instr.subOk] at hs; obtain ⟨rfl, rfl⟩ := Prod.mk.inj (Option.some.inj h); simp [Op.build, Op.long, hs]
theorem srgBound (f : LongFields) : Statement (.srgBound f) := fun _ _ h hs => by
  simp [Instr.subOk] at hs; obtain ⟨rfl, rfl⟩ := Prod.mk.inj (Option.some.inj h); simp [Op.build, Op.long, hs]
theorem srgEnable (f : LongFields) : Statement (.srgEnable f) := fun _ _ h hs => by
  simp [Instr.subOk] at hs; obtain ⟨rfl, rfl⟩ := Prod.mk.inj (Option.some.inj h); simp [Op.build, Op.long, hs]
theorem srgEvict (f : LongFields) : Statement (.srgEvict f) := fun _ _ h hs => by
  simp [Instr.subOk] at hs; obtain ⟨rfl, rfl⟩ := Prod.mk.inj (Option.some.inj h); simp [Op.build, Op.long, hs]
theorem srgStat (f : LongFields) : Statement (.srgStat f) := fun _ _ h _ => by cases h; rfl
theorem liftPush (f : LongFields) : Statement (.liftPush f) := fun _ _ h hs => by
  simp [Instr.subOk] at hs; obtain ⟨rfl, rfl⟩ := Prod.mk.inj (Option.some.inj h); simp [Op.build, Op.long, hs]
theorem liftPushBulk (f : LongFields) : Statement (.liftPushBulk f) := fun _ _ h hs => by
  simp [Instr.subOk] at hs; obtain ⟨rfl, rfl⟩ := Prod.mk.inj (Option.some.inj h); simp [Op.build, Op.long, hs]
theorem liftPop (f : LongFields) : Statement (.liftPop f) := fun _ _ h _ => by cases h; rfl
theorem liftFree (f : LongFields) : Statement (.liftFree f) := fun _ _ h _ => by cases h; rfl
theorem liftWait (f : LongFields) : Statement (.liftWait f) := fun _ _ h _ => by cases h; rfl
theorem enq (f : LongFields) : Statement (.enq f) := fun _ _ h _ => by cases h; rfl
theorem spawn (f : LongFields) : Statement (.spawn f) := fun _ _ h _ => by cases h; rfl
theorem phase (f : LongFields) : Statement (.phase f) := fun _ _ h _ => by cases h; rfl
theorem retire (f : LongFields) : Statement (.retire f) := fun _ _ h _ => by cases h; rfl
theorem depInc (f : LongFields) : Statement (.depInc f) := fun _ _ h _ => by cases h; rfl
theorem depDec (f : LongFields) : Statement (.depDec f) := fun _ _ h _ => by cases h; rfl
theorem depWait (f : LongFields) : Statement (.depWait f) := fun _ _ h _ => by cases h; rfl
theorem qstatQaddr (f : LongFields) : Statement (.qstatQaddr f) := fun _ _ h hs => by
  simp [Instr.subOk] at hs; obtain ⟨rfl, rfl⟩ := Prod.mk.inj (Option.some.inj h); simp [Op.build, Op.long, hs]
theorem qstatOcc (f : LongFields) : Statement (.qstatOcc f) := fun _ _ h hs => by
  simp [Instr.subOk] at hs; obtain ⟨rfl, rfl⟩ := Prod.mk.inj (Option.some.inj h); simp [Op.build, Op.long, hs]
theorem qstatRoom (f : LongFields) : Statement (.qstatRoom f) := fun _ _ h hs => by
  simp [Instr.subOk] at hs; obtain ⟨rfl, rfl⟩ := Prod.mk.inj (Option.some.inj h); simp [Op.build, Op.long, hs]
theorem qstatTree (f : LongFields) : Statement (.qstatTree f) := fun _ _ h hs => by
  simp [Instr.subOk] at hs; obtain ⟨rfl, rfl⟩ := Prod.mk.inj (Option.some.inj h); simp [Op.build, Op.long, hs]
theorem probe (f : LongFields) : Statement (.probe f) := fun _ _ h _ => by cases h; rfl
theorem mapp (f : LongFields) : Statement (.mapp f) := fun _ _ h hs => by
  simp [Instr.subOk] at hs; obtain ⟨rfl, rfl⟩ := Prod.mk.inj (Option.some.inj h); simp [Op.build, Op.long, hs]
theorem mappFrame (f : LongFields) : Statement (.mappFrame f) := fun _ _ h hs => by
  simp [Instr.subOk] at hs; obtain ⟨rfl, rfl⟩ := Prod.mk.inj (Option.some.inj h); simp [Op.build, Op.long, hs]
theorem tlbiLocal (f : LongFields) : Statement (.tlbiLocal f) := fun _ _ h _ => by cases h; rfl
theorem unmap (f : LongFields) : Statement (.unmap f) := fun _ _ h _ => by cases h; rfl
theorem tlbiPage (f : LongFields) : Statement (.tlbiPage f) := fun _ _ h _ => by cases h; rfl
theorem mapstat (f : LongFields) : Statement (.mapstat f) := fun _ _ h _ => by cases h; rfl

end Sys2Proof.Laws.ViewBuild
end

