-- ==== Sys2Proof/Laws/Writes.lean ====
section
/-! SUPPORT. Every operation that writes memory keeps its canonical form, and so has the memory at reset. -/

namespace Sys2Proof.Machine

/-- 32 lanes of words stored in a memory keep its form. -/
theorem Memory.wf_writeLanes {m : Memory} (a : Nat) (x : Lanes) (h : m.wf = true) : (m.writeLanes a x).wf = true :=
  Memory.wf_foldl _ _ (fun _ _ h => Memory.wf_writeNum _ _ _ h) h

/-- A write of a core's window keeps its form. -/
theorem Core.wf_writeWin {k : Core} (off : Nat) (bs : List Byte) (h : k.win.wf = true) : (k.writeWin off bs).win.wf = true :=
  Memory.wf_foldl _ _ (fun m x hm => by
    by_cases hd : (drainReserved (off + x.1) || k.unheldStore (off + x.1)) = true
    · simpa only [hd, if_true] using hm
    · simpa only [hd, Bool.false_eq_true, if_false] using Memory.wf_write (off + x.1) x.2 hm) h

/-- The end of a wait writes no memory. -/
@[simp] theorem State.finishWait_mem (s : State) (r : GroupRef) : (s.finishWait r).mem = s.mem := by
  unfold State.finishWait
  dsimp only
  split <;> simp [State.wake]

@[simp] theorem State.finishWait_hostMem (s : State) (r : GroupRef) : (s.finishWait r).hostMem = s.hostMem := by
  unfold State.finishWait
  dsimp only
  split <;> simp [State.wake]

theorem State.finishWaits_mem (rs : List GroupRef) (s : State) :
    (rs.foldl State.finishWait s).mem = s.mem ∧ (rs.foldl State.finishWait s).hostMem = s.hostMem := by
  induction rs generalizing s with
  | nil => exact ⟨rfl, rfl⟩
  | cons r rest ih => simpa using ih (s.finishWait r)

/-- What a write of device memory leaves there: each byte written in turn. -/
@[simp] theorem State.writeCells_mem (s : State) (cells : List Host.Cell) :
    (s.writeCells cells).mem = cells.foldl (fun m c => Memory.write m c.1 c.2) s.mem := by
  simp [State.writeCells, State.wakeBarriers, State.wakeDep, (State.finishWaits_mem _ _).1]

/-- It leaves the host's memory as it was. -/
@[simp] theorem State.writeCells_hostMem (s : State) (cells : List Host.Cell) : (s.writeCells cells).hostMem = s.hostMem := by
  simp [State.writeCells, State.wakeBarriers, State.wakeDep, (State.finishWaits_mem _ _).2]

/-- Bytes written to device memory keep its form. -/
theorem State.wf_writeCells {s : State} (cells : List Host.Cell) (h : s.mem.wf = true) : (s.writeCells cells).mem.wf = true := by
  rw [State.writeCells_mem]
  exact Memory.wf_foldl _ _ (fun _ _ h => Memory.wf_write _ _ h) h

/-- A number written to device memory keeps its form. -/
theorem State.wf_writeMem {s : State} (pa n x : Nat) (h : s.mem.wf = true) : (s.writeMem pa n x).mem.wf = true :=
  State.wf_writeCells _ h

/-- A write of the host's memory writes the half of one function, and keeps its form. -/
theorem State.wf_writeHost {s : State} (func a : Nat) (bs : List Byte) (h : (s.hostMemOf func).wf = true) :
    ((s.writeHost func a bs).hostMemOf func).wf = true := by
  simp [State.writeHost, State.hostMemOf]
  exact Memory.wf_writeBytes a bs h

/-- The memory at reset is in its form. -/
theorem State.reset_wf : State.reset.mem.wf = true := rfl

end Sys2Proof.Machine
end

