-- ==== Sys2Proof/Tests/Slice0.lean ====
section
/-! SUPPORT. Small tests: what the well-formedness checks refuse, words written out from the encoding tables of 03 and 04,
single steps with results worked out by hand from the spec, and states that meet the hypotheses of the claims. -/

set_option Elab.async false

open Sys2Proof Sys2Proof.Machine

namespace Sys2Proof.Tests

/-! ### Fields and states -/

/-- A short form with nothing set. -/
def sf : ShortFields := { u := false, d := 0, a := 0, b := 0, lit := none }

/-- A long form with nothing set but predicate p7. -/
def lf : LongFields :=
  { mod := 0, u := false, d := 0, a := 0, b := 0, c := 0, nwb := false, la := false, lb := false, lc := false, ext := 0
    oce := false, oci := 0, pn := false, ps := 7, lit := none }

/-- A register that holds one word in every lane. -/
def reg (w : Word) : VReg := ⟨Lanes.splat w, false⟩

/-- A register that holds `w + l` in lane `l`. -/
def ramp (w : Word) : VReg := ⟨Lanes.ofFn (fun l => w + BitVec.ofNat 32 l), false⟩

/-- The address through which the tables of `base` map a byte of the first 64 GiB for reads and writes. -/
def va (pa : Nat) : DWord := BitVec.ofNat 64 (0xFF00001000000000 + pa)

/-- A group with v1 to v12 allocated, two of them a mapped address, and 256 of 4096 bytes of stack in use. -/
def group : Group :=
  { placedGroup with
    v := [(1, ramp 5), (2, reg 3), (3, reg 0x40000000), (4, reg 0x00010000), (5, reg 0xFF000010), (6, reg 0x00010100),
          (7, reg 0xFF000010), (8, reg 1), (9, reg 0), (10, reg 0x80000000), (11, reg 0x3F800000), (12, reg 0)]
    sp := 256, limit := 4096, privateBase := va 0x40000 }

/-- Its team: four slots would fit, with berths, rings and scratchpad. -/
def team : Team :=
  { placedTeam with scratchBytes := 4096, berthCount := 8, ringCount := 4, foot := 60 }

/-- The placed state with this group and this team and the leaf of `va`, in the turn in which the group issues. -/
def base : State :=
  let s := ((State.reset.placeWord 0 0).modGroup ⟨0, 0⟩ (fun _ => group)).modTeam ⟨0, 0⟩ (fun _ => team)
  { s with mem := Memory.writeNum s.mem (placedTable + 8) 8 0x1EF }

/-- The base state with the group changed. -/
def withGroup (f : Group → Group) : State := base.modGroup ⟨0, 0⟩ f

/-- The base state with the team changed. -/
def withTeam (f : Team → Team) : State := base.modTeam ⟨0, 0⟩ f

/-- The base state with core 0 changed. -/
def withCore (f : Core → Core) : State := base.modCore 0 f

/-- Is `Ready` met, by an issue of which `P` holds? -/
def readyAt (s : State) (op : Op) (f : LongFields) (P : Issue → Bool) : Bool :=
  (s.group? s.issuing).isSome && match s.prepare op f with | .ok x => P x | .error _ => false

/-- Is `ReadyWith` met, by an issue of which `P` holds? -/
def readyWithAt (s : State) (op : Op) (f : LongFields) (idle : Idle) (mid : Issue → Attempt Unit) (P : Issue → Bool) :
    Bool :=
  (s.group? s.issuing).isSome && match s.prepareWith op f idle mid with | .ok x => x.acts && P x | .error _ => false

theorem ready_of {s : State} {op : Op} {f : LongFields} {P : Issue → Prop} [DecidablePred P]
    (h : readyAt s op f (fun x => decide (P x)) = true) : ∃ x, s.Ready op f x ∧ P x := by
  unfold readyAt at h
  split at h
  next x hx =>
    simp only [Bool.and_eq_true, decide_eq_true_eq] at h
    exact ⟨x, ⟨h.1, hx⟩, h.2⟩
  next => simp at h

theorem readyWith_of {s : State} {op : Op} {f : LongFields} {idle : Idle} {mid : Issue → Attempt Unit}
    {P : Issue → Prop} [DecidablePred P] (h : readyWithAt s op f idle mid (fun x => decide (P x)) = true) :
    ∃ x, s.ReadyWith op f idle mid x ∧ P x := by
  unfold readyWithAt at h
  split at h
  next x hx =>
    simp only [Bool.and_eq_true, decide_eq_true_eq] at h
    exact ⟨x, ⟨h.1, hx, h.2.1⟩, h.2.2⟩
  next => simp at h

/-- The register that a test gives an operand of some use: a pair of registers for a pair, else one. -/
def code (u : Use) (one pair : BitVec 9) : BitVec 9 :=
  match u with
  | .no => 0
  | .w64 | .base64 | .pair | .w128 => pair
  | _ => one

/-- A long form of an opcode with MOD and EXT as given: D is v20, A v1 or the pair v6, B v2 or the pair v4, C v8 or the pair v8. -/
def plain (op : Op) (mod : BitVec 21) (ext : BitVec 15) : LongFields :=
  let f := { lf with mod := mod, ext := ext }
  let z := shape op f
  { f with d := code z.d 20 20, a := code z.a 1 6, b := code z.b 2 4, c := code z.c 8 8 }

/-! ### States that meet the hypotheses of the claims -/

/-- A form's modifier bits: `v` at bit `lo` of MOD. -/
def m (lo v : Nat) : BitVec 21 := BitVec.ofNat 21 (v * 2 ^ (lo - 11))

/-- Does the instruction exist in the long form, and is it ready with an issue of which `P` holds? -/
noncomputable def hasReadyAt (s : State) (op : Op) (f : LongFields) (P : Issue → Bool) : Bool :=
  (op.build (.long f)).isSome && readyAt s op f P

theorem hasReady_of {s : State} {op : Op} {f : LongFields} {P : Issue → Prop} [DecidablePred P]
    (h : hasReadyAt s op f (fun x => decide (P x)) = true) :
    ∃ (i : Instr) (x : Issue), i.Has op f ∧ s.Ready op f x ∧ P x := by
  unfold hasReadyAt at h
  rw [Bool.and_eq_true] at h
  obtain ⟨x, hx⟩ := ready_of h.2
  cases hb : op.build (.long f) with
  | none => simp [hb] at h
  | some i => exact ⟨i, x, ⟨.long f, hb, rfl⟩, hx⟩

/-- Does the instruction exist in the long form, and does it raise the trap `c` under the checks of R179? -/
noncomputable def trapsAt (s : State) (op : Op) (f : LongFields) (c : Cause) : Bool :=
  (op.build (.long f)).isSome && match s.prepare op f with | .error (.trap t) => t = Trap.plain c | _ => false

/-- The base state with the trap vector enabled and every handler at the address `va 0x30000`. -/
def handled : State :=
  { base with
    contexts := Table.modify base.contexts 0 (fun c => { c with tvec := va 0x20000 + 1 })
    mem := (List.range 64).foldl (fun mm i => Memory.writeNum mm (0x20000 + 8 * i) 8 (va 0x30000).toNat) base.mem }

/-- The base state after power has been removed. -/
def off : State := { State.reset with security := { State.reset.security with powered := false } }

/-- A module in SAFE with one event due, at a turn. -/
def safeAt (t : Turn) : State :=
  { State.reset with
    turn := t, agenda := [.pilotSchedulingRound []], security := { State.reset.security with state := .safe } }

theorem witness_DecodeOfEncode :
    (Instr.iaddShort { sf with d := 3, a := 1, b := 91, lit := some 5 }).wellFormed = true
      ∧ encode (.iaddShort { sf with d := 3, a := 1, b := 91, lit := some 5 }) ≠ []
      ∧ (Instr.bld { lf with mod := m 11 9, a := 331, b := 2, c := 2, lit := some 7 }).wellFormed = true := by
  decide +kernel

theorem witness_StepRunsTheDecodedInstruction :
    base.awake = true ∧ base.turn = .sub ∧ base.order = [0] ∧ base.cursor = 0 ∧ base.isGated 0 = false
      ∧ (let t := { base with order := [] }; t.coreFrom t.cursor = some 0 ∧ t.arbitrate 0 = (t, [0, 1, 2, 3]))
      ∧ (base.core 0).barrel.getD (base.cycle % 4) none = some 0
      ∧ ((base.settle ⟨0, 0⟩).group ⟨0, 0⟩).holdUntil ≤ base.cycle ∧ ((base.settle ⟨0, 0⟩).group ⟨0, 0⟩).owed = 0
      ∧ ((base.settle ⟨0, 0⟩).fetch ⟨0, 0⟩ false).2 = ([0x00000000#32], none)
      ∧ (match parse (base.attrs ⟨0, 0⟩).decode [0x00000000#32] with
          | .ok (op, form) => decide (op.build form = some (.nopShort sf)
              ∧ (((base.settle ⟨0, 0⟩).fetch ⟨0, 0⟩ false).1.modGroup ⟨0, 0⟩ (fun g => { g with ir := [0] })).turnKind
                  ⟨0, 0⟩ op (formFields op form) = .issue)
          | .error _ => false) = true := by decide +kernel

theorem witness_StepRunsTheDecodedInstruction_unassigned :
    (match parse 9 [0x000007F8#32] with | .error .neverAssigned => true | _ => false) = true
      ∧ (match parse 9 [0x000000E0#32] with | .error .laterLevel => true | _ => false) = true
      ∧ ((State.reset.placeWord 32 0x7F8).settle ⟨0, 0⟩ |>.fetch ⟨0, 0⟩ false).2 = ([0x000007F8#32], none) := by
  decide +kernel

theorem witness_EveryInstructionAnswersANextState :
    State.reset.security.powered = true ∧ off.security.powered = false ∧ ∀ i ∈ off.agenda, ∀ inp, i ≠ .coldStart inp := by
  refine ⟨by decide, by decide, ?_⟩
  intro i hi; cases hi

theorem witness_SafeModuleRunsNothing :
    (safeAt .sub).security.powered = true ∧ (safeAt .sub).security.state = .safe ∧ (safeAt .sub).turn = .sub
      ∧ (safeAt (.event 1)).turn = .event (0 + 1) ∧ (safeAt (.event 1)).agenda = [.pilotSchedulingRound []]
      ∧ (safeAt .tick).turn = .tick := by decide +kernel

theorem witness_EveryStepKeepsMemoryCanonical : base.memoryCanonical = true ∧ ∃ t, step base = .next t := by
  refine ⟨by decide +kernel, ?_⟩
  have h : (match step base with | .next _ => true | _ => false) = true := by decide +kernel
  split at h
  next t ht => exact ⟨t, ht⟩
  next => cases h

theorem witness_MemoryReadsWhatWasWritten : Memory.wf [(3, 5), (0xFFFFFFFFFFFF, 1)] = true := by decide

/-- Every row of the integer, the floating-point and the exchange tables. -/
theorem witness_tables : ((integerTable.map (·.1) ++ floatTable.map (·.1) ++ exchangeTable.map (·.1)).all
    (fun op => hasReadyAt base op (plain op 0 0) (fun x => x.lanes = 0xFFFFFFFF))) = true := by decide +kernel

theorem witness_IntegerInstructionsComplete : ∃ (i : Instr) (x : Issue), i.Has .iadd (plain .iadd 0 0)
    ∧ base.Ready .iadd (plain .iadd 0 0) x ∧ x.dest.mask = 0xFFFFFFFF := hasReady_of (by decide +kernel)

/-- The same in the short form. -/
theorem witness_IntegerInstructionsComplete_short :
    (Instr.iaddShort { sf with d := 20, a := 1, b := 2 }).Has .iadd (formFields .iadd (.short { sf with d := 20, a := 1, b := 2 }))
      ∧ readyAt base .iadd (formFields .iadd (.short { sf with d := 20, a := 1, b := 2 })) (fun _ => true) = true :=
  ⟨⟨_, rfl, rfl⟩, by decide +kernel⟩

/-- 32 bits and 64 bits, with and without SAT, signed and unsigned, and the high product. -/
theorem witness_IntegerInstructionsComplete_values :
    typeBits lf.ty = 32 ∧ (0xFFFFFFFF#64).toNat < 2 ^ 32 ∧ lf.sat = false ∧ lf.sub = 0
      ∧ typeBits ({ lf with mod := m 11 4 } : LongFields).ty = 64
      ∧ ({ lf with mod := m 11 2 + m 17 1 } : LongFields).sat = true
      ∧ typeSigned ({ lf with mod := m 11 2 + m 17 1 } : LongFields).ty = false
      ∧ ({ lf with mod := m 11 2 + m 18 1 } : LongFields).sub = 1 := by decide +kernel

theorem witness_FloatInstructionsComplete : ∃ (i : Instr) (x : Issue), i.Has .fdiv (plain .fdiv 0 0)
    ∧ base.Ready .fdiv (plain .fdiv 0 0) x ∧ x.acts = true := hasReady_of (by decide +kernel)

theorem witness_MovesExchangesAndBlockConversionComplete : ∃ (i : Instr) (x : Issue), i.Has .xshf (plain .xshf 0 0)
    ∧ base.Ready .xshf (plain .xshf 0 0) x ∧ x.acts = true := hasReady_of (by decide +kernel)

theorem witness_MovesExchangesAndBlockConversionComplete_bfx :
    (∃ (i : Instr) (x : Issue), i.Has .cvtBfx (plain .cvtBfx (m 11 13 + m 18 9) 0)
      ∧ base.Ready .cvtBfx (plain .cvtBfx (m 11 13 + m 18 9) 0) x ∧ x.acts = true)
    ∧ (∃ (i : Instr) (x : Issue), i.Has .cvtBfx (plain .cvtBfx (m 11 9 + m 18 14) 0)
      ∧ base.Ready .cvtBfx (plain .cvtBfx (m 11 9 + m 18 14) 0) x ∧ x.acts = true) :=
  ⟨hasReady_of (by decide +kernel), hasReady_of (by decide +kernel)⟩

/-- A register, a uniform register, a literal and each special value, with U = 0 and with U = 1. -/
theorem witness_OperandValuesAndActiveLanes :
    ([1, 256 + 5, 331, 334, 332, 333].all (fun a => [false, true].all (fun u =>
      hasReadyAt base .iadd { plain .iadd 0 0 with a := a, u := u, lit := if a = 331 then some 9 else none }
        (fun x => x.acts)))) = true
      ∧ (shape .iadd (plain .iadd 0 0)).a = .w32 ∧ base.settledSelf.sup = false := by decide +kernel

/-- A predicate that selects lane 3, and its inverse; under U = 1 the gate lane is lane 0. -/
theorem witness_OperandValuesAndActiveLanes_predicates :
    let s := withGroup (fun g => { g with preds := g.preds.set 2 8 })
    let f := { plain .fadd 0 0 with ps := 2 }
    hasReadyAt s .fadd f (fun x => x.lanes = 8) = true
      ∧ hasReadyAt s .fadd { f with pn := true } (fun x => x.lanes = ~~~8) = true
      ∧ hasReadyAt s .fadd { f with u := true, a := 2, b := 2 } (fun x => x.lanes = 0) = true
      ∧ hasReadyAt base .fadd { plain .fadd 0 0 with u := true, a := 2 } (fun x => x.lanes = 0xFFFFFFFF) = true
      ∧ hasReadyAt base .fadd { plain .fadd 0 0 with ps := 7, pn := true } (fun x => x.lanes = 0) = true := by
  decide +kernel

/-- Each check of R179 decides somewhere. -/
theorem witness_OperandChecksInOrder :
    trapsAt (withTeam (fun t => { t with moored := 0 })) .iadd { plain .iadd 0 0 with a := 240 } .illegalOperand = true
      ∧ trapsAt base .iadd { plain .iadd 0 0 with a := 320 } .illegalOperand = true
      ∧ trapsAt base .iadd { plain .iadd 0 0 with a := 13 } .deadRegister = true
      ∧ trapsAt (withTeam (fun t => { t with strict := true })) .iadd { plain .iadd 0 0 with u := true } .nonUniform = true
      ∧ trapsAt (withTeam (fun t => { t with foot := 3 })) .iadd (plain .iadd 0 0) .footprint = true
      ∧ trapsAt (withGroup (fun g => { g with poison := [.v 1] })) .iadd (plain .iadd 0 0) .memEcc = true
      ∧ readyAt base .iadd (plain .iadd 0 0) (fun _ => true) = true := by decide +kernel

theorem witness_WritePastTheFootprintTraps :
    let s := withTeam (fun t => { t with foot := 3 })
    let g := (s.settle ⟨0, 0⟩).group ⟨0, 0⟩
    let f := plain .iadd 0 0
    f.u = false ∧ f.nwb = false ∧ f.la = false ∧ f.lb = false ∧ f.lc = false ∧ Operand.ofCode f.d = .v 20
      ∧ (shape .iadd f).d.words = 1 ∧ Table.find g.v 20 = none ∧ g.active f ≠ 0
      ∧ ((s.settle ⟨0, 0⟩).attrs ⟨0, 0⟩).decode = 9 ∧ ((s.settle ⟨0, 0⟩).attrs ⟨0, 0⟩).foot ≤ g.heldInBank (20 % 4)
      ∧ (match (s.settle ⟨0, 0⟩).readChecks ⟨0, 0⟩ .iadd f ((s.settle ⟨0, 0⟩).sources ⟨0, 0⟩ .iadd f) with
          | .ok () => true | .error _ => false) = true := by decide +kernel

/-- One write in flight for a cycle past, and one for the cycle of the read. -/
theorem witness_FixedWriteLandsAfterItsCycle :
    let w : Nat → FileWrite := fun due => ⟨due, .v 2, true, 0xF, Lanes.splat 9⟩
    let s : Nat → State := fun due => { withGroup (fun g => { g with inflight := [w due] }) with cycle := 100 }
    (∀ due ∈ [99, 100], ((s due).group? ⟨0, 0⟩).map (·.inflight) = some [w due])
      ∧ (Table.find ((s 99).group ⟨0, 0⟩).v 2).isSome = true := by decide +kernel

theorem witness_ReductionsAndPredicateWritersComplete :
    ([(Op.xred, m 18 0), (.xred, m 11 9), (.xscan, m 18 8), (.xscan, m 18 3), (.icmp, m 22 6), (.fcmp, m 22 7 + m 18 7)
      , (.movp, m 18 1 + m 22 2), (.movp, 0), (.fpstClear, 0), (.kill, 0)].all
      (fun p => hasReadyAt base p.1 (plain p.1 p.2 0) (fun x => x.acts && x.s.self.preds.length = 7))) = true := by
  decide +kernel

theorem witness_FclassWritesOneBit : ∃ (i : Instr) (x : Issue), i.Has .fclass (plain .fclass 0 0)
    ∧ base.Ready .fclass (plain .fclass 0 0) x ∧ x.dest.mask ≠ 0 := hasReady_of (by decide +kernel)

/-- Each branch and mask instruction, with a predicate and its inverse, where it has them. -/
theorem witness_BranchesAndMaskInstructionsComplete :
    ([(Op.nop, m 11 0), (.bra, 0), (.brx, 0), (.ret, 0), (.call, 0), (.bany, m 11 7), (.ball, m 14 1), (.bnone, m 11 1)
      , (.emset, 0), (.emand, m 15 1), (.emor, m 15 1 + m 14 1), (.emnot, m 11 7 + m 15 1)].all
      (fun p => hasReadyAt base p.1 (plain p.1 p.2 0)
        (fun x => x.s.self.formed && Memory.wf x.s.selfCore.win))) = true := by decide +kernel

/-- yield; a sleep that is new, of 0, over, and not over. -/
theorem witness_YieldSleepAndExitComplete :
    let f := plain .sleep 0 0
    hasReadyAt base .yield (plain .yield 0 0) (fun _ => true) = true
      ∧ hasReadyAt base .sleep f (fun x => x.s.self.hold = .none && (laneVal x.a 0).toNat = 5) = true
      ∧ hasReadyAt base .sleep { f with a := 9 } (fun x => (laneVal x.a 0).toNat = 0) = true
      ∧ hasReadyAt (withGroup (fun g => { g with hold := .sleep 0 })) .sleep f (fun x => 0 ≤ x.s.time) = true
      ∧ hasReadyAt (withGroup (fun g => { g with hold := .sleep 1 })) .sleep f (fun x => x.s.time < 1) = true := by
  decide +kernel

theorem witness_YieldSleepAndExitComplete_exit : ∃ (i : Instr) (x : Issue), i.Has .exit (plain .exit 0 0)
    ∧ base.Ready .exit (plain .exit 0 0) x
    ∧ (x.s.self.kind = .general ∧ x.s.team? ⟨0, x.s.self.team⟩ = some { team with ending := .no }) :=
  hasReady_of (by decide +kernel)

/-- A barrier of the one group that there is, one of two groups that waits, and an instance arrived at before. The group has
no buffered store, so the state after the release is the state before it. -/
theorem witness_BarrierAndBerthInstructionsComplete :
    let two := withTeam (fun t => { t with slots := [0, 1] })
    let went := withGroup (fun g => { g with arrivals := [(3, 0)] })
    let ok := fun (x : Issue) => decide (x.s.self.kind = .general ∧ x.s.self.status = .running ∧ x.s.self.resumeWait = none
      ∧ (x.s.team? ⟨0, x.s.self.team⟩).isSome = true ∧ x.s.flushStores ⟨0, 0⟩ = x.s)
    hasReadyAt base .barArrive (plain .barArrive 0 (3 + 16)) ok = true
      ∧ hasReadyAt base .bar (plain .bar 0 15) ok = true ∧ hasReadyAt two .bar (plain .bar 0 (3 + 32)) ok = true
      ∧ hasReadyAt went .barWait (plain .barWait 0 3) (fun x => decide (Table.find x.s.self.arrivals 3 = some 0)) = true
      ∧ base.self.resumeWait = none := by decide +kernel

/-- Berth 0 in the mask, ready and not ready. -/
theorem witness_BarrierAndBerthInstructionsComplete_berths :
    let ready := withCore (fun k => { k with berths := [(0, ⟨.ready, none, 0⟩)] })
    let f := fun op => { plain op 0 0 with a := 8 }
    ([Op.waitbAll, .waitbAny, .ffb, .bclr].all (fun op => [ready, base].all (fun s =>
      hasReadyAt s op (f op) (fun x => laneVal x.a 0 = 1 && (x.s.attrs ⟨0, 0⟩).berthCount = 8
        && decide (((x.s.core 0).berth 0).fault = none))))) = true := by decide +kernel

/-- A handler that can be entered; a group in a handler, a full stack, and no vector; and a debugger. -/
theorem witness_SystemCallsAndBreakpointsEnterOrHalt :
    let run := fun (s : State) => [Op.trap, .svc, .brk].all (fun op => hasReadyAt s op (plain op 0 77) (fun _ => true))
    run handled = true ∧ [Cause.software, .svc, .breakpoint].all (fun c => handled.handler ⟨0, 0⟩ c = some (va 0x30000)) = true
      ∧ (handled.context handled.selfAttrs.ctx).debugger = false ∧ handled.self.sup = false
      ∧ handled.self.spFinal + 128 ≤ handled.self.limit ∧ handled.self.skidLeft = none ∧ handled.self.copies = []
      ∧ handled.self.run < 256 ∧ handled.self.formed = true ∧ Memory.wf handled.self.stack = true := by decide +kernel

theorem witness_SystemCallsAndBreakpointsEnterOrHalt_fatal :
    let run := fun (s : State) => [Op.trap, .svc, .brk].all (fun op => hasReadyAt s op (plain op 0 77) (fun _ => true))
    let in_ := handled.modGroup ⟨0, 0⟩ (fun g => { g with sup := true })
    let full := handled.modGroup ⟨0, 0⟩ (fun g => { g with sp := 4096 - 112 })
    run base = true ∧ run in_ = true ∧ run full = true ∧ base.handler ⟨0, 0⟩ .svc = none ∧ in_.self.sup = true
      ∧ full.self.limit < full.self.spFinal + 128 ∧ base.self.kind = .general ∧ base.self.skidLeft = none
      ∧ base.team? ⟨0, base.self.team⟩ = some team ∧ team.ending = .no := by decide +kernel

theorem witness_SystemCallsAndBreakpointsEnterOrHalt_debugger :
    let s := { base with contexts := Table.modify base.contexts 0 (fun c => { c with debugger := true }) }
    hasReadyAt s .brk (plain .brk 0 0) (fun _ => true) = true ∧ (s.context s.selfAttrs.ctx).debugger = true
      ∧ s.self.kind = .general ∧ (s.team? ⟨0, s.self.team⟩).map (·.ending) = some .no := by decide +kernel

/-- In a handler and outside one. -/
theorem witness_TretReturnsFromTheHandler :
    let in_ := { withGroup (fun g => { g with sup := true, cause := 9 }) with cycle := 4 }
    (base.group? ⟨0, 0⟩).isSome = true ∧ base.self.sup = false ∧ (in_.group? ⟨0, 0⟩).isSome = true ∧ in_.self.sup = true
      ∧ in_.self.lastDue < in_.cycle ∧ (plain .tret 0 0).modBits 17 17 = 0 ∧ (plain .tret (m 17 1) 0).modBits 17 17 = 1
      ∧ ((in_.settleAll ⟨0, 0⟩).group ⟨0, 0⟩).kind = .general
      ∧ (in_.team? ⟨0, ((in_.settleAll ⟨0, 0⟩).group ⟨0, 0⟩).team⟩).map (·.ending) = some .no := by decide +kernel

theorem witness_TretReturnsFromTheHandler_has :
    (Instr.tretLong (plain .tret 0 0)).Has .tret (plain .tret 0 0)
      ∧ (Instr.tretKill (plain .tret (m 17 1) 0)).Has .tret (plain .tret (m 17 1) 0) :=
  ⟨⟨.long _, rfl, rfl⟩, ⟨.long _, rfl, rfl⟩⟩

theorem witness_TrapEntryThenReturnRestoresTheGroup :
    group.formed = true ∧ Memory.wf group.stack = true ∧ group.copies = [] ∧ group.run < 256 ∧ group.cache.length = 8
      ∧ (Trap.plain .svc).lanes = none ∧ (Trap.plain .svc).restart.length = 0
      ∧ ({ Trap.plain .drainFault with restart := List.replicate 16 1 } : Trap).restart.length = 16 := by decide +kernel

/-- A user register, a supervisor's and a system's, by a group that may and by one that may not; and numbers 0x0B (with an index) and 0x10. -/
theorem witness_SystemRegistersReadAndWrite :
    let sys := withGroup (fun g => { g with kind := .tug })
    ([base, sys].all (fun s => [0x00, 0x01, 0x04, 0x06, 0x0B + 63 * 256, 0x08, 0x0F, 0x10, 0x01 + 256].all (fun n =>
      hasReadyAt s .mrs (plain .mrs 0 (BitVec.ofNat 15 n)) (fun _ => true)
        && hasReadyAt s .msr (plain .msr 0 (BitVec.ofNat 15 n)) (fun _ => true)))) = true
      ∧ base.self.privilege = .user ∧ sys.self.privilege = .system ∧ sys.self.kind ≠ .recovery := by decide +kernel
/-- An access with index register v9, which holds 0: at `va 0x10100` for a 64-bit base, and at 0 for one of 32 bits. -/
def access (op : Op) (mod : BitVec 21) : LongFields :=
  let f := plain op mod 0
  { f with a := if (shape op f).a = .base64 then 6 else 9, b := 9 }

/-- Do the lanes' accesses of a ready instruction all pass, and does `P` hold of the state after translation and of them? -/
def passAt (s : State) (op : Op) (f : LongFields) (kind : AccessKind) (lanes : Issue → List Nat)
    (P : State → List (Nat × Except LaneFail LaneAccess) → Bool) : Bool :=
  readyAt s op f (fun x =>
    let y := x.s.laneAccesses s.issuing op f kind (accessBytes f) x (lanes x)
    (firstFail y.2 y.2).isNone && !y.2.isEmpty && decide (x.s.self.status = .running) && P y.1 y.2)

theorem witness_LoadsComplete :
    (passAt base .ld (access .ld 0) .read (fun x => x.accessLanes .ld (access .ld 0)) (fun s _ => s.mayAwait ⟨0, 0⟩)
      && passAt base .lds (access .lds (m 11 4)) .read (fun x => x.accessLanes .lds (access .lds (m 11 4)))
          (fun s _ => s.mayAwait ⟨0, 0⟩)
      && passAt base .ldu (access .ldu (m 11 7)) .read (fun x => x.accessLanes .ldu (access .ldu (m 11 7)))
          (fun s _ => s.mayAwait ⟨0, 0⟩)
      && passAt (withGroup (fun g => { g with kind := .tug })) .ldw { access .ldw 0 with a := 9 } .read
          (fun x => x.accessLanes .ldw (access .ldw 0)) (fun s _ => s.mayAwait ⟨0, 0⟩)) = true
      ∧ (Instr.ldLong (access .ld 0)).Has .ld (access .ld 0) := ⟨by decide +kernel, ⟨.long _, rfl, rfl⟩⟩

/-- The last whole word of the team's scratchpad, and the first that is not. -/
theorem witness_LoadsComplete_scratch :
    let at_ : BitVec 32 → State := fun o => withGroup (fun g => { g with v := Table.set g.v 9 (reg o) })
    let f := { access .lds 0 with b := 12 }
    hasReadyAt (at_ 4092) .lds f (fun x => (x.accessLanes .lds f).all (fun l => x.scratchOffset f l + 4 ≤ 4096)) = true
      ∧ hasReadyAt (at_ 4096) .lds f (fun x => (x.accessLanes .lds f).all (fun l => 4096 < x.scratchOffset f l + 4)) = true
      ∧ (base.attrs ⟨0, 0⟩).scratchBase + (base.attrs ⟨0, 0⟩).scratchBytes ≤ 0x180000 := by decide +kernel

/-- A store whose lanes have one address each; the highest lane's bytes remain where all lanes have one. -/
theorem witness_StoresWriteTheirBytes :
    let wide := { access .st 0 with b := 1, c := 2, mod := m 23 2 }
    ([access .st 0, wide, access .st (m 16 2)].all (fun f =>
      passAt base .st f .write (fun x => x.storeLanes .st f) (fun s xs =>
        s.mayAwait ⟨0, 0⟩ && (passed xs).all (fun y => y.spots.all (fun p => match p with | .device (.mem _) => true | _ => false))))
      && passAt base .stm { access .stm 0 with b := 1 } .write (fun x => x.storeLanes .stm { access .stm 0 with b := 1 }) (fun s xs =>
        s.mayAwait ⟨0, 0⟩ && (passed xs).all (fun y => y.spots.all (fun p => match p with | .device (.mem _) => true | _ => false)))) = true
      ∧ (Instr.st wide).Has .st wide ∧ Memory.wf base.mem = true :=
  ⟨by decide +kernel, ⟨.long _, rfl, rfl⟩, by decide +kernel⟩

theorem witness_StoresWriteTheirBytes_windows :
    passAt base .sts (access .sts 0) .write (fun x => x.accessLanes .sts (access .sts 0)) (fun s _ => s.mayAwait ⟨0, 0⟩) = true
      ∧ passAt (withGroup (fun g => { g with kind := .tug })) .stw (access .stw 0) .write
          (fun x => x.accessLanes .stw (access .stw 0)) (fun s _ => s.mayAwait ⟨0, 0⟩) = true
      ∧ (base.core 0).unheldStore 0x80000 = false
      ∧ (Instr.sts (access .sts 0)).Has .sts (access .sts 0) ∧ base.cores.all (fun e => Memory.wf e.2.win) = true :=
  ⟨by decide +kernel, by decide +kernel, by decide +kernel, ⟨.long _, rfl, rfl⟩, by decide +kernel⟩

/-- Each of the operations, the f32 sum and cas among them. -/
theorem witness_AtomicsComplete :
    ([0, m 11 9, m 27 1, m 27 2, m 27 3, m 27 4, m 27 5, m 27 6, m 27 7].all (fun q =>
      passAt base .atom (access .atom q) .atomic (fun x => x.accessLanes .atom (access .atom q)) (fun s _ => s.mayAwait ⟨0, 0⟩)
      && passAt base .atoms (access .atoms q) .atomic (fun x => x.accessLanes .atoms (access .atoms q))
          (fun s _ => s.mayAwait ⟨0, 0⟩))) = true
      ∧ ([0, m 27 6].all (fun q =>
        passAt base .red (access .red q) .atomic (fun x => x.accessLanes .red (access .red q)) (fun s _ => s.mayAwait ⟨0, 0⟩)
        && passAt base .reds (access .reds q) .atomic (fun x => x.accessLanes .reds (access .reds q)) (fun s _ => s.mayAwait ⟨0, 0⟩))) = true
      ∧ (Instr.atom (access .atom 0)).Has .atom (access .atom 0) :=
  ⟨by decide +kernel, by decide +kernel, ⟨.long _, rfl, rfl⟩⟩

/-- One lane of it: a place of four bytes and one of eight, and no buffered store. -/
theorem witness_AtomicsComplete_lane :
    Memory.wf base.mem = true ∧ (base.core 0).stores.all (fun b => b.slot ≠ 0) = true
      ∧ (∃ y : LaneAccess, y.spots = (List.range 8).map (fun i => .device (.mem (0x10100 + i)))) :=
  ⟨by decide +kernel, by decide +kernel, ⟨0, 0, _, false, []⟩, rfl⟩

/-- Offsets inside the stack, at its ends, and one outside it. -/
theorem witness_PrivateStackInstructionsComplete :
    let at_ : BitVec 32 → State := fun o => withGroup (fun g => { g with v := Table.set g.v 9 (reg o) })
    let fl := { access .ldl 0 with b := 12 }
    let fs := { access .stl 0 with b := 12 }
    let blocks := fun (x : Issue) => [(x.s.self.sp + (laneVal x.a 0).toNat) % 2 ^ 32 / 16]
    ([-4#32, -256#32].all (fun o =>
      hasReadyAt (at_ o) .ldl fl (fun x => (x.s.needBlocks ⟨0, 0⟩ (blocks x)).2.isNone && x.s.mayAwait ⟨0, 0⟩)
        && hasReadyAt (at_ o) .stl fs (fun x => (x.s.needBlocks ⟨0, 0⟩ (blocks x)).2.isNone && x.s.mayAwait ⟨0, 0⟩))) = true
      ∧ hasReadyAt (at_ (-257)) .ldl fl (fun x => x.accessLanes .ldl fl ≠ []) = true
      ∧ hasReadyAt (at_ (-3)) .stl fs (fun x => x.accessLanes .stl fs ≠ []) = true
      ∧ (Instr.ldl fl).wellFormed = true ∧ (Instr.stl fs).wellFormed = true ∧ Memory.wf base.self.stack = true := by
  decide +kernel

/-- Frames up to LIMIT and past it, down to 0 and below. -/
theorem witness_PrivateStackInstructionsComplete_frames :
    ([240, 241].all (fun e => hasReadyAt base .frameEnter (plain .frameEnter 0 e) (fun x => x.s.self.missing = []))) = true
      ∧ ([16, 17].all (fun e => hasReadyAt base .frameLeave (plain .frameLeave 0 e) (fun _ => true))) = true
      ∧ base.self.sp + 16 * 240 = base.self.limit ∧ 16 * 16 = base.self.sp := by decide +kernel

theorem witness_FencesAndCacheOperationsComplete :
    ([(Op.fence, m 16 2 + m 18 3), (.fence, m 16 3 + m 18 5), (.icinv, 0), (.cctl, m 27 1), (.cctl, m 27 2), (.pref, 0)].all
      (fun p => hasReadyAt base p.1 (if p.1 = .pref ∨ p.2 = m 27 2 then access p.1 p.2 else plain p.1 p.2 0)
        (fun x => decide (x.s.self.status = .running) && x.s.mayAwait ⟨0, 0⟩))) = true := by decide +kernel

theorem witness_PageInstructionsComplete :
    let tug := withGroup (fun g => { g with kind := .tug })
    let f := fun op q => { plain op q 0 with b := 9, c := if q = 0 then 0 else 8 }
    let up := withGroup (fun g => { g with sup := true })
    ([0, m 13 1, m 13 2].all (fun q => hasReadyAt base .probe (plain .probe q 0) (fun _ => true))) = true
      ∧ ([0, m 11 1].all (fun q => hasReadyAt base .mapstat (plain .mapstat q 0) (fun _ => true))) = true
      ∧ ([base, up, tug].all (fun s => [Op.tlbiLocal, .tlbiPage, .unmap].all (fun op =>
          hasReadyAt s op (plain op 0 0) (fun x => x.s.self.status = .running)))) = true
      ∧ ([base, up, tug].all (fun s => [0, m 11 1].all (fun q => hasReadyAt s .mapp (f .mapp q) (fun _ => true)))) = true
      ∧ base.self.privilege = .user ∧ up.self.privilege = .supervisor ∧ tug.self.privilege = .system := by decide +kernel

/-- A pool of one frame and a level-3 entry that is not present, a leaf, and a malformed entry. -/
theorem witness_PageInstructionsComplete_install :
    let c := { base.context 0 with poolBase := 0x50000, poolSize := 4, poolTail := 1 }
    let w := walkChecked base.mem ((va 0x10000).toNat % 2 ^ 56) 3 c.root
    let n := walkChecked base.mem (2 ^ 46) 3 c.root
    w.result = .leaf ∧ n.result = .notPresent ∧ (c.poolTail - c.poolHead).toNat = 1 ∧ (va 0).toNat / 2 ^ 56 = 0xFF
      ∧ (walkChecked (Memory.writeNum base.mem 0x2000 8 0x4005) 0 3 0x2000).result = .malformed := by decide +kernel

/-- tlbi.page at its first attempt, and once its shootdowns are complete. -/
theorem witness_PageInstructionsComplete_shootdown :
    let up := withGroup (fun g => { g with sup := true })
    let held := withGroup (fun g => { g with sup := true, hold := .shootdown 0 })
    hasReadyAt up .tlbiPage (plain .tlbiPage 0 0) (fun x => decide (x.s.self.hold = .none)
        && (x.accessLanes .tlbiPage (plain .tlbiPage 0 0)).length = 32) = true
      ∧ hasReadyAt held .tlbiPage (plain .tlbiPage 0 0) (fun x => decide (x.s.self.hold = .shootdown 0 ∧ x.s.shootdowns = []))
        = true
      ∧ hasReadyAt up .tlbiPage { plain .tlbiPage 0 0 with pn := true }
          (fun x => x.accessLanes .tlbiPage { plain .tlbiPage 0 0 with pn := true } = []) = true := by decide +kernel

/-- A launch of one stage of capacity 8 with one variant and one surrogate region, its area at `va 0x100000`. -/
def launch : Launch :=
  { ctx := 0, queue := 0, index := 0, compl := 0, intr := false, seed := false, gx := 4, gy := 1, gz := 1, size := 7, user := 0
    code := BitVec.ofNat 64 (0xFF00000000000000 + placedText)
    header :=
      { decode := 9, feature := 9, strict := false, peakFoot := 60, moored := 16, berths := 8, rings := 4, scratch := 4096
        stack := 4096, team := 1, textLen := 256, textOff := 0, stages := [⟨8, 0, 1, []⟩]
        variants := [{ limit := 0xFFFFFFFF, entry := 64, foot := 60, groups := 1, scratch := 4096 }]
        regions := [{ region := 0, numIn := 1, numOut := 1, body := 16, close := 32 }] }
    idemp := false, retry := 0, pins := [], firstTicket := 0, t1 := 10, t2 := 20, t3 := 30, save := va 0x200000
    saveSize := 0x100000, haltArea := 0, haltSize := 0, area := va 0x100000, areaSize := 4096, frames := [0x100000]
    homes := [0x100000], lost := false, aborted := false, draining := false }

/-- The base state with the launch live, its record and its stage's descriptor in memory; the group holds counts in s0 to s3
and a record image in s16 to s31. -/
def launched : State :=
  let s := withGroup (fun g => { g with s := [32, 0, 0x4040, 2] ++ List.replicate 12 0 ++ List.replicate 48 0 })
  let mem := Memory.writeBytes s.mem (0x100000 + 128) (launch.descBytes 0 0)
  { s with front := { s.front with launches := [(0, launch)] }, mem := Memory.writeNum mem (0x100000 + 8) 8 4 }

/-- A ring that holds 2048 of 4096 bytes. -/
def ring : Ring := ⟨0, 4096, 2048, 0, []⟩

/-- The launched state with a baton, ring 0, and core 0's upper partner in the same context. -/
def engines : State :=
  let s := (launched.modTeam ⟨0, 0⟩ (fun t => { t with batonHolder := some 0, scratchBytes := 32768 }))
  (s.modCore 0 (fun k => { k with rings := [(0, ring)] })).modCore (partnerOf 0) (fun k => { k with ctx := some 0, clean := false })

/-- The engines' state with berth 0 as given. -/
def berthed (b : Berth) : State := engines.modCore 0 (fun k => { k with berths := [(0, b)] })

/-- A Crane form: no coordinates, no ring. -/
def crane (op : Op) : LongFields := { plain op 0 0 with b := 332 }

theorem witness_CraneCommandsEnterTheirQueue :
    ([berthed Berth.free, berthed ⟨.busy, none, 0⟩].all (fun s =>
      [(Op.crnLd, CraneOp.ld), (.crnSt, .st), (.crnCp, .cp), (.crnSet, .set), (.crnGather, .gather), (.crnChain, .chain)].all
        (fun p => readyWithAt s p.1 (crane p.1) .fields (craneChecks p.2 (crane p.1))
          (fun x => decide ((x.s.core 0).crane.length = 4) && x.s.accepts ⟨0, 0⟩ (.crane 1))))) = true
      ∧ ((berthed Berth.free).core 0).berth 0 = Berth.free ∧ ((berthed ⟨.busy, none, 0⟩).core 0).berth 0 = ⟨.busy, none, 0⟩ := by
  decide +kernel

/-- A fence of queues 0 and 3, and checkpoint mode with and without system privilege. -/
theorem witness_CraneCommandsEnterTheirQueue_fence :
    let tug := withGroup (fun g => { g with kind := .tug })
    readyAt base .crnFence (plain .crnFence 0 9) (fun x => decide ((x.s.core 0).crane.length = 4) && x.s.accepts ⟨0, 0⟩ (.crane 9)) = true
      ∧ readyAt tug .crnMode (plain .crnMode 0 1) (fun x => x.s.self.privilege = .system) = true
      ∧ readyAt base .crnMode (plain .crnMode 0 1) (fun x => x.s.self.privilege ≠ .system) = true := by decide +kernel

/-- A declaration that no command stands against; advances up to the occupancy and the room and past them. -/
theorem witness_RingAndBatonInstructionsComplete :
    let decl := { plain .ringDecl 0 0 with a := 331, lit := some (1024 * 2 ^ 32) }
    let adv := fun q n => { plain .ringAdv q 0 with a := 331, lit := some n }
    readyWithAt engines .ringDecl decl .fields (declChecks decl) (fun x => !x.s.ringNamed 0 0) = true
      ∧ ([0, m 11 1].all (fun q => [2048, 2049].all (fun n =>
          readyWithAt engines .ringAdv (adv q n) .fields (ringCheck (adv q n)) (fun x =>
            decide (x.s.ring? 0 0 = some ring ∧ (laneVal x.a 0).toNat = n.toNat))))) = true
      ∧ readyWithAt engines .ringStat (plain .ringStat 0 0) .fields (ringCheck (plain .ringStat 0 0))
          (fun x => decide (x.s.ring? 0 0 = some ring)) = true := by decide +kernel

/-- The baton held by the group, by another, and by none. -/
theorem witness_RingAndBatonInstructionsComplete_baton :
    let other := engines.modTeam ⟨0, 0⟩ (fun t => { t with batonHolder := some 1 })
    let none_ := engines.modTeam ⟨0, 0⟩ (fun t => { t with batonHolder := none })
    let early := engines.modTeam ⟨0, 0⟩ (fun t => { t with batonFrom := 9 })
    ([engines, other, none_, early].all (fun s => readyAt s .mxb (plain .mxb 0 0) (fun x => decide (x.s.self.kind = .general))
        && readyAt s .mxb (plain .mxb (m 11 2) 0) (fun _ => true))) = true
      ∧ (engines.team? ⟨0, 0⟩).map (·.batonHolder) = some (some 0) ∧ (other.team? ⟨0, 0⟩).map (·.batonHolder) = some (some 1)
      ∧ (none_.team? ⟨0, 0⟩).map (fun t => (t.batonHolder, t.batonQueue)) = some (none, [])
      ∧ (engines.team? ⟨0, 0⟩).map (·.batonFrom) = some 0 ∧ (early.team? ⟨0, 0⟩).map (·.batonFrom) = some 9 ∧ early.cycle < 9
      ∧ engines.self.team = 0 := by decide +kernel

/-- mma of 64 by 64 by 32 in s8, mzero, mlda of 16 KiB at 0, and bld. -/
theorem witness_MatrixCommandsEnterTheQueue :
    let mma := { plain .mma (m 11 7 + m 15 7) 0 with a := 256, b := 257, c := 258 }
    let bld := { plain .bld (m 11 7) 0 with a := 257, b := 256, c := 257 }
    let mlda := { plain .mlda 0 0 with a := 257 }
    ([berthed Berth.free, berthed ⟨.busy, none, 0⟩].all (fun s =>
      [(Op.mma, MatrixOp.mma, mma), (.mzero, .mzero, plain .mzero 0 0), (.mlda, .mlda, mlda), (.bld, .bld, bld)].all
        (fun p => readyWithAt s p.1 p.2.2 .sources (matrixChecks p.2.1 p.2.2)
          (fun x => x.s.accepts ⟨0, 0⟩ .matrix)))) = true := by decide +kernel

/-- mwait of a berth that is ready, and of one that is busy. -/
theorem witness_MatrixCommandsEnterTheQueue_mwait :
    let f := { plain .mwait 0 0 with a := 257 }
    ([berthed ⟨.ready, none, 5⟩, berthed ⟨.busy, none, 0⟩].all (fun s =>
      readyWithAt s .mwait f .never (fun x => check (x.s.berthOk x.s.issuing (num32 x.a)) .illegalOperand)
        (fun x => decide (laneVal x.a 0 = 0 ∧ ((x.s.core 0).berth 0).fault = none)))) = true := by decide +kernel

/-- A drain command of each kind, with a free and with a busy berth. -/
theorem witness_DrainCommandsComplete :
    let f : DrainOp → LongFields := fun d =>
      match d with
      | .drain => { plain .mdrain 0 0 with c := 258 }
      | .load => { plain .mdrain (m 11 1) 0 with a := 257 }
      | .const => { plain .mdrain (m 11 2) 0 with a := 257 }
    ([berthed Berth.free, berthed ⟨.busy, none, 0⟩].all (fun s => [DrainOp.drain, .load, .const].all (fun d =>
      readyWithAt s .mdrain (f d) .sources (fun x => do
        check (x.drainOk d (f d)) .illegalOperand
        x.s.pure) (fun x => x.s.accepts ⟨0, 0⟩ .drain)))) = true := by decide +kernel

/-- A drain command of berth 0 with nothing captured but its enables. -/
def drain : DrainCommand :=
  { id := 0, op := .drain, team := 0, slot := 0, ctx := 0, user := true, berth := 0, teamBerth := 0, bank := 0, sel := 0
    me := 1, ne := 1, ring := none, teamRing := 0, p := 0, scratchBase := 0, scratchBytes := 32768, auto := false, after := []
    ready := true, latched := none, row := 0, stored := 0, image := none, flags := 0, held := none, resumed := false, cause := 0
    bad := false, mmaBad := false }

theorem witness_DrainCommandsComplete_resume :
    let f := { plain .mdresume 0 0 with a := 257 }
    ([1, 4, 6].all (fun kind =>
      readyWithAt (engines.modCore 0 (fun k => { k with drain := [{ drain with held := some kind }] })) .mdresume f .sources
        (fun x => do
          check (x.s.berthOk x.s.issuing (num32 x.a) && x.s.heldDrain x.s.issuing (num32 x.a)) .illegalOperand
          x.s.pure) (fun x => decide ((x.s.core 0).drain = [{ drain with held := some kind }])))) = true := by
  decide +kernel

/-- An mma of berth 0, 64 by 64 by 32 in s8, from ring 0. -/
def mmaCommand : MatrixCommand :=
  { id := 0, op := .mma, team := 0, slot := 0, berth := 0, teamBerth := 0, bank := 0, aType := 7, bType := 7, k := 32, ob := 0
    me := 64, ne := 64, zero := true, sat := false, aRing := 0, dr := false, dslot := 0, oRing := none, teamRing := 0, p := 0
    scratchBase := 0, scratchBytes := 32768, ctx := 0, user := true, fired := false, steps := 0, out := [], flags := 0
    bad := false }

/-- The engines' state with one matrix command queued. -/
def matrixState (c : MatrixCommand) : State :=
  engines.modCore 0 (fun k => { k with matrix := { k.matrix with queue := [c] } })

theorem witness_MatrixEngineStepsComplete :
    (matrixState mmaCommand).mayFire 0 mmaCommand = true ∧ (matrixState mmaCommand).ring? 0 mmaCommand.aRing = some ring
      ∧ ((matrixState { mmaCommand with fired := true, out := [(0x02000000, 9)] }).core 0).matrix.queue.length = 1
      ∧ Memory.wf (engines.core 0).win = true := by decide +kernel

/-- An mzero, an mlda and a bld at the head, with no drain that reads their bank. -/
theorem witness_MatrixEngineStepsComplete_fills :
    ([MatrixOp.mzero, .mlda, .bld].all (fun o =>
      !((matrixState { mmaCommand with op := o }).core 0).bankBusy { mmaCommand with op := o })) = true
      ∧ kObOk 7 32 0 = true := by decide +kernel

/-- A push and a bulk push of one register and of two, a pop of none and of one, and free slots. -/
theorem witness_LiftInstructionsComplete :
    let push := fun q => plain .liftPush q 0
    let pop := plain .liftPop 0 0
    let full := engines.modCore 0 (fun k => { k with incoming := [⟨Lanes.splat 3, true, false⟩] })
    let wait := fun a => { plain .liftWait 0 0 with a := a }
    ([0, m 12 1].all (fun q => readyWithAt engines .liftPush (push q) .sources (liftChecks (push q) (push q).a false) (fun x =>
        decide ((x.s.core (partnerOf 0)).incoming = [] ∧ (x.s.core 0).bulk = [])))) = true
      ∧ ([berthed Berth.free, berthed ⟨.busy, none, 0⟩].all (fun s =>
          readyWithAt s .liftPush (push (m 11 1)) .sources (liftChecks (push (m 11 1)) 1 true) (fun _ => true))) = true
      ∧ ([engines, full].all (fun s => readyWithAt s .liftPop pop .sources (liftChecks pop pop.d false) (fun _ => true))) = true
      ∧ readyAt engines .liftFree (plain .liftFree 0 0) (fun _ => true) = true
      ∧ ([257, 259].all (fun a => readyWithAt engines .liftWait (wait a) .never
          (fun x => check (num32 x.a ≤ 16) .illegalOperand) (fun _ => true))) = true := by decide +kernel
/-- A call of lanes 0 and 1 of region 0 with surrogate 1, of one input and one output. -/
def call : SurrogateCall :=
  { state := .deciding, region := 0, surrogate := 1, gen := 0, lanes := 3, uniform := false, emAtOpen := 0xFFFFFFFF, firstIn := 1
    numIn := 1, firstOut := 20, numOut := 1, trusted := 0, inPlaceLanes := 0, bound := 0
    body := BitVec.ofNat 64 (0xFF00000000008010), result := 5 }

/-- The launched state with the call open in a state of its life. -/
def called (c : SurrogateCall) : State := launched.modGroup ⟨0, 0⟩ (fun g => { g with call := some c })

/-- A call of every em lane, and of none; the calls that srg.close meets, and one of another region. -/
theorem witness_SurrogateCallsOpenAndClose :
    let f := plain .srgOpen 0 0
    ([f, { f with pn := true }].all (fun f => readyWithAt launched .srgOpen f .never (openChecks f) (fun x =>
        (x.s.regionOf ⟨0, 0⟩ 0).isSome && x.s.accepts ⟨0, 0⟩ .surrogate))) = true
      ∧ (launched.self.callLanes f = 0xFFFFFFFF ∧ launched.self.callLanes { f with pn := true } = 0)
      ∧ ([CallState.done, .deciding, .inPlace, .bodyRun].all (fun c =>
          readyAt (called { call with state := c }) .srgClose (plain .srgClose 0 0) (fun x =>
            decide (x.s.self.recovery = none ∧ x.s.self.call = some { call with state := c })))) = true
      ∧ call.region ≠ (plain .srgClose 0 1).extBits 5 0 := by decide +kernel

/-- A recovery group at its srg.close. -/
theorem witness_SurrogateCallsOpenAndClose_recovery :
    let rec_ : Recovery := ⟨0, 0, 0, 1, 20, 1, 1, false, 0⟩
    let s := launched.modGroup ⟨0, 0⟩ (fun g => { g with kind := .recovery, recovery := some rec_, v := Table.set g.v 20 (reg 9) })
    readyAt s .srgClose (plain .srgClose 0 0) (fun x => decide (x.s.self.recovery = some rec_)) = true := by decide +kernel

theorem witness_SurrogateControlCompletes :
    let tug := withGroup (fun g => { g with kind := .tug })
    let ok := fun (s : State) (f : LongFields) (p : Privilege) => match s.srgChecks f p with | .ok () => true | .error _ => false
    let f := fun n => { plain .srg (m 11 n) 0 with a := if n = 0 then 6 else if n = 1 then 2 else 0, b := if n = 1 then 0 else 8 }
    ([0, 1, 3].all (fun n => readyWithAt base .srg (f n) .all (fun _ => .ok ()) (fun x =>
        x.s.accepts ⟨0, 0⟩ .surrogate) && ok base (f n) .user)) = true
      ∧ readyWithAt tug .srg (f 2) .all (fun _ => .ok ()) (fun x => (laneVal x.b 0).toNat % 2 ^ 32 < 256) = true
      ∧ ok tug (f 2) .system = true ∧ base.fieldsOk ⟨0, 0⟩ .srg (f 2) = true ∧ base.self.privilege ≠ .system
      ∧ ([0, 8, 10].all (fun n => readyAt base .srgStat { plain .srgStat (m 11 n) 0 with b := 8 } (fun _ => true))) = true := by
  decide +kernel

/-- The launched state with a record image of stage 0 in s16 to s31 and the address of the descriptor in v4 and v5. -/
def phased : State :=
  launched.modGroup ⟨0, 0⟩ (fun g => { g with v := Table.set (Table.set g.v 4 (reg 0x00100080)) 8 (reg 1) })

/-- The descriptor's address is mapped and names the launch, the queue has room, and full it has none. -/
theorem witness_EnqueuesCompleteOrWait :
    let f := { plain .enq 0 0 with a := 4, b := 272 }
    let full := { phased with mem := Memory.writeNum phased.mem (0x100080 + 0x20) 8 8 }
    ([phased, full].all (fun s => readyWithAt s .enq f .fields (enqChecks f) (fun x =>
        match x.s.virtualAccess ⟨0, 0⟩ .read (x.s.self.uniformLane f) (laneVal x.a 0) 128 with
        | (s1, .ok a) => decide ((s1.descriptorOf a).map (fun d => (d.1, d.2.2)) = some (0, 0) ∧ s1.descPoisoned launch 0 = false
            ∧ s1.descAborted launch 0 = false ∧ s1.launch? 0 = some launch)
        | _ => false))) = true
      ∧ phased.hasRoom 0 0 1 = true ∧ full.hasRoom 0 0 1 = false ∧ phased.self.resumeWait = none
      ∧ phased.self.status = .running := by decide +kernel

/-- spawn of one record, and of as many as the queue takes. -/
theorem witness_EnqueuesCompleteOrWait_spawn :
    let f := fun b => { plain .spawn 0 0 with a := 272, b := b }
    let s := phased.modGroup ⟨0, 0⟩ (fun g => { g with v := Table.set g.v 2 (reg 8) })
    ([8, 2].all (fun b => readyWithAt s .spawn (f b) .fields (spawnChecks (f b)) (fun x =>
      decide (x.s.ownLaunch = some (0, launch) ∧ x.s.descPoisoned launch 0 = false)))) = true := by decide +kernel

/-- A counter at `va 0x10100`: 0, and above it. -/
theorem witness_PhasesAndCountersComplete :
    let f := fun op => { plain op 0 0 with b := if op = .depWait then 0 else 2 }
    let above := { base with mem := Memory.writeNum base.mem 0x10100 8 1 }
    ([(Op.depInc, AccessKind.atomic), (.depDec, .atomic), (.depWait, .read)].all (fun p =>
      readyWithAt base p.1 (f p.1) (if p.1 = .depWait then .never else .fields) counterChecks (fun x =>
        match x.s.virtualAccess ⟨0, 0⟩ p.2 (x.s.self.uniformLane (f p.1)) (laneVal x.a 0) 8 with
        | (s1, .ok a) => decide (a.spots = (List.range 8).map (fun j => Spot.device (.mem (0x10100 + j))) ∧ a.onHost = false
            ∧ s1.spotPoison a.spots = false)
        | _ => false))) = true
      ∧ base.counter 0x10100 ≤ 0 ∧ 0 < above.counter 0x10100 ∧ base.self.resumeWait = none ∧ Memory.wf base.mem = true := by
  decide +kernel

/-- phase as the first, with an arrival before it that agrees, and with one of another SIZE in an earlier cycle; retire. -/
theorem witness_PhasesAndCountersComplete_phase :
    let f := { plain .phase 0 0 with a := 2 }
    let after := fun (n : Word) => { launched.modTeam ⟨0, 0⟩ (fun t =>
      { t with phaseArrived := [1], phaseSize := n, phaseStage := 0 }) with cycle := 4 }
    ([launched, after 3, after 4].all (fun s => readyWithAt s .phase f .never (phaseChecks f) (fun x =>
        decide (x.s.self.kind = .general ∧ x.s.self.call = none ∧ x.s.self.sup = false ∧ (laneVal x.a 0).setWidth 32 = 3#32)))) = true
      ∧ (launched.team? ⟨0, 0⟩).map (·.phaseArrived) = some []
      ∧ readyWithAt launched .retire (plain .retire 0 0) .never (fun x => x.s.pure) (fun x =>
          (x.s.team? ⟨0, 0⟩).map (·.ending) = some .no) = true := by decide +kernel

theorem witness_PhasesAndCountersComplete_qstat :
    let f := fun n => { plain .qstat (m 11 n) 0 with a := if n = 1 ∨ n = 2 then 4 else 0, b := if n = 0 then 9 else 0 }
    ([1, 2].all (fun n => readyWithAt phased .qstat (f n) .fields (fun x => x.s.pure) (fun x =>
        match x.s.virtualAccess ⟨0, 0⟩ .read (x.s.self.uniformLane (f n)) (laneVal x.a 0) 128 with
        | (s1, .ok a) => decide ((s1.descriptorOf a).map (fun d => (d.1, d.2.2)) = some (0, 0))
        | _ => false))) = true
      ∧ readyWithAt phased .qstat (f 0) .fields (fun x => do
          check (x.s.ownLaunch.isSome && x.s.stageOk (num32 x.b)) .illegalOperand
          x.s.pure) (fun x => decide (x.s.ownLaunch = some (0, launch))) = true
      ∧ readyWithAt phased .qstat (f 3) .fields (fun x => do
          check (x.s.ownLaunch.isSome && true) .illegalOperand
          x.s.pure) (fun x => decide (x.s.ownLaunch = some (0, launch))) = true := by decide +kernel

theorem witness_IllegalWordsEnterTheHandler :
    (0x000007F8#32).extractLsb' 3 8 = 0xFF ∧ (0x000000E0#32).extractLsb' 3 8 ≠ 0xFF
      ∧ Op.ofOp8 ((0x000000E0#32).extractLsb' 3 8) = none ∧ Op.ofOp8 0xFF = none ∧ handled.selfAttrs.decode = 9
      ∧ handled.handler ⟨0, 0⟩ .illegalInstruction = some (va 0x30000) ∧ handled.self.sup = false
      ∧ handled.self.spFinal + 128 ≤ handled.self.limit ∧ handled.self.skidLeft = none ∧ handled.self.copies = []
      ∧ Memory.wf handled.self.stack = true ∧ (handled.group? handled.issuing).isSome = true := by decide +kernel

/-- The canonical memory of bytes from an address up. -/
def cellsFrom (a : Nat) : List Byte → Memory
  | [] => []
  | b :: rest => if b = 0 then cellsFrom (a + 1) rest else (a, b) :: cellsFrom (a + 1) rest

theorem read_cellsFrom (bs : List Byte) (a x : Nat) : (cellsFrom a bs).read x = if x < a then 0 else bs.getD (x - a) 0 := by
  induction bs generalizing a with
  | nil => simp [cellsFrom, Memory.read]
  | cons b rest ih =>
    have hx : ∀ y, x - a = y + 1 → (b :: rest).getD (x - a) 0 = rest.getD (x - (a + 1)) 0 := fun y hy => by
      rw [hy, show x - (a + 1) = y by omega]; rfl
    have h0 : x = a → (b :: rest).getD (x - a) 0 = b := fun h => by subst h; simp
    rw [cellsFrom]
    split
    · rw [ih]; rename_i hb
      rcases Nat.lt_trichotomy x a with h | h | h
      · simp [h, Nat.lt_succ_of_lt h]
      · subst h; simp [hb]
      · rw [if_neg (by omega), if_neg (by omega), hx (x - a - 1) (by omega)]
    · rw [Memory.read]
      rcases Nat.lt_trichotomy x a with h | h | h
      · simp [h]; omega
      · subst h; simp
      · rw [if_neg (by omega), if_neg (by omega), ih, if_neg (by omega), if_neg (by omega), hx (x - a - 1) (by omega)]

theorem readBytes_cellsFrom (bs : List Byte) (a off n : Nat) (h : off + n ≤ bs.length) :
    (cellsFrom a bs).readBytes (a + off) n = (bs.drop off).take n := by
  apply List.ext_getElem
  · simp [Memory.readBytes]; omega
  · intro i h1 h2
    simp only [Memory.readBytes, List.length_map, List.length_range] at h1
    simp only [Memory.readBytes, List.getElem_map, List.getElem_range, read_cellsFrom, List.getElem_take, List.getElem_drop]
    rw [if_neg (by omega), show a + off + i - a = off + i by omega]
    exact (List.getElem_eq_getD 0).symm

theorem permute_length (a : List Nat) (h : a.length = 25) : (permute a).length = 25 := by
  have fold : ∀ (cs : List Nat) (a : List Nat), a.length = 25 → (cs.foldl (hashRound hashTurns) a).length = 25 := by
    intro cs
    induction cs with
    | nil => exact fun _ h => h
    | cons c rest ih =>
      intro a _
      refine ih _ ?_
      have hr : ∀ (f : Nat → Nat) (c : Nat), (match (List.range 25).map f with
          | first :: rest => (first ^^^ c) :: rest
          | [] => []).length = 25 := by
        intro f c
        rw [List.range_succ_eq_map]
        simp
      exact hr _ _
  exact fold _ a h

theorem absorb_length (rate : Nat) (n : Nat) (m : List Byte) (a : List Nat) (h : a.length = 25) :
    (absorb rate m a n).length = 25 := by
  induction n generalizing m a with
  | zero => exact h
  | succ n ih => exact ih _ _ (permute_length _ (by simp [blockLanes, h]))

theorem laneBytes_length (a : List Nat) : (laneBytes a).length = 8 * a.length := by
  induction a with
  | nil => rfl
  | cons x rest ih =>
    have h : (laneBytes (x :: rest)).length = 8 + (laneBytes rest).length := by
      simp [laneBytes, bytesOfNum]; omega
    rw [h, ih, List.length_cons]; omega

theorem shake256_length (m : List Byte) : (shake256 64 m).length = 64 := by
  have h := absorb_length 136 ((m ++ padding 136 0x1F m.length).length / 136) (m ++ padding 136 0x1F m.length)
    (List.replicate 25 0) (List.length_replicate ..)
  have one : ∀ a, squeeze 136 a (64 / 136 + 1) = (laneBytes a).take 136 ++ [] := fun _ => rfl
  rw [shake256, sponge, one, List.length_take, List.append_nil, List.length_take, laneBytes_length, h]
  rfl

/-! ### A key whose high parts are 0, and a signature of zeros -/

def zeroKey : List Byte := List.replicate 2592 0
def zeroMask : List Byte := packMask Poly.zero

theorem products_with_zero (k n : Nat) (xs : List Nat) (hk : k ≤ xs.length) (hn : k ≤ n) :
    ((xs.zip (List.replicate n 0)).take k).map (fun c => c.1 * c.2 % dsaQ) = List.replicate k 0 := by
  rw [List.eq_replicate_iff]
  constructor
  · simp; omega
  · intro b hb
    obtain ⟨c, hc, rfl⟩ := List.mem_map.mp hb
    have := List.eq_of_mem_replicate (List.of_mem_zip (List.mem_of_mem_take hc : (c.1, c.2) ∈ _)).2
    simp [this]

theorem poly_zero_length : Poly.zero.length = 256 := by decide +kernel

theorem poly_mul_zero (x : Poly) : Poly.mul x Poly.zero = Poly.zero := by
  rw [Poly.mul, show Poly.zero ++ Poly.zero = List.replicate 512 0 by decide +kernel]
  exact products_with_zero 256 512 _ (by rw [List.length_append, poly_zero_length]; omega) (by omega)

theorem poly_ntt_zero : ntt Poly.zero = Poly.zero := by decide +kernel
theorem poly_intt_zero : intt (Poly.sub Poly.zero Poly.zero) = Poly.zero := by decide +kernel
theorem poly_add_zero : Poly.add Poly.zero Poly.zero = Poly.zero := by decide +kernel

theorem row_zero (rho : List Byte) (r : Nat) : dsaRow rho r (List.replicate 7 Poly.zero) = Poly.zero := by
  have step : ∀ (es : List (Nat × Poly)), (∀ e ∈ es, e.2 = Poly.zero) →
      es.foldl (fun acc cv => Poly.add acc (Poly.mul (dsaElement rho r cv.1) cv.2)) Poly.zero = Poly.zero := by
    intro es
    induction es with
    | nil => exact fun _ => rfl
    | cons e rest ih =>
      intro h
      rw [List.foldl_cons, h e (List.mem_cons_self ..), poly_mul_zero, poly_add_zero]
      exact ih (fun x hx => h x (List.mem_cons_of_mem _ hx))
  exact step _ (fun e he => List.eq_of_mem_replicate (List.of_mem_zip (he : (e.1, e.2) ∈ _)).2)

/-- The high parts that a signature of zeros gives under that key. -/
def zeroTops : List (List Nat) := List.replicate 8 (List.replicate 256 0)

theorem tops_zero (hash : List Byte) :
    signedTops zeroKey hash (List.replicate 7 Poly.zero) (List.replicate 8 []) = zeroTops := by
  have t1 : ∀ r < 8, ntt (Poly.scale (2 ^ 13) (unpackBits 10 (zeroKey.drop (32 + 320 * r)))) = Poly.zero := by decide +kernel
  have hat : (List.replicate 7 Poly.zero).map ntt = List.replicate 7 Poly.zero := by
    rw [List.map_replicate, poly_ntt_zero]
  have tops : ∀ r < 8, ((List.range 256).zip Poly.zero).map (fun x =>
      useHint (((List.replicate 8 ([] : List Nat)).getD r []).contains x.1) x.2) = List.replicate 256 0 := by decide +kernel
  rw [signedTops, zeroTops, List.eq_replicate_iff]
  refine ⟨by simp, fun b hb => ?_⟩
  obtain ⟨r, hr, rfl⟩ := List.mem_map.mp hb
  have hr := List.mem_range.mp hr
  simp only [t1 r hr, hat, row_zero, poly_mul_zero, poly_intt_zero, tops r hr]

/-- The signature of zeros, with the commitment hash of those high parts, of a message. -/
def zeroSignature (m : List Byte) : List Byte :=
  commitment (messageHash zeroKey m) zeroTops ++ (List.replicate 7 zeroMask).flatMap id ++ List.replicate 83 0

theorem hash_length (m : List Byte) : (commitment (messageHash zeroKey m) zeroTops).length = 64 := shake256_length _

theorem zeroSignature_length (m : List Byte) : (zeroSignature m).length = 4627 := by
  rw [zeroSignature, List.length_append, List.length_append, hash_length m]
  decide +kernel

theorem zeroSignature_verifies (m : List Byte) : mlDsaVerify zeroKey m (zeroSignature m) = true := by
  have hl := hash_length m
  have take_ : (zeroSignature m).take 64 = commitment (messageHash zeroKey m) zeroTops := by
    rw [zeroSignature, List.append_assoc, List.take_left' hl]
  have drop_ : ∀ n, (zeroSignature m).drop (64 + n) = ((List.replicate 7 zeroMask).flatMap id ++ List.replicate 83 0).drop n := by
    intro n
    rw [zeroSignature, List.append_assoc, ← List.drop_drop, List.drop_left' hl]
  have z : (List.range 7).map (fun i => unpackMask ((zeroSignature m).drop (64 + 640 * i))) = List.replicate 7 Poly.zero := by
    simp only [drop_]
    decide +kernel
  have hints : unpackHint (((zeroSignature m).drop 4544).map (·.toNat)) 0 0 8 = some (List.replicate 8 []) := by
    rw [show 4544 = 64 + 4480 by rfl, drop_]
    decide +kernel
  rw [mlDsaVerify]
  simp only [hints, z, take_, tops_zero, zeroSignature_length]
  decide +kernel

/-- The header of an image of SVN 3 with a Pilot image of 8 bytes and a Tug image of 4, and those images. -/
def imageStart : List Byte := [0x47, 0x5A, 0x57, 0x4D, 3, 0, 0, 0, 8, 0, 0, 0, 4, 0, 0, 0, 1, 2, 3, 4, 5, 6, 7, 8, 9, 10, 11, 12]

/-- Good inputs under that key, and a failed training. -/
def start (trained : Bool) : StartInput := ⟨1, 2, 3, trained, true, 0, sha3 zeroKey, zeroKey⟩

/-- The base state with the signed image at host address 0x1000 of function 0, which MBOX names, in a state of the module. -/
def imaged (st : ModuleState) : State :=
  { base with
    hostMem := [(0, cellsFrom 0x1000 (imageStart ++ zeroSignature imageStart))],
    security := { base.security with state := st, mbox := 0x1000, minSvn := 3, started := true, vendorDigest := sha3 zeroKey } }

theorem imaged_startImage (st : ModuleState) (off n : Nat) (h : off + n ≤ 4655) :
    (imaged st).startImage off n = ((imageStart ++ zeroSignature imageStart).drop off).take n :=
  readBytes_cellsFrom _ 0x1000 off n (by rw [List.length_append, zeroSignature_length]; exact h)

theorem imaged_imageField (st : ModuleState) (off : Nat) (h : off + 4 ≤ 16) :
    (imaged st).imageField off = numOfBytes ((imageStart.drop off).take 4) := by
  rw [show (imaged st).imageField off = numOfBytes ((imaged st).startImage off 4) from rfl, imaged_startImage st off 4 (by omega),
    List.drop_append_of_le_length (by simp [imageStart]; omega), List.take_append_of_le_length (by simp [imageStart]; omega)]

/-- The image passes its checks in each state: its fields, and its signature under the key whose digest is fused. -/
theorem witness_StartsPowerAndAuditComplete_image (st : ModuleState) :
    (imaged st).imageField 0 = 0x4D575A47 ∧ (imaged st).imageField 4 = 3 ∧ (imaged st).imageField 8 = 8
      ∧ (imaged st).imageField 12 = 4 ∧ sha3 (start true).vendorKey = (start true).vendorDigest
      ∧ sha3 (start true).vendorKey = (imaged st).security.vendorDigest
      ∧ mlDsaVerify (start true).vendorKey ((imaged st).startImage 0 28) ((imaged st).startImage 28 4627) = true := by
  rw [imaged_imageField st 0 (by omega), imaged_imageField st 4 (by omega), imaged_imageField st 8 (by omega),
    imaged_imageField st 12 (by omega), imaged_startImage st 0 28 (by omega), imaged_startImage st 28 4627 (by omega)]
  refine ⟨by decide, by decide, by decide, by decide, rfl, rfl, ?_⟩
  rw [List.drop_zero, List.take_left' (by decide), List.drop_left' (by decide), List.take_of_length_le (Nat.le_of_eq (zeroSignature_length _))]
  exact zeroSignature_verifies _

theorem witness_StartsPowerAndAuditComplete :
    (start true).trained = true ∧ (start true).selfTest = true ∧ (start true).minSvn ≤ 3
      ∧ (imaged .running).security.minSvn ≤ 3 ∧ (imaged .running).security.powered = true
      ∧ (imaged .running).security.started = true ∧ base.security.started = false
      ∧ (imaged .running).security.state ≠ .safe ∧ Memory.wf (imaged .running).mem = true
      ∧ ((start false).trained && (start false).selfTest) = false ∧ base.imageField 0 ≠ 0x4D575A47
      ∧ base.security.powered = true ∧ base.security.state = .running ∧ State.reset.security.state = .starting
      ∧ (safeAt .sub).security.state = .safe ∧ (safeAt .sub).security.powered = true := by
  refine ⟨rfl, rfl, ?_, ?_, rfl, rfl, ?_⟩ <;> decide +kernel

/-- Extensions of MEAS5 and MEAS7, a report at the last place that it fits, an append with one place left, and a spill. -/
theorem witness_StartsPowerAndAuditComplete_audit :
    let e : AuditEntry := ⟨0, List.replicate 64 1, 0⟩
    let full := { base with security := { base.security with ring := [e], unspilled := 1, nextSeq := 1, spillM := 9 } }
    (0x105#32).toNat.testBit 8 = true ∧ 5 ≤ (0x107#32).toNat % 8 ∧ base.security.meas.length = 8
      ∧ base.unwritable 0x10000 0x1500 = false ∧ base.unwritable 0xE00000000000 0x1500 = true
      ∧ base.unwritable 0x0FF000000000 0x1500 = true
      ∧ base.security.unspilled < 512 ∧ full.security.unspilled ≠ 0
      ∧ full.security.ring.find? (fun x => x.seq = full.security.nextSeq - full.security.unspilled) = some e
      ∧ full.security.lostDue = 0 ∧ e.body.length = 64 ∧ Memory.wf (Table.get full.hostMem [] 0) = true := by decide +kernel

/-- A context to create, one to release, one with a team, and a core to assign, clean and not. -/
theorem witness_ContextsAndAssignmentComplete :
    let ready := { State.reset with contexts := [(1, { Context.cold with root := 0x2000, func := 64 })] }
    let made := { State.reset with contexts := [(1, { Context.cold with root := 0x2000, func := 64, valid := true })] }
    (ready.context 1).valid = false ∧ (ready.context 1).root ≠ 0 ∧ (ready.context 1).func ≤ 64 ∧ ready.funcTaken 1 64 = false
      ∧ (made.context 1).valid = true ∧ made.hasTeam 1 = false ∧ made.hasMappedQueue 1 = false ∧ (made.context 1).debugger = false
      ∧ (base.context 0).valid = true ∧ base.hasTeam 0 = true ∧ (0x81#64).toNat / 2 ^ 7 % 2 = 1 ∧ (0x81#64).toNat % 64 = 1
      ∧ (made.core 5).scrubDue = none ∧ (made.core 5).occupied = false ∧ (made.core 5).fenced = false ∧ (made.core 5).clean = true
      ∧ (base.core 0).occupied = true := by decide +kernel
/-- Bytes in memory: `n` bytes of `x` at each address. -/
def put (s : State) (xs : List (Nat × Nat × Nat)) : State :=
  { s with mem := xs.foldl (fun mm x => Memory.writeNum mm x.1 x.2.1 x.2.2) s.mem }

/-- A walk that ends at a leaf, of a canonical address, in no remote range. -/
theorem witness_TranslationEventsComplete :
    let c := base.context 0
    let w := walkChecked base.mem ((va 0x10000).toNat % 2 ^ 56) 3 c.root
    c.valid = true ∧ (va 0x10000).toNat / 2 ^ 56 = 0xFF ∧ c.remoteOf (va 0x10000).toNat = none ∧ w.result = .leaf
      ∧ w.entry.testBit 2 = true ∧ Memory.wf base.mem = true ∧ (0x1000#64).msb = false ∧ base.queuesOf 0 = [] := by decide +kernel

/-- A group held for a page, and a shootdown under way. -/
theorem witness_TranslationEventsComplete_held :
    let s := withGroup (fun g => { g with status := .hostHeld (va 0) })
    let s := { s with
      contexts := Table.modify s.contexts 0 (fun c => { c with hostRequests := [⟨va 0, [⟨0, 0⟩], []⟩] }),
      shootdowns := [⟨7, 0, 0xFF00001000000000, 0xFF00001000010000, none, none⟩] }
    (s.context 0).hostRequests.find? (fun x => x.page = va 0) = some ⟨va 0, [⟨0, 0⟩], []⟩
      ∧ (s.group ⟨0, 0⟩).status = .hostHeld (va 0) ∧ (s.group? ⟨0, 0⟩).isSome = true ∧ [(⟨0, 0⟩ : GroupRef)].Nodup
      ∧ (s.shootdowns.find? (fun y => y.id = 7)).map (·.packet) = some none := by decide +kernel

/-- Up to 8 bytes of device memory, the last below a window among them; an address that its context maps; and links. -/
theorem witness_OutsideAccessesComplete :
    (∀ j < 8, placeOf (0x10100 + j) = .mem (0x10100 + j)) ∧ Memory.wf base.mem = true ∧ (base.context 0).valid = true
      ∧ (match base.spotsAt true 0 .atomic (va 0x10100) 8 with
          | .ok ps => decide (ps = (List.range 8).map (fun j => Spot.device (.mem (0x10100 + j))))
          | .error _ => false) = true
      ∧ Memory.wf ((chunksOf (va 0x10100) 8).foldl (fun y c => y.markDirtyHere 0 c.1) base).mem = true ∧ base.links.up.length = 18 ∧ base.links.peer.length = 18
      ∧ ((2 : Word) - 0xFFFFFFFE).toNat ≤ (4 : Word).toNat ∧ (4 : Word).toNat < ((3 : Word) - 0xFFFFFFFE).toNat
      ∧ base.security.state ≠ .safe := by decide +kernel

/-- Queue 0 with its QCB at 0x300000, a ring of 16 packets at `va 0x310000`, and packets as given that the front end has read. -/
def queued (ps : List Packet) : State :=
  let s := put base [(0x300000, 8, (va 0x310000).toNat), (0x300008, 4, 16)]
  { s with front := { s.front with runList := [(0, ⟨0x300000, 0, true⟩), (1, ⟨0x300000, 0, true⟩)]
                                   queues := [(0, ⟨ps, [], [], [], false, false, []⟩)] } }

/-- The same, in hardware slot 3. -/
def mapped (ps : List Packet) : State :=
  { queued ps with front := { (queued ps).front with slots := [(3, 0)] } }

/-- A doorbell at the end of the ring and past it; queues that are in a slot and in none. -/
theorem witness_QueueOperationsComplete :
    let s := queued []
    (s.runEntry 0).valid = true ∧ s.qcbValid 0 = true ∧ (s.qState 0).testBit 0 = false ∧ (s.qState 0).testBit 2 = false
      ∧ Memory.wf s.mem = true ∧ s.qcbField 0 8 4 = 16 ∧ (16#64 - BitVec.ofNat 64 (s.qcbField 0 0x10 8)).toNat ≤ 16
      ∧ 16 < (17#64 - BitVec.ofNat 64 (s.qcbField 0 0x10 8)).toNat ∧ s.isAttached 0 = false ∧ (mapped []).isAttached 0 = true
      ∧ Table.find s.front.slots 3 = none ∧ s.mappable 0 = true ∧ (mapped []).mappable 0 = false
      ∧ Table.find (mapped []).front.slots 3 = some 0 ∧ ((mapped []).frontQueue 0).packets = []
      ∧ ((mapped []).detach 3).mappable 1 = true ∧ (mapped []).front.launches = [] := by decide +kernel

/-- A queue to be destroyed whose packets have retired. -/
theorem witness_QueueOperationsComplete_destroy :
    let s := (mapped []).modQueue 0 (fun x => { x with destroying := true })
    let u := s.pump 0
    (s.frontQueue 0).destroying = true ∧ u.front.launches = [] ∧ (u.frontQueue 0).packets = []
      ∧ u.qcbField 0 0x10 8 = u.qcbField 0 0x20 8 ∧ ((u.zeroAreas 0).frontQueue 0).areas = [] := by decide +kernel

/-- A packet of a type with ARG, ARG32 and its 64-bit body fields from 0x10 on. -/
def packet (type arg arg32 : Nat) (fields : List Nat) : Packet :=
  { index := 0, progress := .waiting, bad := false
    bytes := [BitVec.ofNat 8 type, 0] ++ bytesOfNum 2 arg ++ bytesOfNum 4 arg32 ++ bytesOfNum 8 0
      ++ (fields ++ List.replicate (6 - fields.length) 0).flatMap (bytesOfNum 8) }

/-- Each kind of packet may start: NOP, SIGNAL, COPY, BARRIER of two signals, PRED, INVAL of one page, and MARKER. -/
theorem witness_PacketsComplete :
    ([packet 0 0 0 [], packet 3 1 0 [(va 0x10100).toNat, 5], packet 4 0 0 [(va 0x10100).toNat, (va 0x10200).toNat, 8]
      , packet 2 (2 + 3 * 8) 0 [(va 0x10100).toNat, (va 0x10108).toNat], packet 5 0 0 [(va 0x10100).toNat, 0]
      , packet 6 0 0 [(va 0).toNat, 65536], packet 6 1 0 [(va 0).toNat, 65536], packet 7 0 0 [(va 0x10100).toNat]].all (fun p =>
        ((mapped [p]).currentPacket 0 p.type).map (·.1) = some p)) = true := by decide +kernel

/-- Their addresses are translated, a started COPY and a started BARRIER whose conditions hold among them. -/
theorem witness_PacketsComplete_started :
    let on := fun (p : Packet) => { p with progress := .started }
    let copy := on (packet 4 0 0 [(va 0x10100).toNat, (va 0x10200).toNat, 8])
    let bar := on (packet 2 (2 + 3 * 8) 0 [(va 0x10100).toNat, (va 0x10108).toNat])
    ((mapped [copy]).frontQueue 0).packets.find? (fun y => y.index = 0 && y.progress = .started && y.type = 4) = some copy
      ∧ ((mapped [copy]).spotsUpTo 0 .read (copy.field 0x10) 8).2 = none
      ∧ ((mapped [copy]).spotsUpTo 0 .write (copy.field 0x18) 8).2 = none
      ∧ ((mapped [bar]).frontQueue 0).packets.find? (fun y => y.progress = .started && y.type = 2) = some bar
      ∧ ((barrierSignals bar.bytes).all (fun a => match (mapped [bar]).readPlain 0 a 8 with
          | .ok bs => decide (bs = bytesOfNum 8 0) | .error _ => false)) = true
      ∧ condHolds 3 0 0 = true ∧ condHolds 0 0 0 = true ∧ barrierSignals (packet 2 0 0 []).bytes = []
      ∧ (match (mapped []).signal 0 (va 0x10100) true 5 with | .ok _ => true | .error _ => false) = true
      ∧ (match (mapped []).writePlain 0 (va 0x10100) (bytesOfNum 8 3) with | .ok _ => true | .error _ => false) = true := by
  decide +kernel

/-- A LAUNCH of one ticket: its kernel header with one stage and one variant, its parameter block and its area. -/
theorem witness_PacketsComplete_launch :
    let p := packet 1 0 0 [(va 0x400000).toNat, (va 0x410000).toNat, 1 + 2 ^ 32 + 2 ^ 48]
    let s := put (mapped [p]) [(0x400000, 4, 0x394B5A47), (0x400004, 2, 0x0909), (0x400008, 2, 0x1000 + 60), (0x400014, 4, 0x00010101)
      , (0x400018, 4, 4), (0x40001C, 4, 1024), (0x400020, 4, 256), (0x400024, 4, 288), (0x400028, 4, 320), (0x400100, 4, 8)
      , (0x400105, 1, 1), (0x400120, 4, 0xFFFFFFFF), (0x400128, 2, 0x0100), (0x410048, 8, (va 0x420000).toNat), (0x410050, 8, 65536)]
    ((s.currentPacket 0 1).map (·.1) = some p)
      ∧ (match s.checkLaunch 0 p with | .ok x => decide (x.2 = 1 ∧ x.1.frames = [0x420000]) | .error _ => false) = true := by
  decide +kernel

/-- A packet with no signal, and a signal in device memory. -/
theorem witness_PacketsComplete_signals :
    let p := packet 0 0 0 []
    ((mapped [p]).frontQueue 0).packets.find? (fun y => y.index = 0) = some p ∧ p.complete = false ∧ p.compl = 0 ∧ p.intr = false
      ∧ ([AccessKind.atomic, .write].all (fun k => match (mapped [p]).spotsPlain 0 k (va 0x10100) 8 with
          | .ok ps => decide (ps = (List.range 8).map (fun j => Spot.device (.mem (0x10100 + j)))) | .error _ => false)) = true
      ∧ Memory.wf ((mapped [p]).markDirty 0 (va 0x10100)).mem = true := by decide +kernel

/-- The base state with a debugger of context 0, a request that names its group, and its team and group as given. -/
def debugged (e : Ending) (st : Status) (kind num : Nat) : State :=
  let s := { base with dbg := { DebugRegs.cold with kind := kind, num := num, data := List.replicate 32 0xFF000000 } }
  let s := { s with contexts := Table.modify s.contexts 0 (fun c => { c with debugger := true }) }
  (s.modTeam ⟨0, 0⟩ (fun t => { t with ending := e })).modGroup ⟨0, 0⟩ (fun g => { g with status := st })

theorem witness_DebugRequestsComplete :
    (base.context base.dbg.ctx).valid = true ∧ (base.context base.dbg.ctx).debugger = false
      ∧ ((debugged .no .running 0 1).context 0).debugger = true ∧ (debugged .no .running 0 1).debugCheck false false = 0
      ∧ ((debugged .no .running 0 1).team? (debugged .no .running 0 1).debugTeam).map (·.ending) = some .no
      ∧ (debugged .stop .halted 0 1).debugCheck false true = 0
      ∧ ((debugged .stop .halted 0 1).group ⟨0, 0⟩).status = .halted := by decide +kernel

/-- Objects of each kind that a READ and a WRITE may name, at the ends of their ranges. -/
theorem witness_DebugRequestsComplete_objects :
    ([(0, 1), (0, 12), (1, 0), (1, 63), (5, 0), (5, 6), (6, 0), (8, 0)].all (fun k =>
      let s := debugged .stop .halted k.1 k.2
      s.debugCheck true true = 0 && !s.debugPending && !s.debugDead)) = true
      ∧ (debugged .stop .halted 0 20).debugFull = false ∧ Memory.wf (base.core 0).win = true := by
  decide +kernel

/-- A residency clock at each limit, and a team that is killed with its group running and settled. -/
theorem witness_WatchdogAndKillsComplete :
    let at_ : Nat → State := fun us => { launched with cycle := us * 3300 }
    let kill := launched.modTeam ⟨0, 0⟩ (fun t => { t with ending := .kill 0x28 })
    let gone := kill.modGroup ⟨0, 0⟩ (fun g => { g with status := .halted })
    ([(10, 10), (20, 20), (30, 30)].all (fun x => ((at_ x.1).team? ⟨0, 0⟩).any (fun t =>
        decide ((at_ x.1).clockReached t x.2 = true ∧ t.ending = .no ∧ (at_ x.1).launch? t.launch = some launch)))) = true
      ∧ (kill.teamOf ⟨0, 0⟩).map (·.ending) = some (.kill 0x28) ∧ (kill.group ⟨0, 0⟩).status = .running
      ∧ (kill.group ⟨0, 0⟩).skidLeft = none
      ∧ (gone.team? ⟨0, 0⟩).any (fun t => decide (gone.liveSlots ⟨0, 0⟩ t = [] ∧ gone.commandsOut ⟨0, 0⟩ = false
          ∧ gone.loadsOut ⟨0, 0⟩ t = false)) = true
      ∧ (kill.modCore 0 (fun k => { k with barrel := List.replicate 16 none })).isIssuing ⟨0, 0⟩ = false := by decide +kernel

/-- A launch with four tickets assigned to core 1, which is free and holds its context. -/
theorem witness_SchedulersComplete :
    let s := (launched.modCore 1 (fun k => { k with ctx := some 0, clean := false }))
    let a : Assignment := ⟨1, [], [0]⟩
    let s := { s with front := { s.front with assignments := [a] } }
    s.front.assignments.find? (fun y => y.core = 1) = some a ∧ s.launch? 0 = some launch ∧ s.takesTeams 1 0 = true
      ∧ s.front.evicted = [] ∧ s.launchField launch recNext 8 < s.launchField launch recTotal 8
      ∧ launch.pinOf 0 = none ∧ (launch.header.select 0 launch.size).isSome = true
      ∧ (launch.header.variants.head?.bind (fun v => (s.core 1).reserve launch.header v 0)).any (fun x => decide x.slots.Nodup)
        = true
      ∧ Memory.wf s.mem = true := by decide +kernel

/-- A stage with a record in its queue, assigned to no core, and a core that takes teams of its launch's context. -/
theorem witness_SchedulersComplete_owed :
    let s := { launched.modCore 1 (fun k => { k with ctx := some 0, clean := false }) with
      mem := Memory.writeNum launched.mem (0x100080 + 0x20) 8 1 }
    (0, 0) ∈ s.owedStages ∧ (s.launch? 0).isSome = true ∧ s.takesTeams 1 0 = true := by decide +kernel

/-- A team whose one group waits at a barrier is at a pre-emption point, and the save area has room. -/
theorem witness_SchedulersComplete_eviction :
    let s := launched.modGroup ⟨0, 0⟩ (fun g => { g with status := .waiting (.barrier 0 0) })
    ((s.team? ⟨0, 0⟩).any (fun t => s.atPoint ⟨0, 0⟩ t
      && (s.saveRoom 0 launch (4096 + t.scratchBytes + 40960 * t.slots.length + 256)).isSome)) = true := by decide +kernel
/-- A run of 64 and of 63, a stall past the threshold, and a sleep that is over. -/
theorem witness_RunsAndWakesComplete :
    let run := fun n => withGroup (fun g => { g with run := n })
    let stalled := withGroup (fun g => { g with stall := 513 })
    let sleeper := withGroup (fun g => { g with hold := .sleep 0, status := .swapped })
    let fetching := withGroup (fun g => { g with hold := .fetch })
    let off := withCore (fun k => { k with swapth := 0 })
    64 ≤ ((run 64).group ⟨0, 0⟩).run ∧ ((run 63).group ⟨0, 0⟩).run < 64 ∧ ((run 64).group ⟨0, 0⟩).status = .running
      ∧ (stalled.core 0).swapth = 512 ∧ (stalled.group ⟨0, 0⟩).stall = 513 ∧ (off.core 0).swapth = 0
      ∧ (sleeper.group ⟨0, 0⟩).hold = .sleep 0 ∧ 0 ≤ sleeper.time ∧ (sleeper.group ⟨0, 0⟩).status = .swapped
      ∧ (fetching.group ⟨0, 0⟩).hold = .fetch ∧ 0 / 16 < (base.core 0).ready.length := by decide +kernel

/-- A result that may return, and a store in the buffer alone and after one that meets none of its bytes. -/
theorem witness_ReturnsStoresAndStackBlocksComplete :
    let o : Outstanding := ⟨5, [(.v 2, Lanes.splat 9)], 0xF, false, false, 0, []⟩
    let s := withGroup (fun g => { g with outstanding := [o] })
    let g := (s.settle ⟨0, 0⟩).group ⟨0, 0⟩
    let b : Nat → Nat → BufferedStore := fun id a => ⟨id, 0, 0, false, false, 0, [(a, 7)], false⟩
    let stores := [b 1 0x10100, b 2 0x10101]
    let s2 := withCore (fun k => { k with stores := stores })
    g.outstanding.find? (fun x => x.id = 5) = some o ∧ g.mayReturn s.cycle o = true ∧ s.shootdowns = []
      ∧ (o.regs.map (·.1)).Nodup ∧ (Table.find g.v 2).isSome = true
      ∧ (s2.core 0).stores.find? (fun x => x.id = 2) = some (b 2 0x10101)
      ∧ ((s2.core 0).stores.takeWhile (fun x => x.id ≠ 2)).all (fun x => x.cells.all (fun c => c.1 ≠ 0x10101)) = true := by
  decide +kernel

/-- The first and the last block of the stack, and one that its page backs. -/
theorem witness_ReturnsStoresAndStackBlocksComplete_blocks :
    let s := withGroup (fun g => { g with backed := [0] })
    let plain_ := fun (x : State × Except Miss (List Spot)) => match x.2 with
      | .ok ps => ps.all (fun p => match p with | .device (.mem _) => true | _ => false)
      | .error _ => false
    plain_ (base.blockSpots ⟨0, 0⟩ .write 0) = true ∧ plain_ (base.blockSpots ⟨0, 0⟩ .write 255) = true
      ∧ 4080 < (base.group ⟨0, 0⟩).limit ∧ (base.group ⟨0, 0⟩).missing = [] ∧ plain_ (s.blockSpots ⟨0, 0⟩ .read 0) = true
      ∧ 0 ∈ (s.group ⟨0, 0⟩).backed ∧ Memory.wf (s.group ⟨0, 0⟩).stack = true
      ∧ Memory.wf (base.markDirty (base.attrs ⟨0, 0⟩).ctx ((base.group ⟨0, 0⟩).blockAddr 255)).mem = true := by decide +kernel

/-- A crn.set of the box of the record at `va 0x60000`. -/
def craneCommand (op : CraneOp) : CraneCommand :=
  { id := 9, op := op, team := 0, slot := 0, ctx := 0, user := true, physical := false, berth := some 0, ring := none
    a := va 0x60000, c := 5, coords := List.replicate 32 0, counter := none, scratchBase := 0, scratchBytes := 4096, mask := 9
    begun := false, reserved := none, awaits := none, awaitsAt := 0, fault := none, read := [], rows := none, walker := none }

/-- The engines' state with commands in Crane queue 0 and a record of a box of two words in memory. -/
def craned (cs : List CraneCommand) : State :=
  (put engines [(0x60000, 8, (va 0x61000).toNat), (0x60018, 2, 0x0101), (0x60020, 4, 4), (0x60024, 2, 2), (0x60026, 6, 4)]).modCore 0
    (fun k => { k with crane := [cs, [], [], []] })

/-- The engines' state with every queue of core 0 full. -/
def crowded : State :=
  engines.modCore 0 (fun k => { k with
    crane := List.replicate 4 (List.replicate 16 (craneCommand .ld)), drain := List.replicate 8 drain,
    matrix := { k.matrix with queue := List.replicate 8 mmaCommand },
    surrogate := { k.surrogate with queue := List.replicate 16 (.evict 0 0) } })

/-- Engines with room and no other group that waits, and engines whose queues are full. -/
theorem witness_requests :
    ([Awaited.crane 1, .matrix, .drain, .surrogate].all (fun a => engines.accepts ⟨0, 0⟩ a && !crowded.accepts ⟨0, 0⟩ a)) = true
      ∧ (engines.core 0).groups.all (fun e => decide (e.1 = 0)) = true
      ∧ readyWithAt crowded .crnLd (crane .crnLd) .fields (craneChecks .ld (crane .crnLd)) (fun x =>
          decide (((x.s.core 0).berth 0).state ≠ .busy)) = true
      ∧ readyWithAt crowded .mzero (plain .mzero 0 0) .sources (matrixChecks .mzero (plain .mzero 0 0)) (fun _ => true) = true := by
  decide +kernel

theorem witness_CraneQueuesRunTheirCommands :
    let c := craneCommand .set
    let s := craned [c]
    let fence := { craneCommand .fence with berth := none }
    let f := (craned [fence]).modCore 0 (fun k => { k with crane := [[fence], [], [], [fence]] })
    (s.core 0).crane.length = 4 ∧ (s.core 0).crane.getD 0 [] = [c] ∧ c.fault = none
      ∧ (match (craneTransfer 0 0 c c.job).run s with | (.ok b, _) => b | _ => false) = true
      ∧ (∀ q < 4, fence.mask.testBit q = true → (f.craneHead 0 q).map (·.id) = some fence.id) := by decide +kernel

/-- A begun command with nothing to report, with ring bytes to advance, and with a counter to raise. -/
theorem witness_CraneQueuesRunTheirCommands_complete :
    let c := { craneCommand .set with begun := true }
    let s := craned [c]
    let x := { ring with reserved := [⟨9, 128, false⟩] }
    let r := (craned [{ c with ring := some 0, reserved := some (2048, 128) }]).modCore 0 (fun k => { k with rings := [(0, x)] })
    let n := { c with counter := some (va 0x10100) }
    let read := fun (s : State) => (engineCounter (n.as 0) .atomic (va 0x10100)).run s
    s.advancesDone 0 c.id = true ∧ r.ring? 0 0 = some x
      ∧ (r.core 0).rings.all (fun e => decide (if e.1 = 0 then e.2 = x else e.2.released c.id = true)) = true
      ∧ (match read s with
          | (.ok y, u) => decide (u.advancesDone 0 9 = true ∧ y.1 = (List.range 8).map (fun j => Spot.device (.mem (0x10100 + j)))
              ∧ Memory.wf (u.engineDirty (n.as 0) (va 0x10100) 8).mem = true)
          | _ => false) = true := by decide +kernel

/-- A chain whose walker is at the entry at 0, and the entry's words. -/
def chained (words : List Nat) (fenced : Option Nat) : State :=
  let entry := (List.range 4).flatMap (fun i => bytesOfNum 8 (words.getD i 0))
  let w : Walker := { at_ := 0, entry := entry, xs := List.replicate 16 0, bias := 0, counts := [], passed := 0, fenced := fenced }
  let s := craned [{ craneCommand .chain with walker := some w }]
  s.modCore 0 (fun k => { k with win := (List.range words.length).foldl (fun mm i => Memory.writeNum mm (8 * i) 8 (words.getD i 0)) k.win })

/-- The entry that the walker of the chain has read. -/
def entryOf (s : State) : List Byte := ((s.craneHead 0 0).bind (·.walker)).elim [] (·.entry)

/-- An entry of each kind: END, COPY, LOOP at its first and its last count, IFCNT, SIGNAL of both kinds, and FENCE. -/
theorem witness_ChainEntriesComplete :
    let kind := fun (s : State) => ((entryOf s).headD 0).toNat
    let copy := chained [0x0000000000000301, (va 0x60000).toNat, 5, 0] none
    kind (chained [0] none) = 0 ∧ kind (chained [0x200000002] none) = 2 ∧ kind (chained [0x100000002] none) = 2
      ∧ kind (chained [3] none) = 3 ∧ kind (chained [4] none) = 4 ∧ kind (chained [0x0104] none) = 4
      ∧ kind (chained [0x0805] none) = 5 ∧ kind copy = 1
      ∧ chainOp (entryOf copy) = some .set ∧ copy.chainEntry 0 (craneCommand .chain) 0 = entryOf copy
      ∧ (let j : CopyJob := { op := .set, record := va 0x60000, p := 0, c := 0, ring := none, coords := List.replicate 16 0, physical := false, blame := 0 };
          match (craneTransfer 0 0 (craneCommand .chain) j).run copy with | (.ok b, _) => b | _ => false) = true
      ∧ ([AccessKind.read, .write, .atomic].all (fun k =>
          match (engineCounter ((craneCommand .chain).as 0) k (va 0x10100)).run (chained [4] none) with
          | (.ok _, _) => true | _ => false)) = true
      ∧ (chained [0] none).advancesDone 0 9 = true := by decide +kernel

/-- The bounds of the walk: the last entry of the allocation. -/
theorem witness_ChainEntriesComplete_bounds :
    let c := craneCommand .chain
    4064 + 32 ≤ c.scratchBytes ∧ 4064 < c.a.toNat % 2 ^ 32 + 8192
      ∧ (chainEvent (((chained [] none).chainEntry 0 c 4064).headD 0).toNat).isSome = true := by decide +kernel

/-- A drain of one row of one element at the head of the queue, started and not, with no program. -/
theorem witness_DrainQueueRunsItsCommands :
    let at_ : DrainCommand → State := fun c => engines.modCore 0 (fun k => { k with drain := [c] })
    let l := (engines.core 0).latch 0
    let done := { drain with latched := some l, row := 1 }
    let x := { ring with reserved := [⟨0, 128, false⟩] }
    let r := (at_ { done with ring := some 0 }).modCore 0 (fun k => { k with rings := [(0, x)] })
    programOk l.program 1 false = true ∧ ((at_ drain).core 0).matrix.queue = []
      ∧ ((at_ drain).drainRoom 0 drain (appends l.program 1 1)).2 = .ready none
      ∧ (match drainRow l 0 1 32768 (fun _ => 0) [5] with | .ok x => decide (x.dst = none ∧ x.dstr = none) | .error _ => false) = true
      ∧ (at_ done).advancesDone 0 0 = true ∧ r.ring? 0 0 = some x
      ∧ (r.core 0).rings.all (fun e => decide (if e.1 = 0 then e.2 = x else e.2.released 0 = true)) = true
      ∧ Memory.wf (engines.core 0).win = true := by decide +kernel

/-- A row that stores to memory, and one that appends to a ring: dst and dstr of register 0 in f32. -/
theorem witness_DrainQueueRunsItsCommands_row :
    let row := fun (w : Word) => drainRow { (engines.core 0).latch 0 with program := [w], cols := List.replicate 1024 0, rows := List.replicate 256 0 }
      0 1 32768 (fun _ => 0) [5]
    let dst := 16#32 <<< 27 ||| 24#32 <<< 14 ||| 9#32
    let dstr := 17#32 <<< 27 ||| 9#32
    dstrType [dst] = none ∧ dstrType [dstr] = some 9 ∧ dstrType ((engines.core 0).latch 0).program = none
      ∧ (match row dst with | .ok x => x.dst.isSome | .error _ => false) = true
      ∧ (match row dstr with | .ok x => x.dstr.isSome | .error _ => false) = true := by decide +kernel

/-- A surrogate image of one layer of width 1 with a predictor of width 1, in 256 bytes. -/
def image : List Byte :=
  ((Memory.readBytes ((([(0, 4, 0x47535249), (4, 4, 0x01010101), (8, 1, 1), (0x12, 2, 0x0100), (0x18, 4, 256), (0x1C, 4, 128)
    , (0x20, 4, 144)] : List (Nat × Nat × Nat)).foldl (fun mm x => Memory.writeNum mm x.1 x.2.1 x.2.2) [])) 0 256))

/-- The launched state with the call at the head of the surrogate queue, and the image in the store if `res`. -/
def deciding (res : Bool) : State :=
  (called call).modCore 0 (fun k => { k with
    win := Memory.writeBytes k.win 0x05000000 image,
    surrogate := { k.surrogate with queue := [.call 0 [Lanes.splat 7]], resident := if res then [(1, (0, 256))] else [] } })

theorem witness_SurrogateDecisionsComplete :
    ((deciding true).group ⟨0, 0⟩).call = some call ∧ ((deciding true).group ⟨0, 0⟩).status = .running
      ∧ Table.find ((deciding false).core 0).surrogate.resident 1 = none
      ∧ Table.find ((deciding true).core 0).surrogate.resident 1 = some (0, 256)
      ∧ (let x := imageOf (((deciding true).core 0).imageByte 0); x.nin = 1 ∧ x.nout = 1 ∧ x.valid (((deciding true).core 0).imageByte 0) = true)
      ∧ ((((deciding true).core 0).surrogate.copy 1).atDecision 0).1 = true ∧ 2 ≤ (deciding true).slipRoom 0 := by decide +kernel

theorem witness_SurrogateLoadsAndRecoveryComplete :
    let s := { launched with mem := Memory.writeBytes launched.mem 0x10100 image }
    let w : EngineAs := { core := 0, ctx := 0, user := true, sys := false, physical := false }
    (va 0x10100).toNat % 128 = 0 ∧ (va 0x10104).toNat % 128 ≠ 0 ∧ Table.find (s.core 0).surrogate.resident 1 = none
      ∧ (match (fetchImage w (va 0x10100)).run s with
          | (.ok (some bs), _) => decide (bs = image) && (imageOf (fun i => bs.getD i 0)).valid (fun i => bs.getD i 0)
          | _ => false) = true
      ∧ (s.core 0).surrogate.freeRun 256 = some 0 ∧ Memory.wf (s.core 0).win = true := by decide +kernel

/-- A record that has waited long enough, and a slot for its recovery group. -/
theorem witness_SurrogateLoadsAndRecoveryComplete_recovery :
    let x : SlipRecord :=
      { slot := 0, lane := 0, ctx := 0, surrogate := 1, region := 0, body := va 0x8010, firstIn := 1, firstOut := 20, numIn := 1
        numOut := 1, strict := false, launch := 0, inputs := [7], outputs := [0], sample := false, late := false
        relative := false, bound := 0, entered := 0, taken := none, deposited := false, orphan := false }
    let s := { launched.modCore 0 (fun k => { k with surrogate := { k.surrogate with slipway := [x] } }) with cycle := 2000 }
    s.recoveryDue 0 = true ∧ (s.core 0).recoverySlot = some 14 ∧ s.recoveryRecords 0 = [x]
      ∧ 14 / 16 < (s.core 0).ready.length := by decide +kernel

/-- An entry on its way, a bulk push of one entry and of two, a gate that may close, and one that is waking. -/
theorem witness_LiftAndGateStepsComplete :
    let e : LiftEntry := ⟨Lanes.splat 1, false, false⟩
    let b : BulkPush := ⟨0, 0, [Lanes.splat 1, Lanes.splat 2]⟩
    let gate := fun g => State.reset.modCore 1 (fun k => { k with gate := g })
    let s := engines.modCore 0 (fun k => { k with incoming := [{ e with present := true }, e], bulk := [b, { b with entries := [Lanes.splat 3] }] })
    (s.core 0).incoming = [{ e with present := true }] ++ e :: [] ∧ e.present = false
      ∧ (s.core 0).bulk.head? = some b ∧ (s.core (partnerOf 0)).incoming.length + (s.core (partnerOf 0)).taking < 16
      ∧ isUpper 1 = false ∧ (gate .pending |>.core 1).gate = .pending ∧ (gate .pending).gateHolds 1 = true
      ∧ (gate .waking |>.core 1).gateReq = false ∧ (gate .waking |>.core (partnerOf 1)).scrubDue = none
      ∧ Memory.wf (gate .waking |>.core (partnerOf 1)).win = true := by decide +kernel

/-- A register of each kind that is not pending, a line of memory, a matrix command, and a Lift entry. -/
theorem witness_UncorrectableErrorsPoison :
    (base.group? ⟨0, 0⟩).isSome = true ∧ ([Reg.v 1, .v 255, .s 0, .s 63, .k 0, .k 15].all (fun r => !(base.group ⟨0, 0⟩).isPending r)) = true
      ∧ placeOf 0x10100 = .mem 0x10100 ∧ base.front.launches = [] ∧ base.front.evicted = []
      ∧ base.cores.all (fun e => e.2.teams.all (fun x => x.2.dep = 0)
          && e.2.groups.all (fun x => !x.2.waitsOn (0x10100 / 128 * 128) 128)) = true
      ∧ ((matrixState mmaCommand).core 0).matrix.queue = [mmaCommand] ∧ base.security.state ≠ .safe := by decide +kernel

/-! ### Words and instructions -/

/-- Do the words read as this opcode with these fields, and do they decode to an instruction? -/
def readsAs (mode : Nat) (ws : List Word) (op : Op) (form : Form) : Bool :=
  match parse mode ws with
  | .ok x => x.1 = op && x.2 = form
  | .error _ => false

/-- Do the words decode to this instruction? -/
noncomputable def decodesTo (ws : List Word) (i : Instr) : Bool :=
  match decode 9 ws with
  | .ok j => j = i
  | .error _ => false

/-- Are the words refused for this reason? -/
def refusedFor (mode : Nat) (ws : List Word) (r : Reject) : Bool :=
  match parse mode ws with
  | .ok _ => false
  | .error e => e = r

/-- R83's worked encodings: `iadd v5, v12, v3`; `uni. iadd.s32 s4, s4, #1`; `(p3) iadd.s32 v5:o2, v12^, #16`. -/
theorem test_words_integer :
    decodesTo [0x06302A00] (.iaddShort { sf with d := 5, a := 12, b := 3 }) = true
      ∧ decodesTo [0xD7122204] (.iaddShort { sf with u := true, d := 68, a := 68, b := 107 }) = true
      ∧ decodesTo [0x00000203, 0x152C1805, 0x00014600, 0x00000010, 0]
          (.iaddLong { lf with d := 5, a := 12, b := 331, la := true, ps := 3, oce := true, oci := 2
                               lit := some 16 }) = true := by
  decide +kernel

/-- R83's worked words that are no instruction: OP8 0xFF, and a short form of crn.ld. -/
theorem test_words_refused :
    decodesTo [0x000007F9, 0, 0] (.illegalInstruction [0x000007F9, 0, 0]) = true
      ∧ refusedFor 9 [0x000007F9, 0, 0] .neverAssigned = true ∧ refusedFor 9 [0x00000600] .malformed = true := by
  decide +kernel

/-- 07's encodings: `kill v8, #4`; `movx.b32 v7, v200, s3`; `xred.add.f32 s5, v3^`. -/
theorem test_words_operand :
    decodesTo [0x00000141, 0x00001000, 0x00060E00] (.killLong { lf with a := 8, ext := 3 }) = true
      ∧ decodesTo [0x00000109, 0x040D9007, 0x00000E00] (.movxLong { lf with d := 7, a := 200, b := 259 }) = true
      ∧ readsAs 9 [0x00004919, 0x10000705, 0x00000E00] .xred
          (.long { lf with mod := m 11 9, d := 261, a := 3, la := true }) = true := by decide +kernel

/-- 08's encodings: `ffma.f32.rz v8, v1, v2, v3`; `fcmp.lt.f32 p2, v4, v5`; `bool3.b32 v1, v2, v3, v4, #0x96`. -/
theorem test_words_vector :
    decodesTo [0x00008319, 0x00080208, 0x00000E03]
        (.ffmaLong { lf with mod := m 15 1, d := 8, a := 1, b := 2, c := 3 }) = true
      ∧ decodesTo [0x00880379, 0x00140800, 0x00000E00]
          (.fcmpLong { lf with mod := m 18 2 + m 22 2, a := 4, b := 5 }) = true
      ∧ decodesTo [0x00000469, 0x000C0401, 0x012C0E04]
          (.bool3Long { lf with d := 1, a := 2, b := 3, c := 4, ext := 0x96 }) = true := by decide +kernel

/-- 09's encodings: `ld v7, [v4 + v6]`; `ld.n16.ca v7, [s2 + v4*4]`; `st.n32.rel.dev [s4], v1`; `fence.acqrel.dev`. -/
theorem test_words_memory :
    decodesTo [0x0C103D00] (.ldShort { sf with d := 7, a := 4, b := 6 }) = true
      ∧ decodesTo [0x01003501, 0x00120407, 0x00000E00]
          (.ldLong { lf with mod := m 11 6 + m 23 2, d := 7, a := 258, b := 4 }) = true
      ∧ readsAs 9 [0x00121509, 0x05320800, 0x00000E01] .st
          (.long { lf with mod := m 11 2 + m 16 2 + m 18 4, a := 260, b := 332, c := 1 }) = true
      ∧ readsAs 9 [0x00130559, 0, 0x00000E00] .fence (.long { lf with mod := m 16 3 + m 18 4 }) = true := by
  decide +kernel

/-- 10's encodings: `bra #-16`; `waitb.all.c #0b0011`; `mrs v5, sr.fpst`; `tret.kill`. -/
theorem test_words_sequencer :
    decodesTo [0x016C000A, 0xFFFFFFF0, 0xFFFFFFFF] (.braShort { sf with a := 91, lit := some (-16) }) = true
      ∧ readsAs 9 [0x00010083, 0x00029600, 0x00000E00, 3, 0] .waitbAll
          (.long { lf with mod := m 16 1, a := 331, lit := some 3 }) = true
      ∧ decodesTo [0x000000D1, 0x00000005, 0x00020E00] (.mrsLong { lf with d := 5, ext := 1 }) = true
      ∧ readsAs 9 [0x000200A9, 0, 0x00000E00] .tret (.long { lf with mod := m 17 1 }) = true := by decide +kernel

/-- 11's and 12's encodings: `probe.w v6, v4`; `mapp v10, v4, s8`; a crn.ld to a ring; crn.fence #0b0110. -/
theorem test_words_translation_crane :
    decodesTo [0x00002741, 0x00000806, 0x00000E00] (.probe { lf with mod := m 13 1, d := 6, a := 4 }) = true
      ∧ decodesTo [0x00000749, 0x0420080A, 0x00000E00] (.mapp { lf with d := 10, a := 4, b := 264 }) = true
      ∧ decodesTo [0x00002E05, 0x042A0400, 0x00060F4C]
          (.crnLd { lf with mod := m 11 1 + m 13 1, u := true, a := 258, b := 266, c := 332, ext := 3 }) = true
      ∧ decodesTo [0x00000631, 0, 0x000C0E00] (.crnFence { lf with ext := 6 }) = true := by decide +kernel

/-- 13's and 14's encodings: `mzero acc1, b5`; `mwait.c s16`; `(p2) uni. mma.z.bfx8.bfx8 …`; `uni. mdrain.const c1, …`;
`mxb.pass`, a cell of three mnemonics. -/
theorem test_words_matrix_drain :
    decodesTo [0x00100691, 0, 0x000A0E00] (.mzero { lf with mod := m 20 1, ext := 5 }) = true
      ∧ readsAs 9 [0x00000EB9, 0x00022000, 0x00000E00] .mwait (.long { lf with mod := m 11 1, a := 272 }) = true
      ∧ readsAs 9 [0x0006EE8F, 0x05321800, 0x0804054B, 0x00004040, 0] .mma
          (.long { lf with mod := 0xDD, u := true, a := 268, b := 332, c := 331, ps := 2, ext := 0x402
                           lit := some 0x4040 }) = true
      ∧ decodesTo [0x004016AF, 0x00029600, 0x000A0E00, 0x00000500, 0]
          (.mdrainConst { lf with mod := m 11 2 + m 22 1, u := true, a := 331, ext := 5, lit := some 0x500 }) = true
      ∧ decodesTo [0x00000E81, 0, 0x00000E00] (.mxbPass { lf with mod := m 11 1 }) = true := by decide +kernel

/-- 15's to 17's encodings: `srg.open v2, v1, s4, #5`; `uni. srg.bound #5, #0.2`; `lift.pop v11`; `uni. spawn s16, #3, #1`;
`uni. dep.inc s24, #3`; `retire`. -/
theorem test_words_surrogate_lift_phase :
    decodesTo [0x000006C1, 0x04100202, 0x000A0E00] (.srgOpen { lf with d := 2, a := 1, b := 260, ext := 5 }) = true
      ∧ decodesTo [0x00000ED7, 0x00029600, 0x000A0E00, 0x3E4CCCCD, 0]
          (.srgBound { lf with mod := m 11 1, u := true, a := 331, ext := 5, lit := some 0x3E4CCCCD }) = true
      ∧ decodesTo [0x000006E9, 0x0000000B, 0x00000E00] (.liftPop { lf with d := 11 }) = true
      ∧ readsAs 9 [0x0000070F, 0x052E2000, 0x00020E00, 3, 0] .spawn
          (.long { lf with u := true, a := 272, b := 331, ext := 1, lit := some 3 }) = true
      ∧ readsAs 9 [0x00000727, 0x052E3000, 0x00000E00, 3, 0] .depInc
          (.long { lf with u := true, a := 280, b := 331, lit := some 3 }) = true
      ∧ decodesTo [0x00000719, 0, 0x00000E00] (.retire lf) = true := by decide +kernel

/-- R111's example: `iadd v5, v12, #100` with a literal prefix, and `fmul v6, v5, v5`, in mode 7. -/
theorem test_words_mode7 :
    readsAs 7 [0x00006431, 0x000C0A40] .iadd (.long { lf with d := 5, a := 12, b := 331, lit := some 100 }) = true
      ∧ readsAs 7 [0x02850C62] .fmul (.long { lf with d := 6, a := 5, b := 5 }) = true
      ∧ refusedFor 7 [0x00006431, 0x00006431, 0x000C0A40] .malformed = true
      ∧ refusedFor 7 [0x000000C0] .laterLevel = true ∧ refusedFor 7 [0x000000FF] .neverAssigned = true := by
  decide +kernel

/-- By R103 to R106: one word `iadd v5, v12, #-1` (I = 1, B = 127); two words `(!p2) fadd v5:o1, v12, s3`; `bra` 8 bytes
back; a reserved short code; I = 1 on a floating opcode; a one-word bra; and a cell of FL9. -/
theorem test_words_mode8 :
    readsAs 8 [0xFF181500] .iadd (.short { sf with d := 5, a := 12, b := 91, lit := some (-1) }) = true
      ∧ readsAs 8 [0x02800181, 0x7402060C] .fadd
          (.long { lf with d := 5, a := 12, b := 259, oce := true, oci := 1, pn := true, ps := 2 }) = true
      ∧ readsAs 8 [0x00000005, 0x0FFFFFFE] .bra (.long { lf with a := 331, lit := some (-8) }) = true
      ∧ refusedFor 8 [0x5B181500] .illegalOperand = true ∧ refusedFor 8 [0xFF181580] .malformed = true
      ∧ refusedFor 8 [0x00000004] .malformed = true ∧ refusedFor 8 [0x000001CC] .laterLevel = true := by
  decide +kernel

/-! ### Ill-formed instructions, one for each check -/

/-- Check 5, MOD and EXT (R79, R81, R78): a type that iadd does not accept, a bit outside R80's layout, mxb.take with the
code of mxb.pass, an EXT that iadd does not use, and a register number of mrs past 8 bits. -/
theorem test_ill_formed_mod :
    (Instr.iaddLong { lf with mod := m 11 9 }).wellFormed = false
      ∧ (Instr.iaddLong { lf with mod := m 25 1 }).wellFormed = false
      ∧ (Instr.mxbTake { lf with mod := m 11 1 }).wellFormed = false
      ∧ (Instr.iaddLong { lf with ext := 1 }).wellFormed = false
      ∧ (Instr.crnFence { lf with ext := 0 }).wellFormed = false
      ∧ (Instr.iaddLong lf).wellFormed = true := by decide +kernel

/-- Check 5, predicates and unused fields: bra takes p7 only (R240), C of iadd and B of mov are 0 (R78). -/
theorem test_ill_formed_unused :
    (Instr.braLong { lf with a := 331, ps := 1, lit := some 4 }).wellFormed = false
      ∧ (Instr.iaddLong { lf with c := 1 }).wellFormed = false ∧ (Instr.movLong { lf with b := 1 }).wellFormed = false
      ∧ (Instr.movLong { lf with oci := 1 }).wellFormed = false := by decide +kernel

/-- Check 5, R74, R75 and R77: NWB with a D, NWB without a result, a mark on an s register, a mark on a moored register,
a mark on a field that is not read, and an operand-cache copy of 64 bits. -/
theorem test_ill_formed_control :
    (Instr.iaddLong { lf with nwb := true, d := 1 }).wellFormed = false
      ∧ (Instr.nopLong { lf with nwb := true }).wellFormed = false
      ∧ (Instr.iaddLong { lf with a := 260, la := true }).wellFormed = false
      ∧ (Instr.iaddLong { lf with a := 240, la := true }).wellFormed = false
      ∧ (Instr.movLong { lf with lb := true }).wellFormed = false
      ∧ (Instr.iaddLong { lf with mod := m 11 3, oce := true }).wellFormed = false := by decide +kernel

/-- Check 6: a literal that no operand names. Check 7: the literal code without a literal, an odd pair, a reserved code,
a special value or the operand cache as D, an s register as D without U, and a q code as a 64-bit operand. -/
theorem test_ill_formed_operands :
    (Instr.iaddLong { lf with lit := some 1 }).wellFormed = false
      ∧ (Instr.iaddLong { lf with b := 331 }).wellFormed = false
      ∧ (Instr.iaddLong { lf with mod := m 11 3, a := 1 }).wellFormed = false
      ∧ (Instr.iaddLong { lf with a := 511 }).wellFormed = false
      ∧ (Instr.iaddLong { lf with d := 332 }).wellFormed = false
      ∧ (Instr.iaddLong { lf with d := 320 }).wellFormed = false
      ∧ (Instr.iaddLong { lf with d := 260 }).wellFormed = false
      ∧ (Instr.iaddLong { lf with d := 260, u := true }).wellFormed = true
      ∧ (Instr.iaddLong { lf with mod := m 11 3, a := 328 }).wellFormed = false := by decide +kernel

/-- An ILLEGAL_INSTRUCTION with the words of an assigned opcode, and with too few words. -/
theorem test_ill_formed_illegal :
    (Instr.illegalInstruction [0x06302A00]).wellFormed = false ∧ (Instr.illegalInstruction [0x000007F9]).wellFormed = false
      ∧ (Instr.illegalInstruction [0x000007F8]).wellFormed = true := by decide +kernel

/-! ### Single steps, with results worked out by hand from the rules named -/

/-- The state after an instruction of the group, or the state before where it gives none. -/
def after (i : Instr) (s : State) : State :=
  match exec i s with
  | .next t => t
  | _ => s

/-- A lane of v`n` of the group once what is in flight has landed and what is pending has returned. -/
def lane (t : State) (n l : Nat) : Word :=
  let g := (t.settleAll ⟨0, 0⟩).group ⟨0, 0⟩
  match g.outstanding.findSome? (fun o => (o.regs.find? (fun x => x.1 = .v n)).map (·.2)) with
  | some x => x.at' l
  | none => ((Table.find g.v n).map (fun x => x.vals.at' l)).getD 0xBAD

/-- Fields with D = v20 and the A and B given. -/
def dab (a b : BitVec 9) : LongFields := { lf with d := 20, a := a, b := b }

/-- Fields with D = v20, an A and the literal as B. -/
def dal (a : BitVec 9) (x : DWord) : LongFields := { lf with d := 20, a := a, b := 331, lit := some x }

/-- R197: 5 + 31 + 3 in lane 31; with SAT, -2^31 + -2^31 is -2^31 as s32 and 2^32 - 1 as n32; without it, 0. -/
theorem test_iadd : lane (after (.iaddLong (dab 1 2)) base) 20 31 = 39
    ∧ lane (after (.iaddLong { dab 10 10 with mod := m 17 1 }) base) 20 0 = 0x80000000
    ∧ lane (after (.iaddLong { dab 10 10 with mod := m 17 1 + m 11 2 }) base) 20 0 = 0xFFFFFFFF
    ∧ lane (after (.iaddLong (dab 10 10)) base) 20 0 = 0 := by decide +kernel

/-- The operands of isub in their order: (5 + l) - 3. R197: the high half of (-2^31)^2 is 2^30. -/
theorem test_isub_imul : lane (after (.isubLong (dab 1 2)) base) 20 4 = 6
    ∧ lane (after (.imulLong { dab 10 10 with mod := m 18 1 }) base) 20 0 = 0x40000000 := by decide +kernel

/-- R198: a count of 32 gives 0 for shl, and the sign in every bit for sar. -/
theorem test_shifts : lane (after (.shlLong (dal 1 32)) base) 20 9 = 0
    ∧ lane (after (.sarLong (dal 10 32)) base) 20 9 = 0xFFFFFFFF
    ∧ lane (after (.shlLong (dal 2 31)) base) 20 9 = 0x80000000 := by decide +kernel

/-- A 64-bit sum carries into the high register: v6:v7 + (2^32 - 0x10100) is 0xFF000011_00000000. -/
theorem test_iadd64 : lane (after (.iaddLong { dal 6 0xFFFEFF00 with mod := m 11 4 }) base) 20 3 = 0
    ∧ lane (after (.iaddLong { dal 6 0xFFFEFF00 with mod := m 11 4 }) base) 21 3 = 0xFF000011 := by decide +kernel

/-- R120: 1 + 2^-24 is a tie, which goes to the even 1.0 under rne and to 1 + 2^-23 under rup. -/
theorem test_fadd : lane (after (.faddLong (dal 11 0x33800000)) base) 20 0 = 0x3F800000
    ∧ lane (after (.faddLong { dal 11 0x33800000 with mod := m 15 2 }) base) 20 0 = 0x3F800001 := by decide +kernel

/-- R128: 1 / 0 is an infinity and sets DZ, bit 3; 1 / 3 is 0x3EAAAAAB and sets another flag. -/
theorem test_fdiv : lane (after (.fdivLong (dab 11 9)) base) 20 0 = 0x7F800000
    ∧ ((after (.fdivLong (dab 11 9)) base).group ⟨0, 0⟩).fpst.at' 0 = 8
    ∧ lane (after (.fdivLong (dal 11 0x40400000)) base) 20 0 = 0x3EAAAAAB := by decide +kernel

/-- R204: 1.0 is +normal, bit 6; v1 holds subnormals, bit 5. -/
theorem test_fclass : lane (after (.fclassLong (dab 11 0)) base) 20 0 = 64
    ∧ lane (after (.fclassLong (dab 1 0)) base) 20 0 = 32 := by decide +kernel

/-- xread of lane 7 of v1 is 12 in every lane; the sum of 5 to 36 is 656. -/
theorem test_exchange : lane (after (.xreadLong (dal 1 7)) base) 20 30 = 12
    ∧ lane (after (.xredLong (dab 1 0)) base) 20 5 = 656 := by decide +kernel

/-- icmp.eq of v1 with 12 sets lane 7 alone of p2. -/
theorem test_icmp :
    let f := { lf with mod := m 22 2, a := 1, b := 331, lit := some 12 }
    ((after (.icmpLong f) base).group ⟨0, 0⟩).preds.getD 2 0 = 0x80 := by
  decide +kernel

/-- R90: bra #-16 goes 16 bytes back from its first word. R244: emset writes em and returns the old one. -/
theorem test_control :
    let f := { lf with d := 20, a := 331, lit := some 0xF0 }
    ((after (.braLong { lf with a := 331, lit := some (-16) }) base).group ⟨0, 0⟩).pc = 0xFF00000000007FF0
      ∧ ((after (.emsetLong f) base).group ⟨0, 0⟩).em = 0xF0
      ∧ lane (after (.emsetLong f) base) 20 6 = 0xFFFFFFFF := by decide +kernel

/-- R234: frame.enter of 32 bytes on 256 used; past LIMIT it traps and leaves SP. -/
theorem test_frames :
    ((after (.frameEnter { lf with ext := 2 }) base).group ⟨0, 0⟩).spFinal = 288
      ∧ ((after (.frameEnter { lf with ext := 241 }) base).group ⟨0, 0⟩).spFinal = 256 := by decide +kernel

/-- R222: ld.n8 reads one byte, zero-extended, and s8 extends its sign. -/
theorem test_ld :
    let s := { base with mem := Memory.writeNum base.mem 0x10100 4 0xF2AB80 }
    lane (after (.ldLong { plain .ld (m 11 8) 0 with b := 332 }) s) 20 1 = 0x80
      ∧ lane (after (.ldLong { plain .ld (m 11 7) 2 with b := 332 }) s) 20 1 = 0xFFFFFFF2 := by decide +kernel

/-- R147: a store of v8, at the address that all lanes share, is buffered and then performed. R228: 32 lanes add 1 to the
word one after another. -/
theorem test_st_atom :
    let t := after (.st { plain .st 0 0 with b := 332 }) base
    Memory.readNum t.mem 0x10100 4 = 0 ∧ Memory.readNum (t.flushStores ⟨0, 0⟩).mem 0x10100 4 = 1
      ∧ Memory.readNum (after (.atom { plain .atom 0 0 with b := 332 }) base).mem 0x10100 4 = 32 := by decide +kernel

/-- R83, R252: an unassigned opcode enters the handler in supervisor state with the frame's 128 bytes under it. -/
theorem test_trap :
    let g := (after (.illegalInstruction [0x7F8]) handled).group ⟨0, 0⟩
    g.pc = va 0x30000 ∧ g.sup = true ∧ g.spFinal = 384 := by decide +kernel

/-- R299: 512 bytes produced, then consumed, and an advance past the room, which traps. -/
theorem test_ring_adv :
    let adv := fun q n => { plain .ringAdv q 0 with a := 331, lit := some n }
    ((after (.ringAdv (adv 0 512)) engines).ring? 0 0).map (fun x => (x.prod, x.cons)) = some (2560, 0)
      ∧ ((after (.ringAdv (adv (m 11 1) 512)) engines).ring? 0 0).map (fun x => (x.prod, x.cons)) = some (2048, 512)
      ∧ ((after (.ringAdv (adv 0 2049)) engines).ring? 0 0).map (fun x => (x.prod, x.cons)) = some (2048, 0) := by
  decide +kernel

/-- R308: mxb.take of a free baton holds it, and mxb.pass gives it up. -/
theorem test_baton :
    let free := engines.modTeam ⟨0, 0⟩ (fun t => { t with batonHolder := none })
    ((after (.mxbTake lf) free).team? ⟨0, 0⟩).map (·.batonHolder) = some (some 0)
      ∧ ((after (.mxbPass { lf with mod := m 11 1 }) engines).team? ⟨0, 0⟩).map (·.batonHolder) = some none := by
  decide +kernel

/-- R398: dep.dec of 3 from a counter of 2 leaves -1. -/
theorem test_dep :
    Memory.readNum (after (.depDec { lf with a := 6, b := 331, lit := some 3 })
      { base with mem := Memory.writeNum base.mem 0x10100 8 2 }).mem 0x10100 8 = 2 ^ 64 - 1 := by decide +kernel

/-- R46: the run limit ends the run and the group leaves its barrel slot for the tail of the ready queue. R453: a thermal
trip removes power. -/
theorem test_events :
    let t := after (.runLimit ⟨0, 0⟩) (withGroup (fun g => { g with run := 64 }))
    (t.group ⟨0, 0⟩).run = 0 ∧ (t.core 0).barrel.getD 0 none = none ∧ ((t.core 0).ready.getD 0 []).map (·.2) = [0]
      ∧ (after .thermalTrip base).security.powered = false := by decide +kernel

/-- R44: the end of a cycle counts one cycle, and the next begins with the events that are due. -/
theorem test_tick :
    (match step { base with turn := .tick } with
      | .next t => decide (t.cycle = base.cycle + 1 ∧ t.turn = .event t.agenda.length)
      | _ => false) = true := by decide +kernel

/-! ### More states that meet hypotheses -/

/-- Operands of the integer values: a bit field, a number between powers of two, and the types and SUBs that are named. -/
theorem witness_IntegerInstructionsComplete_operands :
    2 ^ 3 ≤ (9 : DWord).toNat ∧ (9 : DWord).toNat < 2 ^ 4 ∧ (0 : DWord) = 0
      ∧ [0, 1, 2].map (fun n => { lf with mod := m 18 n }.sub) = [0, 1, 2]
      ∧ [0, 7, 8, 1].map (fun n => { lf with mod := m 11 n }.ty) = [0, 7, 8, 1] := by decide +kernel

/-- In f16: a quiet and a signalling NaN, infinities, zeros, numbers whose sum, difference and product are 0 and are not, a
negative number and an integral one. -/
theorem witness_FloatInstructionsComplete_operands :
    let k : FloatFormat := ⟨5, 10⟩
    k ∈ [f32Format, ⟨11, 52⟩, k, ⟨8, 7⟩] ∧ [0x7E00, 0x7C01, 0x3C00].map k.isNaN = [true, true, false]
      ∧ [0x7E00, 0x7C01].map k.signals = [false, true] ∧ (0x7C00 = k.inf false ∧ 0xFC00 = k.inf true)
      ∧ [0, 0x8000, 0x3C00, 0xBC00].all k.finite ∧ [0, 0x8000].map k.units = [0, 0]
      ∧ 0 < k.units 0x3C00 ∧ k.units 0xBC00 < 0 ∧ k.units 0x3C00 + k.units 0xBC00 = 0 ∧ k.units 0x3C00 * k.units 0x3C00 ≠ 0 := by
  decide +kernel

/-- A number rounded to an integer in each direction, and a type's numbers of the conversions. -/
theorem witness_FloatInstructionsComplete_conversions :
    (wholeOf 0 5 2 2 ∧ wholeOf 1 5 2 2 ∧ wholeOf 2 5 2 3 ∧ wholeOf 3 5 2 2)
      ∧ (f32Format.isNaN 0x7FC00000 = true ∧ f32Format.finite 0xBF800000 = true ∧ f32Format.units 0xBF800000 < 0)
      ∧ [0, 7, 10, 11].map (fun n => { lf with mod := m 11 n }.ty) = [0, 7, 10, 11] := by
  simp only [wholeOf]
  decide +kernel

/-- An access that waits for a page before it. -/
def heldAccess : HeldAccess :=
  { op := .ld, f := access .ld 0, a := [], b := [], c := [], active := 1, lanes := [0], sup := false, result := 9, page := va 0
    cause := 0x11 }

theorem witness_LoadsComplete_held :
    let s := withGroup (fun g => { g with predicted := [heldAccess] })
    (passAt s .ld (access .ld 0) .read (fun x => x.accessLanes .ld (access .ld 0)) (fun t _ => t.mayAwait ⟨0, 0⟩)
      && passAt s .st (access .st 0) .write (fun x => x.storeLanes .st (access .st 0)) (fun t _ => t.mayAwait ⟨0, 0⟩)
      && passAt s .atom (access .atom 0) .atomic (fun x => x.accessLanes .atom (access .atom 0)) (fun t _ => t.mayAwait ⟨0, 0⟩)) = true
      ∧ s.self.predicted ≠ [] := by decide +kernel

/-- The base state with the windows mapped after the first 64 GiB, host pages granted, and v6 and v7 an address. -/
def reaching (lo hi : Word) : State :=
  let s := withGroup (fun g => { g with v := Table.set (Table.set g.v 6 (reg lo)) 7 (reg hi) })
  { s with
    mem := Memory.writeNum s.mem (placedTable + 16) 8 0x0F00000001EF
    contexts := Table.modify s.contexts 0 (fun c => { c with ats := [⟨0x10000, c.func, true, true⟩] }) }

theorem witness_StoresWriteTheirBytes_elsewhere :
    passAt (reaching 0x100 0xFF000020) .st (access .st 0) .write (fun x => x.storeLanes .st (access .st 0)) (fun s xs =>
        s.mayAwait ⟨0, 0⟩ && (passed xs).all (fun y => y.spots.all (fun p => match p with | .device (.window _ _ _) => true | _ => false)))
        = true
      ∧ passAt (reaching 0x10100 0) .st (access .st 0) .write (fun x => x.storeLanes .st (access .st 0)) (fun s xs =>
        s.mayAwait ⟨0, 0⟩ && (passed xs).all (fun y => y.spots.all (fun p => match p with | .host _ _ => true | _ => false))) = true
      ∧ Memory.wf (Table.get (reaching 0x10100 0).hostMem [] 0) = true := by decide +kernel

/-- An atomic's place in the scratchpad and in the host's half. -/
theorem witness_AtomicsComplete_elsewhere :
    (∀ i < 8, regionOf (0x100 + i) = some .scratchpad ∧ drainReserved (0x100 + i) = false
        ∧ (base.core 0).unheldStore (0x100 + i) = false)
      ∧ Memory.wf (base.core 0).win = true ∧ Memory.wf (base.hostMemOf 0) = true
      ∧ (∃ y : LaneAccess, y.spots = (List.range 8).map (fun i => .device (.window 0 (0x100 + i) .scratchpad)))
      ∧ (∃ y : LaneAccess, y.spots = (List.range 8).map (fun i => .host 0 (0x10100 + i))) :=
  ⟨by decide +kernel, by decide +kernel, by decide +kernel, ⟨⟨0, 0, _, false, []⟩, rfl⟩, ⟨⟨0, 0, _, false, []⟩, rfl⟩⟩

/-- A record of the group's call, deposited or not, and one of another group. -/
def slip (lane : Nat) (deposited : Bool) : SlipRecord :=
  { slot := 0, lane := lane, ctx := 0, surrogate := 1, region := 0, body := va 0x8010, firstIn := 1, firstOut := 20, numIn := 1
    numOut := 1, strict := false, launch := 0, inputs := [5], outputs := [0x3F800000], sample := false, late := false
    relative := false, bound := 0x3F800000, entered := 0, taken := none, deposited := deposited, orphan := false }

/-- An answered call with records as given, and one whose surrogate has changed, with a trusted lane left and a full Slipway. -/
theorem witness_SurrogateCallsOpenAndClose_answered :
    let c := { call with state := .answered, trusted := 3 }
    let s := fun (way : List SlipRecord) (gen : Word) => ((called { c with gen := gen }).modGroup ⟨0, 0⟩ (fun g => { g with v := Table.set g.v 20 (reg 0) })).modCore 0 (fun k =>
      { k with surrogate := { k.surrogate with slipway := way } })
    let ok := fun (way : List SlipRecord) (gen : Word) => readyAt (s way gen) .srgClose (plain .srgClose 0 0) (fun x =>
      decide (x.s.self.recovery = none ∧ x.s.self.call = some { c with gen := gen }
        ∧ (x.s.core 0).surrogate.slipway = way ∧ ((x.s.core 0).surrogate.copy 1).gen = 0
        ∧ (Table.find (x.s.landOutputs ⟨0, 0⟩ { c with gen := gen }).self.v 20).isSome = true))
    ok [slip 0 false] 0 && ok [slip 0 true] 0 && ok [slip 0 true] 9 && ok (List.replicate 256 { slip 0 true with slot := 3 }) 9
      && !c.uniform := by decide +kernel

/-- A recovery group that runs a sample of lane 4 of group 3, whose numbers are finite, and one whose origin is gone. -/
theorem witness_SurrogateCallsOpenAndClose_sample :
    let rec_ : Recovery := ⟨0, 0, 0, 1, 20, 1, 1, false, 0⟩
    let z := { slip 4 false with slot := 3, sample := true, taken := some (0, 2) }
    let s := (launched.modGroup ⟨0, 0⟩ (fun g => { g with kind := .recovery, recovery := some rec_, v := Table.set g.v 20 (reg 0x40000000) })).modCore 0
      (fun k => { k with surrogate := { k.surrogate with slipway := [z, { z with lane := 5, sample := false, orphan := true, taken := some (0, 3) }] } })
    readyAt s .srgClose (plain .srgClose 0 0) (fun x => decide (x.s.self.recovery = some rec_ ∧ rec_.region = 0
        ∧ (x.s.core 0).surrogate.slipway.filter (fun y => y.taken.any (fun q => q.1 = 0) && y.sample && !y.orphan) = [z]
        ∧ (x.s.group ⟨0, 3⟩).status ≠ .waiting .srgClose)) = true
      ∧ f32Format.finite (z.outputs.getD 0 0).toNat = true ∧ f32Format.units 0x40000000 ≠ 0
      ∧ f32Format.finite ((s.context 0).entry 1).errSum.toNat = true ∧ f32Format.isNaN z.bound.toNat = false := by decide +kernel

/-- Tables of levels 2 to 0 missing, and a pool whose frames leave every entry apart. -/
theorem witness_PageInstructionsComplete_tables :
    let s := put base [(0x50000, 8, 0x60000), (0x50008, 8, 0x70000), (0x50010, 8, 0x80000), (0x50018, 8, 0x90000)]
    let w := walkChecked s.mem (2 ^ 46) 3 (s.context 0).root
    let pool := fun j => Memory.readNum s.mem (0x50000 + 8 * j) 8 / 2 ^ 16 % 2 ^ 32 * 2 ^ 16
    let entry := fun j => if j = 0 then w.at_ else pool (j - 1) + 8 * (2 ^ 46 / 2 ^ (16 + 10 * (w.level - j)) % 2 ^ 10)
    w.result = .notPresent ∧ w.level = 3 ∧ Memory.wf s.mem = true
      ∧ ∀ i < 4, ∀ j < 4, i ≠ j → entry i + 8 ≤ entry j ∨ entry j + 8 ≤ entry i := by decide +kernel

/-- In mode 8 an opcode that is a cell and one that is none, a branch by an offset and a float; in mode 7 words with a prefix
of each kind, in either order. -/
theorem witness_EncodeOfDecode_levels :
    (Op.ofOp8 0x0E = some .barArrive ∧ Op.ofOp8 0x00 = some .nop ∧ Op.ofOp8 0xA0 = some .ld)
      ∧ (0x000001CC#32).extractLsb' 2 8 = 0x73 ∧ (0x000C0A40#32).extractLsb' 0 8 = 0x40
      ∧ (0x1C000030#32).extractLsb' 0 8 = 0x30 ∧ (0x00006431#32) = 0x64#24 ++ 0x31#8
      ∧ (0x1C000030#32).getLsbD 25 = false ∧ (0x1C000030#32).extractLsb' 8 3 = 0 ∧ (0x1C000030#32).extractLsb' 15 2 = 0 := by
  decide +kernel

/-- In SAFE no start waits for READY. -/
theorem witness_SafeModuleRunsNothing_writes : (safeAt .sub).security.state = .safe ∧ (safeAt .sub).security.started = false
    ∧ (∀ j < 8, (0x100 : Nat) + j < 0x0FF000050000) := by decide +kernel

/-- A group of mode 8 and one of mode 7, and a register that another instruction has locked. -/
theorem witness_FixedWriteLandsAfterItsCycle_locks :
    let s := fun n => withTeam (fun t => { t with decode := n })
    let locked := (s 8).modGroup ⟨0, 0⟩ (fun g => { g with locks := [(20, .v 1)] })
    ([7, 8].all (fun n => readyAt (s n) .iadd (plain .iadd 0 0) (fun x =>
        decide ((x.s.attrs ⟨0, 0⟩).decode = n ∧ x.dest.mask ≠ 0 ∧ x.dest.regs[0]? = some (.v 20))))) = true
      ∧ (20, Reg.v 1) ∈ (locked.group ⟨0, 0⟩).locks ∧ locked.cycle < 20 ∧ Reg.v 1 ∈ locked.reads ⟨0, 0⟩ .iadd (plain .iadd 0 0)
      ∧ 0 < resultWords .iadd (plain .iadd 0 0)
      ∧ (match parse 8 [0xFF181500#32] with
          | .ok (op, form) => decide ((locked.modGroup ⟨0, 0⟩ (fun g => { g with ir := [0xFF181500#32], locks := [(20, .v 12)] })).turnKind
              ⟨0, 0⟩ op (formFields op form) = .interlock 20)
          | .error _ => false) = true := by decide +kernel

/-- The place of the group's slot in the ready queues. -/
theorem witness_TranslationEventsComplete_ready : 0 / 16 < (base.core 0).ready.length ∧ (base.cores.map (·.1)).Nodup := by
  decide +kernel

/-- Remote accesses of a mapped address and of one that is not canonical; whole words of control space. -/
theorem witness_OutsideAccessesComplete_remote :
    ([AccessKind.read, .write, .atomic].all (fun k => match base.spotsAt true 0 k (va 0x10100) 8 with
        | .ok ps => decide (ps = (List.range 8).map (fun j => Spot.device (.mem (0x10100 + j)))) | .error _ => false)) = true
      ∧ (match base.spotsAt true 0 .write 0xFE00000000000000 8 with
          | .error (_, .cause why) => decide (why = .nonCanonical) | _ => false) = true
      ∧ Memory.wf ((chunksOf (va 0x10100) 8).foldl (fun y c => y.markDirtyHere 0 c.1) base).mem = true
      ∧ base.security.state ≠ .safe ∧ base.security.spillM < 2 ^ 64 ∧ base.dbg.status < 2 ^ 4 ∧ base.dbg.op < 2 ^ 4
      ∧ base.dbg.ctx < 2 ^ 6 ∧ base.dbg.core < 2 ^ 9 ∧ base.dbg.slot < 2 ^ 6
      ∧ base.agenda.all (fun i => !decide (i ∈ [Instr.debugAttach, .debugDetach, .debugStop, .debugResume, .debugStep, .debugRead, .debugWrite])) = true
      := by decide +kernel

/-- A switch to a queue that may be mapped, to one that may not, and with a started SIGNAL that still waits in its way. -/
theorem witness_QueueOperationsComplete_switch :
    let p := { packet 3 1 0 [0x10000, 5] with progress := .started }
    let busy := mapped [p]
    let u := (busy.stopQueue 0).retryFinish 0
    ((mapped []).detach 3).mappable 1 = true ∧ ((mapped []).frontQueue 0).packets = []
      ∧ ((mapped []).detach 3).mappable 2 = false ∧ ((mapped []).frontQueue 0).stopping = false
      ∧ Table.find busy.front.slots 3 = some 0 ∧ u.queueBusy 0 = true ∧ (busy.detach 3).mappable 1 = true := by decide +kernel

/-- A BARRIER of two signals whose conditions hold, at its start, and packets with a signal, aligned, misaligned and refused. -/
theorem witness_PacketsComplete_conditions :
    let p := packet 2 (2 + 3 * 8) 0 [(va 0x10100).toNat, (va 0x10108).toNat]
    (match (mapped [p]).currentPacket 0 2 with
      | some (p', u) => decide (p' = p
          ∧ (u.frontQueue 0).packets.find? (fun y => y.progress = .started && y.type = 2) = some { p with progress := .started })
        && (barrierSignals p.bytes).all (fun a => match u.readPlain 0 a 8 with | .ok bs => decide (bs = bytesOfNum 8 0) | _ => false)
      | none => false) = true
      ∧ condHolds (p.arg / 2 ^ 3 % 4) 0 ((BitVec.ofNat 32 p.arg32).signExtend 64) = true
      ∧ condHolds (p.arg / 2 ^ 5 % 4) 0 ((BitVec.ofNat 32 p.arg32).signExtend 64) = true := by decide +kernel

theorem witness_PacketsComplete_finish :
    let p := fun (a : Nat) => { packet 0 0 0 [] with bytes := (packet 0 0 0 []).bytes.take 8 ++ bytesOfNum 8 a ++ (packet 0 0 0 []).bytes.drop 16 }
    let s := fun (a : Nat) => mapped [p a]
    (((s (va 0x10100).toNat).frontQueue 0).packets.find? (fun y => y.index = 0) = some (p (va 0x10100).toNat)
      ∧ (p (va 0x10100).toNat).compl = va 0x10100 ∧ (p (va 0x10100).toNat).complete = false ∧ (p 4).compl.toNat % 8 ≠ 0
      ∧ ((s 8).frontQueue 0).refused = [])
      ∧ (match (s 8).signal 0 (va 0x10100) true (BitVec.allOnes 64), (s 8).signal 0 0xFE00000000000000 true (BitVec.allOnes 64),
            (s 8).signal 0 8 true (BitVec.allOnes 64) with
          | .ok _, .error (.fault _), .error (.wait _) => true | _, _, _ => false) = true := by decide +kernel

/-- Objects of the kinds of latches, operand-cache entries, k registers and system registers. -/
theorem witness_DebugRequestsComplete_kinds :
    ([(2, 0), (2, 15), (3, 1), (3, 3), (4, 0), (4, 7), (7, 0), (7, 15)].all (fun k =>
      let s := (debugged .stop .halted k.1 k.2).modGroup ⟨0, 0⟩ (fun g => { g with
        cache := List.replicate 8 (some (Lanes.splat 3)), history := [(1, Lanes.splat 4), (2, Lanes.splat 5), (3, Lanes.splat 6)] })
      s.debugCheck true true = 0 && !s.debugPending && !s.debugDead && ((s.settleAll ⟨0, 0⟩).group ⟨0, 0⟩).cache.length = 8)) = true
      ∧ (base.group ⟨0, 0⟩).preds.length = 7 := by decide +kernel

/-- Loads of an id that is resident, of a refused read, of a bad header, of one with no room, and an eviction. -/
theorem witness_SurrogateLoadsAndRecoveryComplete_statuses :
    let s := { launched with mem := Memory.writeBytes launched.mem 0x10100 image }
    let w : EngineAs := { core := 0, ctx := 0, user := true, sys := false, physical := false }
    let full := List.replicate 16 (3, (0, 256))
    (match (fetchImage w 0xFE00000000000000).run s with | (.error (.fault _ _), _) => true | _ => false) = true
      ∧ (match (fetchImage w (va 0x20000)).run s with
          | (.ok none, _) => true
          | (.ok (some y), _) => !(imageOf (fun i => y.toArray.getD i 0)).valid (fun i => y.toArray.getD i 0)
          | _ => false) = true
      ∧ 16 ≤ full.length ∧ Table.find (s.core 0).surrogate.resident 1 = none ∧ Table.find full 3 = some (0, 256)
      ∧ (va 0x20000).toNat % 128 = 0 := by decide +kernel

/-- A pending gate whose conditions hold, and a team that is stopped at its limit. -/
theorem witness_LiftAndGateStepsComplete_pending :
    let s := withCore (fun k => { k with gate := .pending })
    (s.core 0).gate = .pending ∧ s.gateHolds 0 = true ∧ isUpper 0 = false
      ∧ ((launched.modTeam ⟨0, 0⟩ (fun t => { t with ending := .stop })).team? ⟨0, 0⟩).map (·.ending) = some .stop := by decide +kernel

/-- A launch of the queue that drains only once its area's page is there. -/
theorem witness_QueueOperationsComplete_lost :
    ([(0, { launch with lost := true })] : List (Nat × Launch)).any (fun l => l.2.queue = 0 && !l.2.draining && l.2.lost) = true := by
  decide +kernel
end Sys2Proof.Tests
end

section
/-! SUPPORT. What an instruction with a register result of fixed latency leaves: the file writes in flight, the flags,
and the frame (07 R159-R164, R168; 05 R129; 08 R193). -/

namespace Sys2Proof.Machine

/-! ### Changes of one group in turn -/

/-- The second of two values set under a key is the one that stays. -/
theorem Table.set_set {α : Type} (t : Table α) (k : Nat) (a b : α) :
    Table.set (Table.set t k a) k b = Table.set t k b := by
  induction t with
  | nil => simp [Table.set]
  | cons e rest ih =>
    obtain ⟨j, c⟩ := e
    by_cases hlt : k < j
    · simp [Table.set, hlt]
    · by_cases heq : k = j
      · simp [Table.set, heq]
      · simp [Table.set, hlt, heq, ih]

/-- Two changes of a listed key are one change. -/
theorem Table.modify_modify {α : Type} (t : Table α) (k : Nat) (f g : α → α) :
    Table.modify (Table.modify t k f) k g = Table.modify t k (fun a => g (f a)) := by
  simp only [Table.modify, List.map_map]
  refine List.map_congr_left fun e _ => ?_
  by_cases h : e.1 = k <;> simp [h]

/-- Two changes of a group are one change. -/
theorem State.modGroup_modGroup (s : State) (r : GroupRef) (f g : Group → Group) :
    (s.modGroup r f).modGroup r g = s.modGroup r (fun h => g (f h)) := by
  simp [State.modGroup, State.modCore, State.setCore, State.core, Table.set_set, Table.modify_modify]

/-- Changes of one group alone, one after the other, are a change of it alone. -/
theorem State.OnlyGroup.trans {s t u : State} {r : GroupRef} (hst : s.OnlyGroup t r) (htu : t.OnlyGroup u r) :
    s.OnlyGroup u r := by
  obtain ⟨f, rfl⟩ := hst
  obtain ⟨g, rfl⟩ := htu
  exact ⟨_, State.modGroup_modGroup s r f g⟩

/-- The issuing group after its change. -/
theorem State.self_modGroup {s : State} (f : Group → Group) (h : (s.group? s.issuing).isSome = true) :
    (s.modGroup s.issuing f).self = f s.self := State.group_modGroup_self s f h

/-! ### A group stays resident -/

/-- A change of a core that keeps its groups leaves a slot filled or empty. -/
theorem State.isSome_group?_modCore (s : State) (c : Nat) (f : Core → Core) (r : GroupRef)
    (h : (f (s.core c)).groups = (s.core c).groups) : ((s.modCore c f).group? r).isSome = (s.group? r).isSome := by
  by_cases hc : r.core = c
  · subst hc; simp [State.group?, h]
  · simp [State.group?, State.core_modCore_of_ne s f hc]

/-- A file write leaves the group's slot filled or empty. -/
theorem State.isSome_group?_writeReg (s : State) (r : GroupRef) (reg : Reg) (mask : Mask) (vals : Lanes) :
    ((s.writeReg r reg mask vals).group? r).isSome = (s.group? r).isSome := by
  unfold State.writeReg
  cases reg with
  | v n =>
    by_cases h : n < 240
    · simp [h]
    · simp only [h, if_false]; exact State.isSome_group?_modCore s _ _ r rfl
  | s n => simp
  | k n => simp

/-- So does a file write that lands. -/
theorem State.isSome_group?_land (s : State) (r : GroupRef) (w : FileWrite) :
    ((s.land r w).group? r).isSome = (s.group? r).isSome := by
  simp [State.land, State.isSome_group?_writeReg]

/-- So do file writes that land in turn. -/
theorem State.isSome_group?_lands (ws : List FileWrite) (s : State) (r : GroupRef) :
    ((ws.foldl (fun s w => s.land r w) s).group? r).isSome = (s.group? r).isSome := by
  induction ws generalizing s with
  | nil => rfl
  | cons w rest ih => rw [List.foldl_cons, ih, State.isSome_group?_land]

/-- So does settling. -/
@[simp] theorem State.isSome_group?_settle (s : State) (r : GroupRef) :
    ((s.settle r).group? r).isSome = (s.group? r).isSome := by
  simp [State.settle, State.isSome_group?_lands]

/-- The issuing group of an instruction that is ready is resident once its checks are passed. -/
theorem State.Ready.resident {s : State} {op : Op} {f : LongFields} {x : Issue} (h : s.Ready op f x) :
    (x.s.group? x.s.issuing).isSome = true := by
  obtain ⟨hres, hprep⟩ := h
  rw [State.prepare_issuing hprep]
  obtain ⟨hs | hs, _⟩ := State.prepare_ok hprep <;> simp [hs, hres]

/-! ### Freed sources and prepared destinations -/

/-- Freeing registers changes the renamed registers, the poison and the writes in flight only. -/
theorem Group.foldl_free_eq (ns : List Nat) (g : Group) :
    ∃ v poison inflight, ns.foldl Group.free g = { g with v := v, poison := poison, inflight := inflight } := by
  induction ns generalizing g with
  | nil => exact ⟨_, _, _, rfl⟩
  | cons n rest ih =>
    obtain ⟨v, poison, inflight, h⟩ := ih (g.free n)
    exact ⟨v, poison, inflight, h⟩

/-- Freed registers are free, and every other register is as it was. -/
theorem Group.find_foldl_free (ns : List Nat) (g : Group) (n : Nat) :
    Table.find (ns.foldl Group.free g).v n = if n ∈ ns then none else Table.find g.v n := by
  induction ns generalizing g with
  | nil => simp
  | cons m rest ih =>
    by_cases h : n = m
    · subst h; simp [ih, Group.free]
    · simp [ih, h, Group.free, Table.find_erase_of_ne g.v h]

/-- Freeing registers puts no write in flight. -/
theorem Group.mem_inflight_of_foldl_free {ns : List Nat} {g : Group} {e : FileWrite}
    (h : e ∈ (ns.foldl Group.free g).inflight) : e ∈ g.inflight := by
  induction ns generalizing g with
  | nil => exact h
  | cons n rest ih => exact (List.mem_filter.mp (ih (g := g.free n) h)).1

/-- `h` is `g` but for the entries that some registers have among the renamed registers. -/
def Group.OnlyEntries (g h : Group) (regs : List Reg) : Prop :=
  ∃ v, h = { g with v := v } ∧ ∀ n, Reg.v n ∉ regs → Table.find v n = Table.find g.v n

/-- Nothing changed. -/
theorem Group.OnlyEntries.refl (g : Group) (regs : List Reg) : g.OnlyEntries g regs := ⟨_, rfl, fun _ _ => rfl⟩

/-- Changes of entries in turn are changes of all of them. -/
theorem Group.OnlyEntries.cons {g h k : Group} {reg : Reg} {regs : List Reg} (hgh : g.OnlyEntries h [reg])
    (hhk : h.OnlyEntries k regs) : g.OnlyEntries k (reg :: regs) := by
  obtain ⟨v, rfl, hv⟩ := hgh
  obtain ⟨w, rfl, hw⟩ := hhk
  refine ⟨w, rfl, fun n hn => ?_⟩
  obtain ⟨hne, hmem⟩ := not_or.mp (mt List.mem_cons.mpr hn)
  exact (hw n hmem).trans (hv n (by simpa using hne))

/-- One entry set. -/
theorem Group.onlyEntries_set (g : Group) (n : Nat) (x : VReg) :
    g.OnlyEntries { g with v := Table.set g.v n x } [.v n] :=
  ⟨_, rfl, fun _ hm => Table.find_set_of_ne g.v x (fun h => hm (by simp [h]))⟩

/-- Allocating a register changes its entry at most (07 R168). -/
theorem Group.onlyEntries_allocate (g : Group) (reg : Reg) : g.OnlyEntries (g.allocate reg) [reg] := by
  unfold Group.allocate
  split
  · split
    · split <;> exact g.onlyEntries_set _ _
    · exact .refl g _
  · exact .refl g _

/-- Compressing a register changes its entry at most (07 R174). -/
theorem Group.onlyEntries_compress (g : Group) (reg : Reg) : g.OnlyEntries (g.compress reg) [reg] := by
  unfold Group.compress
  split
  · split
    · split <;> exact g.onlyEntries_set _ _
    · exact .refl g _
  · exact .refl g _

/-- Changes of one entry each, in turn, change those entries at most. -/
theorem Group.onlyEntries_foldl {prep : Group → Reg → Group}
    (hprep : ∀ (g : Group) reg, g.OnlyEntries (prep g reg) [reg]) (regs : List Reg) (g : Group) :
    g.OnlyEntries (regs.foldl prep g) regs := by
  induction regs generalizing g with
  | nil => exact .refl g _
  | cons reg rest ih => exact (hprep g reg).cons (ih (prep g reg))

/-- Preparing a destination changes the entries of the registers that are written at most. -/
theorem Group.onlyEntries_makeRoom (g : Group) (legacy : Bool) (d : Dest) :
    g.OnlyEntries (g.makeRoom legacy d) (if d.mask = 0 then [] else d.regs) := by
  unfold Group.makeRoom
  by_cases hm : d.mask = 0
  · rw [if_pos hm, if_pos hm]; exact .refl g _
  · rw [if_neg hm, if_neg hm]
    refine Group.onlyEntries_foldl (fun g reg => ?_) d.regs g
    split
    · exact g.onlyEntries_allocate reg
    · exact g.onlyEntries_compress reg

/-! ### The file writes of a result of fixed latency -/

/-- A write put in its place is in flight with those that were. -/
theorem mem_insertWrite {q : List FileWrite} {w e : FileWrite} : e ∈ insertWrite q w ↔ e = w ∨ e ∈ q := by
  induction q with
  | nil => simp [insertWrite]
  | cons y rest ih =>
    by_cases h : w.due < y.due
    · simp [insertWrite, h]
    · simp only [insertWrite, h, if_false, List.mem_cons, ih]; exact or_left_comm

/-- So are writes put in their places in turn. -/
theorem mem_foldl_insertWrite {ws q : List FileWrite} {e : FileWrite} :
    e ∈ ws.foldl insertWrite q ↔ e ∈ ws ∨ e ∈ q := by
  induction ws generalizing q with
  | nil => simp
  | cons w rest ih => simp only [List.foldl_cons, ih, mem_insertWrite, List.mem_cons, or_assoc, or_left_comm]

/-- The file writes of a result (07 R163): none without a lane to write. -/
def Dest.fileWrites (d : Dest) (due : Nat) (legacy : Bool) (words : List Lanes) : List FileWrite :=
  if d.mask = 0 then []
  else (d.regs.zip words).map (fun w =>
    { due := due, reg := w.1, port := takesPort w.1 d.perLane legacy, mask := d.mask, vals := w.2 })

/-- Each word of the result has its file write. -/
theorem Dest.exists_mem_fileWrites {d : Dest} (due : Nat) (legacy : Bool) {words : List Lanes} {k : Nat} {reg : Reg}
    (hm : d.mask ≠ 0) (hk : k < words.length) (hreg : d.regs[k]? = some reg) :
    ∃ e ∈ d.fileWrites due legacy words,
      e.reg = reg ∧ e.due = due ∧ e.mask = d.mask ∧ e.vals = words.getD k Lanes.zero := by
  have hword : words[k]? = some (words.getD k Lanes.zero) := by simp [hk]
  have hmem : (reg, words.getD k Lanes.zero) ∈ d.regs.zip words :=
    List.mem_of_getElem? (List.getElem?_zip_eq_some.mpr ⟨hreg, hword⟩)
  rw [Dest.fileWrites, if_neg hm]
  exact ⟨_, List.mem_map_of_mem hmem, rfl, rfl, rfl, rfl⟩

/-- What the issue of a result of fixed latency changes in its group; the fields not named are as they were. -/
theorem Group.putFixed_eq (g : Group) (cycle : Nat) (legacy : Bool) (f : LongFields) (cls : Nat) (marked : List Nat)
    (d : Dest) (latch : Mask) (result : Bool) (words : List Lanes) :
    ∃ poison copies locks cacheLocks history skid skidLeft,
      g.putFixed cycle legacy f cls marked d latch result words =
        { g with
          pc := g.nextPc, run := g.run + 1, paid := 0, stall := 0, hold := .none, resumeWait := none
          v := ((marked.foldl Group.free g).makeRoom legacy d).v
          inflight := (d.fileWrites (cycle + 4 * cls) legacy words).foldl insertWrite (marked.foldl Group.free g).inflight
          poison := poison, copies := copies, locks := locks, cacheLocks := cacheLocks, history := history
          skid := skid, skidLeft := skidLeft } := by
  obtain ⟨v, poison, inflight, hfree⟩ := Group.foldl_free_eq marked g
  obtain ⟨w, hroom, _⟩ := (marked.foldl Group.free g).onlyEntries_makeRoom legacy d
  unfold Group.putFixed
  rw [hroom, hfree]
  exact ⟨_, _, _, _, _, _, _, rfl⟩

/-! ### An instruction that issues with such a result -/

/-- The group of an instruction that has issued with a result. -/
theorem Issue.finish_self {x : Issue} (hx : (x.s.group? x.s.issuing).isSome = true) (op : Op) (f : LongFields)
    (words : List Lanes) :
    ∃ legacy owed poison copies locks cacheLocks history skid skidLeft, (x.finish op f words).self =
      { x.s.self with
        pc := x.s.self.nextPc, run := x.s.self.run + 1, paid := 0, stall := 0, hold := .none, resumeWait := none
        v := ((x.marked.foldl Group.free x.s.self).makeRoom legacy x.dest).v
        inflight := (x.dest.fileWrites (x.s.cycle + 4 * fixedClass (shape op f)) legacy words).foldl insertWrite
          (x.marked.foldl Group.free x.s.self).inflight
        owed := owed, poison := poison, copies := copies, locks := locks, cacheLocks := cacheLocks, history := history
        skid := skid, skidLeft := skidLeft } := by
  have hself : (x.finish op f words).self = _ := State.self_modGroup _ hx
  obtain ⟨_, _, _, _, _, _, _, hput⟩ := Group.putFixed_eq x.s.self x.s.cycle
    ((x.s.attrs x.s.issuing).decode ≠ 9) f (fixedClass (shape op f)) x.marked x.dest x.latch
    (x.acts || ((shape op f).result = .perLane && !f.u)) words
  dsimp only at hself
  rw [hput] at hself
  exact ⟨_, _, _, _, _, _, _, _, _, hself⟩

/-- It is past the instruction, its marked sources are free, and only the registers of the result are touched. -/
theorem Issue.finish_selfAdvances {x : Issue} (hx : (x.s.group? x.s.issuing).isSome = true) (op : Op) (f : LongFields)
    (words : List Lanes) :
    x.SelfAdvances x.s.self.nextPc (if x.dest.mask = 0 then [] else x.dest.regs) (x.finish op f words) := by
  obtain ⟨legacy, _, _, _, _, _, _, _, _, hself⟩ := Issue.finish_self hx op f words
  obtain ⟨v, hroom, hkeep⟩ := (x.marked.foldl Group.free x.s.self).onlyEntries_makeRoom legacy x.dest
  rw [hroom] at hself
  have hfind : ∀ n, Reg.v n ∉ (if x.dest.mask = 0 then [] else x.dest.regs) →
      Table.find (x.finish op f words).self.v n = if n ∈ x.marked then none else Table.find x.s.self.v n := by
    intro n hn
    rw [hself, ← Group.find_foldl_free]
    exact hkeep n hn
  exact
    { pc := by rw [hself]
      kept := fun n hm hd => by rw [hfind n hd, if_neg hm]
      freed := fun n hm hd => by rw [hfind n hd, if_pos hm]
      s := by rw [hself]
      k := by rw [hself]
      sp := by rw [hself]
      limit := by rw [hself]
      sup := by rw [hself]
      call := by rw [hself]
      status := by rw [hself] }

/-- The words of a result are delivered (07 R163, R168), in a group that is otherwise as it was. -/
theorem Issue.finish_delivers {x : Issue} (hx : (x.s.group? x.s.issuing).isSome = true) (op : Op) (f : LongFields)
    {words : List Lanes} (hw : resultWords op f ≤ words.length) :
    x.Delivers op f (fun k l => (words.getD k Lanes.zero).at' l) (x.finish op f words) := by
  obtain ⟨legacy, _, _, _, _, _, _, _, _, hself⟩ := Issue.finish_self hx op f words
  refine ⟨⟨⟨_, rfl⟩, Issue.finish_selfAdvances hx op f words, by rw [hself]⟩, fun hm k reg hk hreg => ?_,
    fun hm e he => ?_, by rw [hself]⟩
  · obtain ⟨e, he, hereg, hdue, hmask, hvals⟩ := Dest.exists_mem_fileWrites
      (x.s.cycle + 4 * fixedClass (shape op f)) legacy hm (Nat.lt_of_lt_of_le hk hw) hreg
    refine ⟨e, ?_, hereg, hdue, hmask, fun l _ => by rw [hvals]⟩
    rw [hself]
    exact mem_foldl_insertWrite.mpr (.inl he)
  · rw [hself, Dest.fileWrites, if_pos hm] at he
    exact Group.mem_inflight_of_foldl_free he

/-- The group's flags, its masks and its predicates are as they were. -/
theorem Issue.finish_fpst_sameMasks {x : Issue} (hx : (x.s.group? x.s.issuing).isSome = true) (op : Op)
    (f : LongFields) (words : List Lanes) :
    (x.finish op f words).self.fpst = x.s.self.fpst ∧ x.SameMasks (x.finish op f words) := by
  obtain ⟨_, _, _, _, _, _, _, _, _, hself⟩ := Issue.finish_self hx op f words
  rw [Issue.SameMasks, hself]
  exact ⟨rfl, rfl, rfl⟩

/-- What is delivered is told by its words in the lanes that there are. -/
theorem Issue.Delivers.congr {x : Issue} {op : Op} {f : LongFields} {val val' : Nat → Nat → Word} {t : State}
    (h : x.Delivers op f val t) (heq : ∀ k < resultWords op f, ∀ l < 32, val k l = val' k l) :
    x.Delivers op f val' t := by
  obtain ⟨hadv, hwrite, hsilent, hout⟩ := h
  refine ⟨hadv, fun hm k reg hk hreg => ?_, hsilent, hout⟩
  obtain ⟨e, he, hereg, hdue, hmask, hvals⟩ := hwrite hm k reg hk hreg
  exact ⟨e, he, hereg, hdue, hmask, fun l hl => by rw [hvals l hl, heq k hk l hl]⟩

/-! ### Lanes -/

/-- A lane of a vector given lane by lane. -/
@[simp] theorem Lanes.at'_ofFn (f : Nat → Word) {l : Nat} (hl : l < 32) : (Lanes.ofFn f).at' l = f l := by
  simp [Lanes.at', Lanes.ofFn, hl]

/-- A value has the words that are asked for. -/
@[simp] theorem length_wordsOfLanes (n : Nat) (v : Nat → DWord) : (wordsOfLanes n v).length = n := by
  simp [wordsOfLanes]

/-- Each word holds its part of the lane's value. -/
theorem at'_wordsOfLanes {n k l : Nat} (v : Nat → DWord) (hk : k < n) (hl : l < 32) :
    ((wordsOfLanes n v).getD k Lanes.zero).at' l = wordPart (v l) k := by
  simp [wordsOfLanes, hk, hl, wordPart]

/-- The flags of a lane, among those of all lanes. -/
theorem getD_map_snd (out : List (DWord × Flags)) (l : Nat) : (out.map (·.2)).getD l 0 = (out.getD l (0, 0)).2 := by
  rw [List.getD_eq_getElem?_getD, List.getD_eq_getElem?_getD, List.getElem?_map]
  cases out[l]? with
  | none => rfl
  | some _ => rfl

/-- A function of the lane, evaluated: by lane, or under U = 1 at the gate lane (07 R173). -/
theorem Issue.getD_eval {α : Type} (x : Issue) {op : Op} (f : LongFields) (g : Nat → α) (d : α) {l : Nat}
    (hop : laneWise op = false) (hl : l < 32) : (x.eval op f g).getD l d = g (x.operandLane f l) := by
  by_cases hu : f.u = true
  · simp [Issue.eval, Issue.operandLane, hop, hu, hl, -List.reduceReplicate]
  · simp [Issue.eval, Issue.operandLane, hu, hl]

/-! ### Flags (05 R129) -/

/-- Flags ORed into the lanes of a mask. -/
theorem Group.at'_orFlags_fpst (g : Group) (lanes : Mask) (flags : Nat → Flags) {l : Nat} (hl : l < 32) :
    (g.orFlags lanes flags).fpst.at' l =
      if lanes.lane l then g.fpst.at' l ||| (flags l).setWidth 32 else g.fpst.at' l := by
  simp [Group.orFlags, hl]

/-- Raising flags changes, of what the instruction has, the issuing group at most. -/
theorem Issue.withFlags_eq (x : Issue) (lanes : Mask) (flags : List Flags) :
    x.withFlags lanes flags = x ∨ ∃ t, x.s.OnlyGroup t x.s.issuing ∧ x.withFlags lanes flags = { x with s := t } := by
  unfold Issue.withFlags
  by_cases ha : x.acts = true
  · rw [if_pos ha]; exact .inr ⟨_, ⟨_, rfl⟩, rfl⟩
  · rw [if_neg ha]; exact .inl rfl

section WithFlags
variable {x : Issue} (hx : (x.s.group? x.s.issuing).isSome = true) (lanes : Mask) (flags : List Flags)
include hx

/-- The group is still resident. -/
theorem Issue.withFlags_resident :
    ((x.withFlags lanes flags).s.group? (x.withFlags lanes flags).s.issuing).isSome = true := by
  obtain h | ⟨t, ⟨φ, rfl⟩, h⟩ := x.withFlags_eq lanes flags <;> simp [h, hx]

/-- Flags are raised where the instruction acts. -/
theorem Issue.withFlags_self : (x.withFlags lanes flags).s.self =
    if x.acts then x.s.self.orFlags lanes (fun l => flags.getD l 0) else x.s.self := by
  unfold Issue.withFlags
  by_cases ha : x.acts = true
  · rw [if_pos ha, if_pos ha]; exact State.self_modGroup _ hx
  · rw [if_neg ha, if_neg ha]

/-- Of the group they change sr.fpst only. -/
theorem Issue.withFlags_self_eq : ∃ fpst, (x.withFlags lanes flags).s.self = { x.s.self with fpst := fpst } := by
  rw [Issue.withFlags_self hx]
  by_cases ha : x.acts = true
  · rw [if_pos ha]; exact ⟨_, rfl⟩
  · rw [if_neg ha]; exact ⟨_, rfl⟩

/-- In a lane, they are ORed into sr.fpst. -/
theorem Issue.at'_withFlags_fpst {l : Nat} (hl : l < 32) :
    (x.withFlags lanes flags).s.self.fpst.at' l =
      if x.acts && lanes.lane l then x.s.self.fpst.at' l ||| (flags.getD l 0).setWidth 32 else x.s.self.fpst.at' l := by
  rw [Issue.withFlags_self hx]
  by_cases ha : x.acts = true
  · simp only [ha, if_true, Bool.true_and]; exact Group.at'_orFlags_fpst _ _ _ hl
  · simp [ha]

/-- What is delivered after flags were raised is delivered with them. -/
theorem Issue.Delivers.of_withFlags {op : Op} {f : LongFields} {val : Nat → Nat → Word} {t : State}
    (h : (x.withFlags lanes flags).Delivers op f val t) : x.Delivers op f val t := by
  obtain ⟨fpst, hself⟩ := Issue.withFlags_self_eq hx lanes flags
  obtain heq | ⟨u, honly, heq⟩ := x.withFlags_eq lanes flags
  · rwa [heq] at h
  rw [heq] at h hself
  obtain ⟨⟨hgroup, ⟨pc, kept, freed, s, k, sp, limit, sup, call, status⟩, hstack⟩, hwrite, hsilent, hout⟩ := h
  have hissuing : u.issuing = x.s.issuing := by obtain ⟨φ, rfl⟩ := honly; rfl
  have hcycle : u.cycle = x.s.cycle := by obtain ⟨φ, rfl⟩ := honly; rfl
  dsimp only at hself
  simp only [hissuing, hcycle, hself] at hgroup pc kept s k sp limit sup call status hstack hwrite hsilent hout
  exact ⟨⟨honly.trans hgroup, ⟨pc, kept, freed, s, k, sp, limit, sup, call, status⟩, hstack⟩, hwrite, hsilent, hout⟩

/-- An instruction that raises flags and issues with a result delivers its words, with the flags ORed; masks and
predicates stay. -/
theorem Issue.finish_withFlags (op : Op) (f : LongFields) {words : List Lanes} (hw : resultWords op f ≤ words.length) :
    let t := (x.withFlags lanes flags).finish op f words
    x.Delivers op f (fun k l => (words.getD k Lanes.zero).at' l) t
      ∧ (∀ l < 32, t.self.fpst.at' l = if x.acts && lanes.lane l then
          x.s.self.fpst.at' l ||| (flags.getD l 0).setWidth 32 else x.s.self.fpst.at' l)
      ∧ x.SameMasks t := by
  have hres := Issue.withFlags_resident hx lanes flags
  obtain ⟨hfpst, hmasks⟩ := Issue.finish_fpst_sameMasks hres op f words
  obtain ⟨_, hself⟩ := Issue.withFlags_self_eq hx lanes flags
  refine ⟨.of_withFlags hx lanes flags (Issue.finish_delivers hres op f hw), fun l hl => ?_, ?_⟩
  · rw [hfpst, Issue.at'_withFlags_fpst hx lanes flags hl]
  · rwa [Issue.SameMasks, hself] at hmasks

end WithFlags

/-! ### Operations lane by lane (08 R193) -/

/-- A result lane by lane is delivered with its flags; masks and predicates stay. -/
theorem Issue.laneResult_delivers {x : Issue} (hx : (x.s.group? x.s.issuing).isSome = true) {op : Op} (f : LongFields)
    (g : Nat → DWord × Flags) (hop : laneWise op = false) :
    x.Delivers op f (fun k l => wordPart (g (x.operandLane f l)).1 k) (x.laneResult op f g)
      ∧ x.FlagsOred (fun l => (g (x.operandLane f l)).2) (x.laneResult op f g)
      ∧ x.SameMasks (x.laneResult op f g) := by
  have hout : ∀ l < 32, (x.eval op f g).getD l (0, 0) = g (x.operandLane f l) :=
    fun l hl => x.getD_eval f g _ hop hl
  have hflags : ∀ l < 32, ((x.eval op f g).map (·.2)).getD l 0 = (g (x.operandLane f l)).2 :=
    fun l hl => (getD_map_snd _ l).trans (congrArg Prod.snd (hout l hl))
  obtain ⟨hd, hf, hm⟩ := Issue.finish_withFlags hx x.flagLanes ((x.eval op f g).map (·.2)) op f
    (Nat.le_of_eq (length_wordsOfLanes _ (fun l => ((x.eval op f g).getD l (0, 0)).1)).symm)
  refine ⟨hd.congr fun k hk l hl => ?_, fun l hl => (hf l hl).trans ?_, hm⟩
  · rw [at'_wordsOfLanes _ hk hl, hout l hl]
  · rw [hflags l hl]

/-- An instruction of this kind that is ready delivers its value of the operands of each lane, with its flags. -/
theorem State.laneOp_delivers {s : State} {op : Op} {f : LongFields} {x : Issue}
    (g : DWord → DWord → DWord → DWord × Flags) (hop : laneWise op = false) (h : s.Ready op f x) :
    let out := fun l =>
      g (laneVal x.a (x.operandLane f l)) (laneVal x.b (x.operandLane f l)) (laneVal x.c (x.operandLane f l))
    ∃ t, s.laneOp op f g = .next t ∧ x.Delivers op f (fun k l => wordPart (out l).1 k) t
      ∧ x.FlagsOred (fun l => (out l).2) t ∧ x.SameMasks t := by
  obtain ⟨hd, hf, hm⟩ := Issue.laneResult_delivers h.resident f
    (fun l => g (laneVal x.a l) (laneVal x.b l) (laneVal x.c l)) hop
  refine ⟨_, ?_, hd, hf, hm⟩
  rw [State.laneOp, h.2]
  rfl

/-- Without flags, sr.fpst stays. -/
theorem Issue.FlagsOred.fpst_of_zero {x : Issue} {t : State} (h : x.FlagsOred (fun _ => 0) t) :
    ∀ l < 32, t.self.fpst.at' l = x.s.self.fpst.at' l := by
  intro l hl
  simpa using h l hl

/-- As `laneOp_delivers`, for an instruction without flags. -/
theorem State.pureOp_delivers {s : State} {op : Op} {f : LongFields} {x : Issue} (g : DWord → DWord → DWord → DWord)
    (hop : laneWise op = false) (h : s.Ready op f x) :
    ∃ t, s.pureOp op f g = .next t
      ∧ x.Delivers op f (fun k l =>
          let j := x.operandLane f l
          wordPart (g (laneVal x.a j) (laneVal x.b j) (laneVal x.c j)) k) t
      ∧ (∀ l < 32, t.self.fpst.at' l = x.s.self.fpst.at' l) ∧ x.SameMasks t := by
  obtain ⟨t, ht, hd, hf, hm⟩ := State.laneOp_delivers (fun a b c => (g a b c, 0)) hop h
  exact ⟨t, ht, hd, hf.fpst_of_zero, hm⟩

end Sys2Proof.Machine
end

section
/-! fclass (08 R204). -/

namespace Sys2Proof.Machine

/-- The class of a floating-point number in the table of R204, read off its sign, exponent and fraction fields. -/
def FloatFormat.classOf (k : FloatFormat) (a : Nat) : Nat :=
  let m := a % 2 ^ k.fbits
  let e := a / 2 ^ k.fbits % 2 ^ k.ebits
  let neg := a.testBit (k.fbits + k.ebits)
  if e = 2 ^ k.ebits - 1 then
    if m = 0 then (if neg then 0 else 7) else if m.testBit (k.fbits - 1) then 9 else 8
  else if e = 0 then (if m = 0 then (if neg then 3 else 4) else if neg then 2 else 5)
  else if neg then 1 else 6

/-- It is the one that the model takes from the number's value: a significand is 0 for a zero, below 2^fbits for a
subnormal, and at least that for a normal. -/
theorem FloatFormat.classBit_eq_classOf (k : FloatFormat) (a : Nat) : k.classBit a = k.classOf a := by
  have hm : a % 2 ^ k.fbits < 2 ^ k.fbits := Nat.mod_lt _ (Nat.two_pow_pos _)
  unfold FloatFormat.classBit FloatFormat.classOf FloatFormat.value
  rw [Nat.add_comm k.ebits k.fbits]
  dsimp only
  by_cases hinf : a / 2 ^ k.fbits % 2 ^ k.ebits = 2 ^ k.ebits - 1
  · rw [if_pos hinf, if_pos hinf]
    by_cases hz : a % 2 ^ k.fbits = 0
    · simp [hz]
    · cases (a % 2 ^ k.fbits).testBit (k.fbits - 1) <;> simp [hz]
  · rw [if_neg hinf, if_neg hinf]
    by_cases he : a / 2 ^ k.fbits % 2 ^ k.ebits = 0
    · simp [he, hm]
    · have hpos : a % 2 ^ k.fbits + 2 ^ k.fbits ≠ 0 := by omega
      have hge : ¬ a % 2 ^ k.fbits + 2 ^ k.fbits < 2 ^ k.fbits := by omega
      rw [if_neg he, if_neg he]
      dsimp only
      rw [if_neg hpos, if_neg hge]

/-- There are ten classes. -/
theorem FloatFormat.classOf_lt (k : FloatFormat) (a : Nat) : k.classOf a < 10 := by
  unfold FloatFormat.classOf
  dsimp only
  repeat' split
  all_goals decide

/-- A number with one bit set, of its low word, as words. -/
theorem wordPart_two_pow {b : Nat} (hb : b < 32) (k : Nat) :
    wordPart (num64 (2 ^ b)) k = if k = 0 then 1#32 <<< b else 0 := by
  have hv : num64 (2 ^ b) = BitVec.twoPow 64 b := BitVec.eq_of_toNat_eq (by simp [num64, BitVec.toNat_twoPow])
  apply BitVec.eq_of_getLsbD_eq
  intro i hi
  rw [wordPart, hv, BitVec.getLsbD_extractLsb', BitVec.getLsbD_twoPow]
  by_cases hk : k = 0
  · subst hk
    rw [if_pos rfl, ← BitVec.twoPow_eq, BitVec.getLsbD_twoPow]
    grind
  · rw [if_neg hk]
    grind

/-- Either form of fclass writes the class bit of A, lane by lane. -/
theorem exec_fclass {i : Instr} {f : LongFields} (h : i.Has .fclass f) (s : State) :
    exec i s = s.pureOp .fclass f (vecFclass f) := by
  obtain ⟨form, hbuild, rfl⟩ := h
  cases form with
  | short g => cases hbuild; rfl
  | long g => cases hbuild; rfl

end Sys2Proof.Machine

open Sys2Proof Sys2Proof.Machine

/-- Settles O39: fclass is an operation lane by lane without flags, and its value is 2 to the power of the class. -/
theorem fclassWritesOneBit : Obligations.FclassWritesOneBit := by
  intro i f s x hi hr fb eb cls
  obtain ⟨t, ht, hd, hfpst, hmasks⟩ := State.pureOp_delivers (vecFclass f) (rfl : laneWise .fclass = false) hr
  refine ⟨t, (exec_fclass hi s).trans ht, hd.congr fun k _ l _ => ?_, hfpst, hmasks⟩
  let a := (laneVal x.a (x.operandLane f l)).toNat
  change wordPart (num64 (2 ^ (floatFormat f.ty).classBit a)) k
    = if k = 0 then 1#32 <<< (floatFormat f.ty).classOf a else 0
  rw [FloatFormat.classBit_eq_classOf]
  exact wordPart_two_pow (Nat.lt_trans (FloatFormat.classOf_lt _ _) (by decide)) k

end

section
/-! SUPPORT. What memory and the register file hold after a write (07 R163, R172). -/

namespace Sys2Proof.Machine

/-! ### Bytes of memory -/

/-- Below the addresses of a memory every byte is 0. -/
theorem Memory.read_of_lt {m : Memory} {lo a : Nat} (h : Memory.wfAbove lo m = true) (ha : a < lo) :
    Memory.read m a = 0 := by
  cases m with
  | nil => rfl
  | cons e rest =>
    obtain ⟨hlo, _, _⟩ := Memory.wfAbove_cons.mp h
    have hne : e.1 ≠ a := by omega
    have hlt : a < e.1 := by omega
    simp [Memory.read, hne, hlt]

/-- A write sets its byte and leaves every other, above any bound. -/
theorem Memory.read_write_of_wfAbove {m : Memory} {lo : Nat} (h : Memory.wfAbove lo m = true) (a b : Nat) (v : Byte) :
    Memory.read (Memory.write m a v) b = if b = a then v else Memory.read m b := by
  induction m generalizing lo with
  | nil => by_cases hv : v = 0 <;> grind [Memory.write, Memory.read]
  | cons e rest ih =>
    obtain ⟨k, c⟩ := e
    obtain ⟨_, _, hrest⟩ := Memory.wfAbove_cons.mp h
    have hzero : b ≤ k → Memory.read rest b = 0 := fun hb => Memory.read_of_lt hrest (by omega)
    have hwrite := ih hrest
    by_cases hv : v = 0 <;> grind [Memory.write, Memory.read]

/-- A write sets its byte and leaves every other. -/
theorem Memory.read_write {m : Memory} (h : m.wf = true) (a b : Nat) (v : Byte) :
    Memory.read (m.write a v) b = if b = a then v else Memory.read m b :=
  Memory.read_write_of_wfAbove h a b v

/-- Bytes outside a range that is written stay. -/
theorem Memory.read_writeBytes_of_outside {m : Memory} (h : m.wf = true) {a b : Nat} (bs : List Byte)
    (hb : b < a ∨ a + bs.length ≤ b) : Memory.read (m.writeBytes a bs) b = Memory.read m b := by
  induction bs generalizing m a with
  | nil => rfl
  | cons c rest ih =>
    rw [List.length_cons] at hb
    rw [Memory.writeBytes, ih (Memory.wf_write a c h) (by omega), Memory.read_write h, if_neg (by omega)]

/-- What has been written is read. -/
theorem Memory.readBytes_writeBytes {m : Memory} (h : m.wf = true) (a : Nat) (bs : List Byte) :
    (m.writeBytes a bs).readBytes a bs.length = bs := by
  induction bs generalizing m a with
  | nil => rfl
  | cons c rest ih =>
    have hwf := Memory.wf_write a c h
    have hfirst : Memory.read ((m.write a c).writeBytes (a + 1) rest) a = c := by
      rw [Memory.read_writeBytes_of_outside hwf rest (by omega), Memory.read_write h, if_pos rfl]
    have hrest := ih hwf (a + 1)
    rw [Memory.readBytes] at hrest ⊢
    simpa [Memory.writeBytes, List.range_succ_eq_map, Function.comp_def, hfirst, Nat.add_assoc,
      Nat.add_comm 1] using hrest

/-- A number has the bytes that are asked for. -/
@[simp] theorem length_bytesOfNum (n x : Nat) : (bytesOfNum n x).length = n := by
  induction n generalizing x with
  | zero => rfl
  | succ n ih => simp [bytesOfNum, ih]

/-- The bytes of a number hold it, as far as they reach. -/
theorem numOfBytes_bytesOfNum (n x : Nat) : numOfBytes (bytesOfNum n x) = x % 256 ^ n := by
  induction n generalizing x with
  | zero => simp [bytesOfNum, numOfBytes, Nat.mod_one]
  | succ n ih =>
    have hpow : 256 ^ (n + 1) = 256 * 256 ^ n := Nat.pow_succ'
    rw [bytesOfNum, numOfBytes, ih, BitVec.toNat_ofNat, hpow, Nat.mod_mul (a := 256)]

/-- A number that has been written is read. -/
theorem Memory.readNum_writeNum {m : Memory} (h : m.wf = true) (a n x : Nat) :
    (m.writeNum a n x).readNum a n = x % 256 ^ n := by
  have hread := Memory.readBytes_writeBytes h a (bytesOfNum n x)
  rw [length_bytesOfNum] at hread
  rw [Memory.readNum, Memory.writeNum, hread, numOfBytes_bytesOfNum]

/-- A number is read from its bytes. -/
theorem Memory.readNum_congr {m m' : Memory} {a n : Nat} (h : ∀ i < n, Memory.read m' (a + i) = Memory.read m (a + i)) :
    m'.readNum a n = m.readNum a n := by
  unfold Memory.readNum Memory.readBytes
  exact congrArg numOfBytes (List.map_congr_left fun i hi => h i (List.mem_range.mp hi))

/-! ### Lanes in memory -/

/-- Lanes that are stored leave the bytes outside their place. -/
theorem Memory.read_foldl_writeNum_of_outside {m : Memory} (h : m.wf = true) (a : Nat) (x : Lanes) (n : Nat) {b : Nat}
    (hb : b < a ∨ a + 4 * n ≤ b) :
    Memory.read ((List.range n).foldl (fun m l => m.writeNum (a + 4 * l) 4 (x.at' l).toNat) m) b = Memory.read m b := by
  induction n with
  | zero => rfl
  | succ n ih =>
    have hwf := Memory.wf_foldl (fun m l => m.writeNum (a + 4 * l) 4 (x.at' l).toNat) (List.range n)
      (fun _ _ hm => Memory.wf_writeNum _ _ _ hm) h
    rw [List.range_succ, List.foldl_append, List.foldl_cons, List.foldl_nil, Memory.writeNum,
      Memory.read_writeBytes_of_outside hwf _ (by rw [length_bytesOfNum]; omega), ih (by omega)]

/-- Each lane that is stored is read. -/
theorem Memory.readNum_foldl_writeNum {m : Memory} (h : m.wf = true) (a : Nat) (x : Lanes) {n l : Nat} (hl : l < n) :
    Memory.readNum ((List.range n).foldl (fun m l => m.writeNum (a + 4 * l) 4 (x.at' l).toNat) m) (a + 4 * l) 4
      = (x.at' l).toNat := by
  induction n with
  | zero => omega
  | succ n ih =>
    have hwf := Memory.wf_foldl (fun m l => m.writeNum (a + 4 * l) 4 (x.at' l).toNat) (List.range n)
      (fun _ _ hm => Memory.wf_writeNum _ _ _ hm) h
    rw [List.range_succ, List.foldl_append, List.foldl_cons, List.foldl_nil]
    by_cases hln : l = n
    · subst hln
      rw [Memory.readNum_writeNum hwf]
      exact Nat.mod_eq_of_lt (x.at' l).isLt
    · have hlt : l < n := by omega
      rw [← ih hlt]
      exact Memory.readNum_congr fun i hi => Memory.read_writeBytes_of_outside hwf _ (by omega)

/-- Lanes that have been stored are read. -/
theorem Memory.lanes_writeLanes {m : Memory} (h : m.wf = true) (a : Nat) (x : Lanes) :
    (m.writeLanes a x).lanes a = Lanes.ofFn x.at' := by
  refine List.map_congr_left fun l hl => ?_
  rw [Memory.writeLanes, Memory.readNum_foldl_writeNum h a x (List.mem_range.mp hl), BitVec.ofNat_toNat,
    BitVec.setWidth_eq]

/-- Lanes elsewhere are as they were. -/
theorem Memory.lanes_writeLanes_of_disjoint {m : Memory} (h : m.wf = true) {a b : Nat} (x : Lanes)
    (hab : a + 128 ≤ b ∨ b + 128 ≤ a) : (m.writeLanes a x).lanes b = m.lanes b := by
  refine List.map_congr_left fun l hl => ?_
  have hl := List.mem_range.mp hl
  exact congrArg _ (Memory.readNum_congr fun i hi => Memory.read_foldl_writeNum_of_outside h a x 32 (by omega))

/-! ### One value in every lane -/

/-- Every lane of one value. -/
@[simp] theorem Lanes.at'_splat (w : Word) {l : Nat} (hl : l < 32) : (Lanes.splat w).at' l = w := by
  simp [Lanes.at', Lanes.splat, hl, -List.reduceReplicate]

/-- A vector of one value. -/
theorem Lanes.ofFn_eq_splat {f : Nat → Word} {w : Word} (h : ∀ l < 32, f l = w) : Lanes.ofFn f = Lanes.splat w :=
  List.eq_replicate_iff.mpr ⟨by simp [Lanes.ofFn], by simpa [Lanes.ofFn] using h⟩

/-- Every lane is among all the lanes, and the lowest is lane 0. -/
@[simp] theorem Mask.lane_allLanes {l : Nat} (hl : l < 32) : allLanes.lane l = true := by
  simp [Mask.lane, allLanes, hl, -BitVec.reduceAllOnes]

@[simp] theorem lowest_allLanes : allLanes.lowest = some 0 := by decide

/-- A value written in every lane. -/
theorem Lanes.merge_allLanes_splat (w : Word) (old : Lanes) : Lanes.merge allLanes (Lanes.splat w) old = Lanes.splat w :=
  Lanes.ofFn_eq_splat fun l hl => by rw [Mask.lane_allLanes hl, if_pos rfl, Lanes.at'_splat w hl]

end Sys2Proof.Machine
end

section
/-! SUPPORT. What a register reads after file writes that land at once (07 R163, R172). -/

namespace Sys2Proof.Machine

/-! ### A group and its windows after a change elsewhere -/

/-- A change of a core that keeps its groups changes no group. -/
theorem State.group_modCore_of_groups {s : State} {c : Nat} {f : Core → Core}
    (h : (f (s.core c)).groups = (s.core c).groups) (r : GroupRef) : (s.modCore c f).group r = s.group r := by
  by_cases hc : r.core = c
  · subst hc; simp [State.group, State.group?, h]
  · simp [State.group, State.group?, State.core_modCore_of_ne s f hc]

/-- A change of a group changes no window. -/
@[simp] theorem State.win_modGroup (s : State) (r : GroupRef) (f : Group → Group) (c : Nat) :
    ((s.modGroup r f).core c).win = (s.core c).win := by
  by_cases hc : c = r.core
  · subst hc; simp [State.modGroup]
  · rw [State.modGroup, State.core_modCore_of_ne s _ hc]

/-- A register reads the same where its group's registers and its core's windows are the same. -/
theorem State.readReg_congr {s t : State} {r : GroupRef} (hv : (t.group r).v = (s.group r).v)
    (hs : (t.group r).s = (s.group r).s) (hk : (t.group r).k = (s.group r).k)
    (hwin : (t.core r.core).win = (s.core r.core).win) (reg : Reg) : t.readReg r reg = s.readReg r reg := by
  unfold State.readReg
  dsimp only
  rw [hv, hs, hk, hwin]

/-! ### One write -/

/-- The register has storage that a file write reaches (07 R162, R168, R172): an entry of the renamed registers, a place
in a table of uniform registers, or the core's window, in its canonical form. -/
def State.Holds (s : State) (r : GroupRef) (reg : Reg) : Prop :=
  match reg with
  | .v n => if n < 240 then (Table.find (s.group r).v n).isSome = true else Memory.wf (s.core r.core).win = true
  | .s n => n < (s.group r).s.length
  | .k n => n < (s.group r).k.length

/-- Different moored registers have different places in the window. -/
theorem mooredOffset_disjoint (slot : Nat) {m n : Nat} (h : m ≠ n) :
    mooredOffset slot m + 128 ≤ mooredOffset slot n ∨ mooredOffset slot n + 128 ≤ mooredOffset slot m := by
  unfold mooredOffset
  omega

/-- The group with a register other than a moored one written. -/
def Group.wrote (g : Group) (reg : Reg) (mask : Mask) (vals : Lanes) : Group :=
  match reg with
  | .v n =>
    if n < 240 then { g with v := Table.modify g.v n (fun x => { x with vals := Lanes.merge mask vals x.vals }) } else g
  | .s n => { g with s := g.s.set n (vals.at' (mask.lowest.getD 0)) }
  | .k n => { g with k := g.k.set n (vals.at' (mask.lowest.getD 0)) }

/-- That is what a file write does to its group. -/
theorem State.group_writeReg {s : State} {r : GroupRef} (hr : (s.group? r).isSome = true) (reg : Reg) (mask : Mask)
    (vals : Lanes) : (s.writeReg r reg mask vals).group r = (s.group r).wrote reg mask vals := by
  unfold State.writeReg Group.wrote
  cases reg with
  | v n =>
    by_cases hn : n < 240
    · simp only [hn, if_true]; exact State.group_modGroup_self s _ hr
    · simp only [hn, if_false]; exact State.group_modCore_of_groups rfl r
  | s n => exact State.group_modGroup_self s _ hr
  | k n => exact State.group_modGroup_self s _ hr

/-- A core's window with a register of a group's slot written: a moored one has its place there. -/
def Memory.wrote (win : Memory) (slot : Nat) (reg : Reg) (mask : Mask) (vals : Lanes) : Memory :=
  match reg with
  | .v n =>
    if n < 240 then win
    else
      let a := mooredOffset slot (n - 240)
      Memory.writeLanes win a (Lanes.merge mask vals (Memory.lanes win a))
  | _ => win

/-- That is what a file write does to its core's window. -/
theorem State.win_writeReg (s : State) (r : GroupRef) (reg : Reg) (mask : Mask) (vals : Lanes) :
    ((s.writeReg r reg mask vals).core r.core).win = (s.core r.core).win.wrote r.slot reg mask vals := by
  unfold State.writeReg Memory.wrote
  cases reg with
  | v n => by_cases hn : n < 240 <;> simp [hn]
  | s n => simp
  | k n => simp

/-- It keeps the window's form. -/
theorem Memory.wf_wrote {win : Memory} (h : win.wf = true) (slot : Nat) (reg : Reg) (mask : Mask) (vals : Lanes) :
    (win.wrote slot reg mask vals).wf = true := by
  unfold Memory.wrote
  cases reg with
  | v n =>
    by_cases hn : n < 240
    · simpa [hn] using h
    · simpa [hn] using Memory.wf_writeLanes _ _ h
  | s n => exact h
  | k n => exact h

/-- It leaves every other moored register as it was. -/
theorem Memory.lanes_wrote_of_ne {win : Memory} (h : win.wf = true) (slot : Nat) {n : Nat} (hn : ¬ n < 240) {reg : Reg}
    (hne : Reg.v n ≠ reg) (mask : Mask) (vals : Lanes) :
    (win.wrote slot reg mask vals).lanes (mooredOffset slot (n - 240)) = win.lanes (mooredOffset slot (n - 240)) := by
  unfold Memory.wrote
  cases reg with
  | v m =>
    by_cases hm : m < 240
    · simp [hm]
    · have hmn : m ≠ n := fun hmn => hne (hmn ▸ rfl)
      have hplace := mooredOffset_disjoint slot (show m - 240 ≠ n - 240 by omega)
      simpa [hm] using Memory.lanes_writeLanes_of_disjoint h _ hplace
  | s m => rfl
  | k m => rfl

namespace Group
variable (g : Group) (reg : Reg) (mask : Mask) (vals : Lanes)

/-- The same renamed registers have entries. -/
@[simp] theorem isSome_find_wrote (n : Nat) :
    (Table.find (g.wrote reg mask vals).v n).isSome = (Table.find g.v n).isSome := by
  unfold wrote
  cases reg with
  | v m =>
    by_cases hm : m < 240
    · by_cases hn : n = m
      · subst hn; simp [hm]
      · simp [hm, Table.find_modify_of_ne g.v _ hn]
    · simp [hm]
  | s m => rfl
  | k m => rfl

/-- The tables of uniform registers keep their places. -/
@[simp] theorem length_wrote_s : (g.wrote reg mask vals).s.length = g.s.length := by
  unfold wrote
  cases reg with
  | v m => by_cases hm : m < 240 <;> simp [hm]
  | s m => simp
  | k m => rfl

@[simp] theorem length_wrote_k : (g.wrote reg mask vals).k.length = g.k.length := by
  unfold wrote
  cases reg with
  | v m => by_cases hm : m < 240 <;> simp [hm]
  | s m => rfl
  | k m => simp

variable {reg}

/-- Every other register is as it was. -/
theorem find_wrote_of_ne {n : Nat} (h : Reg.v n ≠ reg) :
    Table.find (g.wrote reg mask vals).v n = Table.find g.v n := by
  unfold wrote
  cases reg with
  | v m =>
    have hn : n ≠ m := fun hn => h (hn ▸ rfl)
    by_cases hm : m < 240
    · simp [hm, Table.find_modify_of_ne g.v _ hn]
    · simp [hm]
  | s m => rfl
  | k m => rfl

theorem getD_wrote_s_of_ne {n : Nat} (h : Reg.s n ≠ reg) : (g.wrote reg mask vals).s.getD n 0 = g.s.getD n 0 := by
  unfold wrote
  cases reg with
  | v m => by_cases hm : m < 240 <;> simp [hm]
  | s m =>
    have hn : m ≠ n := fun hn => h (hn ▸ rfl)
    simp [hn]
  | k m => rfl

theorem getD_wrote_k_of_ne {n : Nat} (h : Reg.k n ≠ reg) : (g.wrote reg mask vals).k.getD n 0 = g.k.getD n 0 := by
  unfold wrote
  cases reg with
  | v m => by_cases hm : m < 240 <;> simp [hm]
  | s m => rfl
  | k m =>
    have hn : m ≠ n := fun hn => h (hn ▸ rfl)
    simp [hn]

end Group

section OneWrite
variable {s : State} {r : GroupRef} (hr : (s.group? r).isSome = true)
include hr

/-- A register that has storage reads the value that is written in every lane. -/
theorem State.readReg_writeReg_self {reg : Reg} (h : s.Holds r reg) (w : Word) :
    (s.writeReg r reg allLanes (Lanes.splat w)).readReg r reg = Lanes.splat w := by
  simp only [State.readReg, State.group_writeReg hr, State.win_writeReg, Group.wrote, Memory.wrote, lowest_allLanes,
    Option.getD_some, Lanes.at'_splat w (show 0 < 32 by decide), Lanes.merge_allLanes_splat]
  cases reg with
  | v n =>
    by_cases hn : n < 240
    · simp only [State.Holds, hn, if_true] at h
      obtain ⟨x, hx⟩ := Option.isSome_iff_exists.mp h
      simp [hn, hx]
    · simp only [State.Holds, hn, if_false] at h
      simp only [hn, if_false, Memory.lanes_writeLanes h]
      exact Lanes.ofFn_eq_splat fun l hl => Lanes.at'_splat w hl
  | s n => simp [show n < (s.group r).s.length from h]
  | k n => simp [show n < (s.group r).k.length from h]

/-- A register that has storage keeps it when a register is written. -/
theorem State.Holds.writeReg {reg : Reg} (h : s.Holds r reg) (reg' : Reg) (mask : Mask) (vals : Lanes) :
    (s.writeReg r reg' mask vals).Holds r reg := by
  unfold State.Holds at h ⊢
  cases reg with
  | v n =>
    by_cases hn : n < 240
    · simpa [hn, State.group_writeReg hr] using h
    · simp only [hn, if_false, State.win_writeReg] at h ⊢; exact Memory.wf_wrote h r.slot reg' mask vals
  | s n => simpa [State.group_writeReg hr] using h
  | k n => simpa [State.group_writeReg hr] using h

/-- A write of another register leaves its value. -/
theorem State.Holds.readReg_writeReg_of_ne {reg reg' : Reg} (h : s.Holds r reg) (hne : reg ≠ reg') (mask : Mask)
    (vals : Lanes) : (s.writeReg r reg' mask vals).readReg r reg = s.readReg r reg := by
  unfold State.readReg
  cases reg with
  | v n =>
    by_cases hn : n < 240
    · simp only [hn, if_true, State.group_writeReg hr, Group.find_wrote_of_ne _ mask vals hne]
    · simp only [State.Holds, hn, if_false, State.win_writeReg] at h ⊢
      exact Memory.lanes_wrote_of_ne h r.slot hn hne mask vals
  | s n => simp only [State.group_writeReg hr, Group.getD_wrote_s_of_ne _ mask vals hne]
  | k n => simp only [State.group_writeReg hr, Group.getD_wrote_k_of_ne _ mask vals hne]

end OneWrite

/-- A write changes the registers only. -/
theorem Group.wrote_eq (g : Group) (reg : Reg) (mask : Mask) (vals : Lanes) :
    ∃ v u k, g.wrote reg mask vals = { g with v := v, s := u, k := k } := by
  unfold Group.wrote
  cases reg with
  | v n => by_cases hn : n < 240 <;> simp only [hn, if_true, if_false] <;> exact ⟨_, _, _, rfl⟩
  | s n => exact ⟨_, _, _, rfl⟩
  | k n => exact ⟨_, _, _, rfl⟩

/-! ### Writes that land in turn -/

section Lands
variable {s : State} {r : GroupRef} (hr : (s.group? r).isSome = true)
include hr

/-- A file write that lands changes, of its group, the registers and the poison only. -/
theorem State.group_land (w : FileWrite) :
    ∃ poison, (s.land r w).group r = { (s.group r).wrote w.reg w.mask w.vals with poison := poison } := by
  have hres : ((s.writeReg r w.reg w.mask w.vals).group? r).isSome = true :=
    (State.isSome_group?_writeReg s r w.reg w.mask w.vals).trans hr
  rw [State.land, State.group_modGroup_self _ _ hres, State.group_writeReg hr]
  split <;> exact ⟨_, rfl⟩

/-- It leaves in every register what its write does. -/
theorem State.readReg_land (w : FileWrite) (reg : Reg) :
    (s.land r w).readReg r reg = (s.writeReg r w.reg w.mask w.vals).readReg r reg := by
  obtain ⟨_, hg⟩ := State.group_land hr w
  have hwrote := State.group_writeReg hr w.reg w.mask w.vals
  exact State.readReg_congr (by rw [hg, hwrote]) (by rw [hg, hwrote]) (by rw [hg, hwrote]) (by simp [State.land]) reg

/-- A register that has storage keeps it when a write lands. -/
theorem State.Holds.land {reg : Reg} (h : s.Holds r reg) (w : FileWrite) : (s.land r w).Holds r reg := by
  obtain ⟨_, hg⟩ := State.group_land hr w
  have hkeep := h.writeReg hr w.reg w.mask w.vals
  unfold State.Holds at hkeep ⊢
  rw [State.group_writeReg hr] at hkeep
  rw [hg]
  simpa [State.land] using hkeep

end Lands

/-- Writes that land change, of their group, the registers and the poison only. -/
theorem State.group_lands {r : GroupRef} (ws : List FileWrite) {s : State} (hr : (s.group? r).isSome = true) :
    ∃ v u k poison, (ws.foldl (fun s w => s.land r w) s).group r =
      { s.group r with v := v, s := u, k := k, poison := poison } := by
  induction ws generalizing s with
  | nil => exact ⟨_, _, _, _, rfl⟩
  | cons w rest ih =>
    obtain ⟨v, u, k, poison, hrest⟩ := ih ((State.isSome_group?_land s r w).trans hr)
    obtain ⟨_, hg⟩ := State.group_land hr w
    obtain ⟨_, _, _, hwrote⟩ := (s.group r).wrote_eq w.reg w.mask w.vals
    rw [List.foldl_cons, hrest, hg, hwrote]
    exact ⟨_, _, _, _, rfl⟩

/-- A register that no write names reads as before. -/
theorem State.Holds.readReg_lands_of_not_mem {r : GroupRef} {reg : Reg} (ws : List FileWrite) {s : State}
    (hr : (s.group? r).isSome = true) (h : s.Holds r reg) (hreg : reg ∉ ws.map (·.reg)) :
    (ws.foldl (fun s w => s.land r w) s).readReg r reg = s.readReg r reg := by
  induction ws generalizing s with
  | nil => rfl
  | cons w rest ih =>
    obtain ⟨hne, hrest⟩ := not_or.mp (mt List.mem_cons.mpr hreg)
    rw [List.foldl_cons, ih ((State.isSome_group?_land s r w).trans hr) (h.land hr w) hrest, State.readReg_land hr,
      h.readReg_writeReg_of_ne hr hne]

/-- Of writes of one value in every lane, to different registers, each is read. -/
theorem State.readReg_lands {r : GroupRef} {w : FileWrite} {v : Word} (hmask : w.mask = allLanes)
    (hvals : w.vals = Lanes.splat v) (ws : List FileWrite) {s : State} (hr : (s.group? r).isSome = true)
    (h : s.Holds r w.reg) (hdiff : (ws.map (·.reg)).Nodup) (hmem : w ∈ ws) :
    (ws.foldl (fun s w => s.land r w) s).readReg r w.reg = Lanes.splat v := by
  induction ws generalizing s with
  | nil => simp at hmem
  | cons w' rest ih =>
    have hres := (State.isSome_group?_land s r w').trans hr
    obtain ⟨hfirst, hdiff⟩ := List.nodup_cons.mp hdiff
    obtain rfl | hmem := List.mem_cons.mp hmem
    · rw [List.foldl_cons, (h.land hr w).readReg_lands_of_not_mem rest hres hfirst, State.readReg_land hr, hmask, hvals,
        State.readReg_writeReg_self hr h]
    · exact ih hres (h.land hr w') hdiff hmem

end Sys2Proof.Machine
end

section
/-! SUPPORT. What an instruction of the sequencer without a result in flight leaves (10 R240, R242). -/

namespace Sys2Proof

/-- An instruction whose two forms have one meaning has it in either form (03 R65). -/
theorem Instr.Has.exec_eq {i : Instr} {op : Op} {f : LongFields} (h : i.Has op f) {s : Machine.State}
    {meaning : LongFields → Host.Outcome Machine.State Machine.Fault Machine.Refusal}
    (hshort : ∀ g, ∃ j, op.short g = some j ∧ Machine.exec j s = meaning (g.widen op))
    (hlong : ∀ g, ∃ j, op.long g = some j ∧ Machine.exec j s = meaning g) : Machine.exec i s = meaning f := by
  obtain ⟨form, hbuild, rfl⟩ := h
  cases form with
  | short g =>
    obtain ⟨j, hj, hexec⟩ := hshort g
    obtain rfl : j = i := Option.some.inj (hj.symm.trans hbuild)
    exact hexec
  | long g =>
    obtain ⟨j, hj, hexec⟩ := hlong g
    obtain rfl : j = i := Option.some.inj (hj.symm.trans hbuild)
    exact hexec

namespace Machine

/-- An instruction of the sequencer that is ready does what it does with its operands. -/
theorem State.Ready.plainOp_eq {s : State} {op : Op} {f : LongFields} {x : Issue} (hr : s.Ready op f x)
    (go : Issue → Attempt State) : s.plainOp op f go = s.finish (go x) := by
  rw [State.plainOp, hr.2]
  rfl

/-- A change of the issuing group alone writes no byte of memory or of a window. -/
theorem State.Ready.same_of_onlyGroup {s t : State} {op : Op} {f : LongFields} {x : Issue} (hr : s.Ready op f x)
    (h : x.s.OnlyGroup t x.s.issuing) : s.SameMemory t ∧ x.s.SameWindows t := by
  obtain ⟨hmem, hhost⟩ := State.prepare_mem hr.2
  obtain ⟨φ, rfl⟩ := h
  exact ⟨⟨fun a => by simp [hmem], fun fn a => by simp [hhost]⟩, fun c a => by simp⟩

/-! ### An instruction that issues without a result -/

/-- What it leaves of its group, at the address where the group goes on. -/
theorem Issue.advancesTo_of_issued {x : Issue} {pc : DWord} {t : State} (honly : x.s.OnlyGroup t x.s.issuing)
    (hself : t.self = (x.marked.foldl Group.free x.s.self).issued pc none) :
    x.AdvancesTo pc [] t ∧ x.SameMasks t ∧ (∀ e ∈ t.self.inflight, e ∈ x.s.self.inflight)
      ∧ t.self.outstanding = x.s.self.outstanding := by
  have hfind : ∀ n, Table.find t.self.v n = if n ∈ x.marked then none else Table.find x.s.self.v n := by
    intro n
    rw [hself, ← Group.find_foldl_free]
    rfl
  have hinflight : ∀ e ∈ t.self.inflight, e ∈ x.s.self.inflight := by
    intro e he
    rw [hself] at he
    exact Group.mem_inflight_of_foldl_free he
  obtain ⟨_, _, _, hfree⟩ := Group.foldl_free_eq x.marked x.s.self
  rw [hfree] at hself
  refine ⟨⟨honly, ?_, by rw [hself]; rfl⟩, ⟨by rw [hself]; rfl, by rw [hself]; rfl⟩, hinflight, by rw [hself]; rfl⟩
  exact
    { pc := by rw [hself]; rfl
      kept := fun n hm _ => by rw [hfind n, if_neg hm]
      freed := fun n hm _ => by rw [hfind n, if_pos hm]
      s := by rw [hself]; rfl
      k := by rw [hself]; rfl
      sp := by rw [hself]; rfl
      limit := by rw [hself]; rfl
      sup := by rw [hself]; rfl
      call := by rw [hself]; rfl
      status := by rw [hself]; rfl }

/-- One that goes on after itself passes. -/
theorem Issue.finishPlain_passes {x : Issue} (hx : (x.s.group? x.s.issuing).isSome = true) :
    x.Passes x.finishPlain ∧ x.SameMasks x.finishPlain := by
  obtain ⟨_, _, _, hfree⟩ := Group.foldl_free_eq x.marked x.s.self
  have hpc : (x.marked.foldl Group.free x.s.self).nextPc = x.s.self.nextPc := by rw [hfree]; rfl
  obtain ⟨hadv, hmasks, hinflight, hout⟩ := Issue.advancesTo_of_issued (x := x) (t := x.finishPlain)
    ⟨_, rfl⟩ (State.self_modGroup _ hx)
  rw [hpc] at hadv
  exact ⟨⟨hadv, hinflight, hout⟩, hmasks⟩

/-- One that goes on elsewhere is at its target with bits [1:0] clear (03 R63). -/
theorem Issue.finishAt_advancesTo {x : Issue} (hx : (x.s.group? x.s.issuing).isSome = true) (pc : DWord) :
    x.AdvancesTo (alignTarget pc) [] (x.finishAt pc) ∧ x.SameMasks (x.finishAt pc) := by
  have heq : x.finishAt pc = x.s.modGroup x.s.issuing
      (fun g => (x.marked.foldl Group.free g).issued (alignTarget pc) none) := State.modGroup_modGroup ..
  have hself : (x.finishAt pc).self = (x.marked.foldl Group.free x.s.self).issued (alignTarget pc) none := by
    rw [heq]
    exact State.self_modGroup _ hx
  obtain ⟨hadv, hmasks, _⟩ := Issue.advancesTo_of_issued ⟨_, heq⟩ hself
  exact ⟨hadv, hmasks⟩

end Machine
end Sys2Proof
end

section
/-! The branches, the call and the mask instructions (10 R242, R244). -/

namespace Sys2Proof.Machine

/-! ### Branches -/

/-- A branch that is ready goes to its target and leaves the rest. -/
theorem State.Ready.finishAt_branches {s : State} {op : Op} {f : LongFields} {x : Issue} (hr : s.Ready op f x)
    (pc : DWord) : x.SameMasks (x.finishAt pc) ∧ s.SameMemory (x.finishAt pc) ∧ x.s.SameWindows (x.finishAt pc)
      ∧ x.AdvancesTo (pc &&& ~~~3#64) [] (x.finishAt pc) := by
  obtain ⟨hadv, hmasks⟩ := Issue.finishAt_advancesTo hr.resident pc
  obtain ⟨hmem, hwin⟩ := hr.same_of_onlyGroup hadv.1
  exact ⟨hmasks, hmem, hwin, hadv⟩

/-- A branch on a condition goes to PC + offset where it holds, and past itself otherwise. -/
theorem State.Ready.branches_of_exec {s : State} {op : Op} {f : LongFields} {x : Issue} (hr : s.Ready op f x) {i : Instr}
    {c : Bool} {taken : Prop} (hc : c = true ↔ taken)
    (h : exec i s = .next (x.finishAt (if c then x.s.self.pc + branchOffset x else x.s.self.nextPc))) :
    ∃ t pc, exec i s = .next t ∧ x.SameMasks t ∧ s.SameMemory t ∧ x.s.SameWindows t ∧ x.AdvancesTo pc [] t
      ∧ (taken → pc = (x.s.self.pc + branchOffset x) &&& ~~~3#64) ∧ (¬ taken → pc = x.s.self.nextPc &&& ~~~3#64) := by
  obtain ⟨hmasks, hmem, hwin, hadv⟩ := hr.finishAt_branches (if c then x.s.self.pc + branchOffset x else x.s.self.nextPc)
  refine ⟨_, _, h, hmasks, hmem, hwin, hadv, fun ht => ?_, fun ht => ?_⟩
  · rw [if_pos (hc.mpr ht)]
  · rw [if_neg (mt hc.mp ht)]

/-- Every em lane is among the tested ones (ball). -/
theorem and_eq_right_iff_forall_lane (tested em : Mask) :
    (tested &&& em) = em ↔ ∀ l < 32, em.getLsbD l = true → tested.getLsbD l = true := by
  constructor
  · intro h l _ hem
    have hl : (tested &&& em).getLsbD l = em.getLsbD l := by rw [h]
    simpa [hem] using hl
  · intro h
    refine BitVec.eq_of_getLsbD_eq fun l hl => ?_
    cases hem : em.getLsbD l with
    | false => simp [hem]
    | true => simp [hem, h l hl hem]

/-- No em lane is among the tested ones (bnone). -/
theorem and_eq_zero_iff_forall_lane (tested em : Mask) :
    (tested &&& em) = 0 ↔ ∀ l < 32, em.getLsbD l = true → tested.getLsbD l = false := by
  constructor
  · intro h l _ hem
    have hl : (tested &&& em).getLsbD l = (0 : Mask).getLsbD l := by rw [h]
    simpa [hem] using hl
  · intro h
    refine BitVec.eq_of_getLsbD_eq fun l hl => ?_
    cases hem : em.getLsbD l with
    | false => simp [hem]
    | true => simp [hem, h l hl hem]

/-- Some em lane is among the tested ones (bany). -/
theorem and_ne_zero_iff_exists_lane (tested em : Mask) :
    (tested &&& em) ≠ 0 ↔ ∃ l < 32, em.getLsbD l = true ∧ tested.getLsbD l = true := by
  rw [Ne, and_eq_zero_iff_forall_lane]
  simp

/-! ### call -/

/-- Each of the registers that a preparation changes one entry at a time has an entry, if that is what it makes. -/
theorem Group.isSome_find_foldl {prep : Group → Reg → Group}
    (hprep : ∀ (g : Group) reg, g.OnlyEntries (prep g reg) [reg])
    (hmake : ∀ (g : Group) n, n < 240 → (Table.find (prep g (.v n)).v n).isSome = true) {regs : List Reg} {n : Nat}
    (hn : n < 240) (hmem : Reg.v n ∈ regs) (g : Group) : (Table.find (regs.foldl prep g).v n).isSome = true := by
  induction regs generalizing g with
  | nil => simp at hmem
  | cons reg rest ih =>
    by_cases hrest : Reg.v n ∈ rest
    · exact ih hrest (prep g reg)
    · obtain rfl : Reg.v n = reg := (List.mem_cons.mp hmem).resolve_right hrest
      obtain ⟨v, hv, hkeep⟩ := Group.onlyEntries_foldl hprep rest (prep g (.v n))
      rw [List.foldl_cons, hv]
      exact (congrArg Option.isSome (hkeep n hrest)).trans (hmake g n hn)

/-- Allocating a register makes its entry. -/
theorem Group.isSome_find_allocate (g : Group) {n : Nat} (hn : n < 240) :
    (Table.find (g.allocate (.v n)).v n).isSome = true := by
  simp only [Group.allocate, hn, if_true]
  split <;> simp

/-- So does compressing one. -/
theorem Group.isSome_find_compress (g : Group) {n : Nat} (hn : n < 240) :
    (Table.find (g.compress (.v n)).v n).isSome = true := by
  simp only [Group.compress, hn, if_true]
  split <;> simp

/-- A register of a destination that is written has an entry once the destination is prepared (07 R168). -/
theorem Group.isSome_find_makeRoom (g : Group) (legacy : Bool) {d : Dest} (hd : d.mask ≠ 0) {n : Nat} (hn : n < 240)
    (hmem : Reg.v n ∈ d.regs) : (Table.find (g.makeRoom legacy d).v n).isSome = true := by
  rw [Group.makeRoom, if_neg hd]
  refine Group.isSome_find_foldl (fun g reg => ?_) (fun g n hn => ?_) hn hmem g
  · split
    · exact g.onlyEntries_allocate reg
    · exact g.onlyEntries_compress reg
  · split
    · exact g.isSome_find_allocate hn
    · exact g.isSome_find_compress hn

/-- The words of an operand are different registers. -/
theorem Group.nodup_regsOf (g : Group) (o : Operand) (words : Nat) : (g.regsOf o words).Nodup := by
  refine List.Pairwise.filterMap _ (fun i j hij reg hi reg' hj heq => hij ?_) List.nodup_range
  subst heq
  cases o with
  | v n =>
    obtain rfl := Option.some.inj hi
    have := Reg.v.inj (Option.some.inj hj)
    omega
  | s n =>
    simp only [Group.regAt, Option.some.injEq] at hi hj
    subst hi
    grind
  | o _ => cases hi
  | q _ => cases hi
  | lit => cases hi
  | special _ => cases hi
  | reserved => cases hi

/-- The destination of call: every lane of the registers of D (07 R455; 10 R242). -/
theorem State.dest_call (s : State) (r : GroupRef) (f : LongFields) :
    s.dest r .call f =
      { regs := if f.nwb then [] else (s.group r).regsOf (Operand.ofCode f.d) 2, perLane := false, mask := allLanes } := rfl

/-- So the destination of a call that is ready is at most two registers, which differ. -/
theorem State.Ready.call_dest {s : State} {f : LongFields} {x : Issue} (hr : s.Ready .call f x) :
    x.dest.mask = allLanes ∧ x.dest.regs.Nodup ∧ x.dest.regs.length ≤ 2 := by
  obtain ⟨_, hx⟩ := State.prepare_ok hr.2
  rw [hx]
  simp only [State.issueOf, State.dest_call]
  refine ⟨trivial, ?_, ?_⟩
  · split
    · exact List.nodup_nil
    · exact Group.nodup_regsOf ..
  · split
    · simp
    · exact Nat.le_trans (List.length_filterMap_le ..) (by simp)

/-- The state of a call before its writes land: the marked sources are freed, and D is prepared, with no earlier write of
it in flight. -/
def Issue.calling (x : Issue) : State :=
  x.freed.modSelf (fun g =>
    { g.makeRoom ((x.s.attrs x.s.issuing).decode ≠ 9) x.dest with
      inflight := g.inflight.filter (fun w => !x.dest.regs.contains w.reg) })

/-- Its writes: the next address, in every lane. -/
def Issue.callWrites (x : Issue) : List FileWrite :=
  (x.dest.regs.zip (wordsOfLanes 2 (fun _ => x.s.self.nextPc))).map (fun d =>
    { due := x.s.cycle, reg := d.1, port := false, mask := allLanes, vals := d.2 })

/-- Its state when they have landed. -/
def Issue.called (x : Issue) : State := x.callWrites.foldl (fun s w => s.land x.s.issuing w) x.calling

/-- A call that is ready makes its writes, and goes on at its target. -/
theorem State.Ready.callOp_eq {s : State} {f : LongFields} {x : Issue} (hr : s.Ready .call f x) :
    s.callOp f = .next (x.called.doneAt (x.s.self.pc + branchOffset x)) := by
  rw [State.callOp, hr.plainOp_eq, State.finish_ok, Issue.called, Issue.callWrites, List.foldl_map]
  rfl

/-- The group before the writes of a call land: the registers of D have their entries. -/
theorem Issue.calling_group {x : Issue} (hx : (x.s.group? x.s.issuing).isSome = true) :
    ∃ v poison inflight,
      x.calling.group x.s.issuing = { x.s.self with v := v, poison := poison, inflight := inflight }
      ∧ (x.dest.mask ≠ 0 → ∀ n < 240, Reg.v n ∈ x.dest.regs → (Table.find v n).isSome = true) := by
  have hgroup : x.calling.group x.s.issuing = _ :=
    (congrArg (State.group · x.s.issuing) (State.modGroup_modGroup x.s x.s.issuing _ _)).trans
      (State.group_modGroup_self x.s _ hx)
  have hmake := fun hm n hn => Group.isSome_find_makeRoom (x.marked.foldl Group.free x.s.self)
    ((x.s.attrs x.s.issuing).decode ≠ 9) (d := x.dest) hm (n := n) hn
  obtain ⟨_, _, _, hfree⟩ := Group.foldl_free_eq x.marked x.s.self
  obtain ⟨_, hroom, _⟩ := (x.marked.foldl Group.free x.s.self).onlyEntries_makeRoom
    ((x.s.attrs x.s.issuing).decode ≠ 9) x.dest
  rw [hroom] at hmake
  dsimp only at hgroup
  rw [show x.s.group x.s.issuing = x.s.self from rfl, hroom, hfree] at hgroup
  exact ⟨_, _, _, hgroup, hmake⟩

/-- It is resident. -/
theorem Issue.calling_resident {x : Issue} (hx : (x.s.group? x.s.issuing).isSome = true) :
    (x.calling.group? x.s.issuing).isSome = true := by
  simp [Issue.calling, Issue.freed, State.modSelf, hx]

/-- Where the tables have their places and the window is in its form, D has storage in every word that names a register. -/
theorem Issue.calling_holds {x : Issue} (hx : (x.s.group? x.s.issuing).isSome = true) (hmask : x.dest.mask ≠ 0)
    (hformed : x.s.self.formed = true) (hwin : Memory.wf x.s.selfCore.win = true) {reg : Reg} (hreg : reg ∈ x.dest.regs)
    (hs : ∀ n, reg = .s n → n < 64) (hk : ∀ n, reg = .k n → n < 16) : x.calling.Holds x.s.issuing reg := by
  obtain ⟨_, _, _, hgroup, hentry⟩ := Issue.calling_group hx
  obtain ⟨_, hlens, hlenk, _⟩ : x.s.self.preds.length = 7 ∧ x.s.self.s.length = 64 ∧ x.s.self.k.length = 16
    ∧ x.s.self.fpst.length = 32 := by simpa [Group.formed, and_assoc] using hformed
  unfold State.Holds
  rw [hgroup]
  cases reg with
  | v n =>
    by_cases hn : n < 240
    · simpa [hn] using hentry hmask n hn hreg
    · simpa [hn, Issue.calling, Issue.freed, State.modSelf, State.selfCore] using hwin
  | s n => exact hlens ▸ hs n rfl
  | k n => exact hlenk ▸ hk n rfl

/-- The writes of a call name different registers. -/
theorem Issue.callWrites_nodup {x : Issue} (hdiff : x.dest.regs.Nodup) (hlen : x.dest.regs.length ≤ 2) :
    (x.callWrites.map (·.reg)).Nodup := by
  have hregs : x.callWrites.map (·.reg) = x.dest.regs := by
    simp only [Issue.callWrites, List.map_map, Function.comp_def]
    exact List.map_fst_zip (by simpa using hlen)
  rwa [hregs]

/-- Word `k` of the next address is written to word `k` of D. -/
theorem Issue.mem_callWrites {x : Issue} {k : Nat} {reg : Reg} (hk : k < 2) (hreg : x.dest.regs[k]? = some reg) :
    ∃ w ∈ x.callWrites, w.reg = reg ∧ w.mask = allLanes ∧ w.vals = Lanes.splat (wordPart x.s.self.nextPc k) := by
  have hword : (wordsOfLanes 2 (fun _ => x.s.self.nextPc))[k]? = some (Lanes.splat (wordPart x.s.self.nextPc k)) := by
    have hsplat : Lanes.ofFn (fun _ => x.s.self.nextPc.extractLsb' (32 * k) 32) =
        Lanes.splat (wordPart x.s.self.nextPc k) := Lanes.ofFn_eq_splat fun _ _ => rfl
    simp [wordsOfLanes, hk, hsplat]
  have hmem : (reg, Lanes.splat (wordPart x.s.self.nextPc k)) ∈
      x.dest.regs.zip (wordsOfLanes 2 (fun _ => x.s.self.nextPc)) :=
    List.mem_of_getElem? (List.getElem?_zip_eq_some.mpr ⟨hreg, hword⟩)
  exact ⟨_, List.mem_map_of_mem hmem, rfl, rfl, rfl⟩

/-- The writes of a call that land change the cores only. -/
theorem Issue.called_eq (x : Issue) : x.called = { x.calling with cores := x.called.cores } :=
  State.lands_eq x.callWrites x.calling x.s.issuing

section Called
variable {x : Issue} (hx : (x.s.group? x.s.issuing).isSome = true) (pc : DWord)
include hx

/-- The group is resident once the writes of a call have landed. -/
theorem Issue.called_resident : (x.called.group? x.s.issuing).isSome = true :=
  (State.isSome_group?_lands x.callWrites x.calling x.s.issuing).trans (Issue.calling_resident hx)

/-- What a call leaves of its group: it is at the target, and its masks and predicates are as they were. -/
theorem Issue.doneAt_called :
    (x.called.doneAt pc).self.pc = alignTarget pc ∧ x.SameMasks (x.called.doneAt pc)
    ∧ ∀ reg, (x.called.doneAt pc).readReg x.s.issuing reg = x.called.readReg x.s.issuing reg := by
  have hissuing : x.called.issuing = x.s.issuing := by rw [x.called_eq]; rfl
  obtain ⟨_, _, _, _, hlands⟩ := State.group_lands x.callWrites (Issue.calling_resident hx)
  obtain ⟨_, _, _, hcalling, _⟩ := Issue.calling_group hx
  have hres := Issue.called_resident hx
  have hself : (x.called.doneAt pc).self = (x.called.group x.s.issuing).issued (alignTarget pc) none := by
    rw [← hissuing] at hres ⊢
    exact State.self_modGroup _ hres
  have hgroup : (x.called.doneAt pc).group x.s.issuing = (x.called.group x.s.issuing).issued (alignTarget pc) none := by
    rw [State.doneAt, State.modSelf, hissuing, State.group_modGroup_self _ _ hres]
  refine ⟨by rw [hself]; rfl, ?_, fun reg => State.readReg_congr ?_ ?_ ?_ ?_ reg⟩
  · rw [Issue.SameMasks, hself, Issue.called, hlands, hcalling]
    exact ⟨rfl, rfl⟩
  · rw [hgroup]; rfl
  · rw [hgroup]; rfl
  · rw [hgroup]; rfl
  · simp [State.doneAt, State.modSelf]

end Called

/-- call, complete (10 R242): the group is at the target, its masks and memory as they were, and the next address is in D,
in every lane. -/
theorem State.Ready.call_complete {s : State} {f : LongFields} {x : Issue} (hr : s.Ready .call f x)
    (hformed : x.s.self.formed = true) (hwin : Memory.wf x.s.selfCore.win = true) :
    ∃ t, s.callOp f = .next t ∧ t.self.pc = (x.s.self.pc + branchOffset x) &&& ~~~3#64 ∧ x.SameMasks t ∧ s.SameMemory t
      ∧ ∀ k reg, k < 2 → x.dest.regs[k]? = some reg → (∀ n, reg = .s n → n < 64) → (∀ n, reg = .k n → n < 16) →
          ∀ l < 32, (t.readReg s.issuing reg).at' l = wordPart x.s.self.nextPc k := by
  obtain ⟨hpc, hmasks, hread⟩ := Issue.doneAt_called hr.resident (x.s.self.pc + branchOffset x)
  obtain ⟨hmem, hhost⟩ := State.prepare_mem hr.2
  obtain ⟨hmask, hdiff, hlen⟩ := hr.call_dest
  refine ⟨_, hr.callOp_eq, hpc, hmasks, ?_, fun k reg hk hreg hs hk' l hl => ?_⟩
  · rw [State.SameMemory, State.doneAt, x.called_eq]
    simp [State.modSelf, Issue.calling, Issue.freed, hmem, hhost]
  · obtain ⟨w, hw, rfl, hwmask, hwvals⟩ := Issue.mem_callWrites hk hreg
    have hholds := Issue.calling_holds hr.resident (by rw [hmask]; decide) hformed hwin (List.mem_of_getElem? hreg) hs hk'
    rw [← State.prepare_issuing hr.2, hread, Issue.called,
      State.readReg_lands hwmask hwvals x.callWrites (Issue.calling_resident hr.resident) hholds
        (Issue.callWrites_nodup hdiff hlen) hw]
    exact Lanes.at'_splat _ hl

/-! ### Masks -/

/-- What is delivered is delivered when em changes with it. -/
theorem Issue.Delivers.setEm {x : Issue} {op : Op} {f : LongFields} {val : Nat → Nat → Word} {t : State}
    (h : x.Delivers op f val t) (em : Mask) {t' : State} (ht : t' = t.modGroup x.s.issuing (fun g => { g with em := em }))
    (hself : t'.self = { t.self with em := em }) : x.Delivers op f val t' := by
  obtain ⟨⟨honly, ⟨pc, kept, freed, s, k, sp, limit, sup, call, status⟩, hstack⟩, hwrite, hsilent, hout⟩ := h
  have honly' : x.s.OnlyGroup t' x.s.issuing := honly.trans ⟨_, ht⟩
  refine ⟨⟨honly', ?_, by rw [hself]; exact hstack⟩, by rwa [hself], by rwa [hself], by rwa [hself]⟩
  constructor <;> rw [hself] <;> assumption

/-- The mask instructions, complete (10 R244): em takes its new value, and the old one is delivered in every lane. -/
theorem State.Ready.emOp_complete {s : State} {op : Op} {f : LongFields} {x : Issue} (hr : s.Ready op f x)
    (new : Mask → Mask → Mask) (hwords : resultWords op f = 1) :
    ∃ t, s.emOp op f new = .next t ∧ t.self.em = new x.s.self.em (x.maskOf f) ∧ t.self.preds = x.s.self.preds
      ∧ x.Delivers op f (fun _ _ => x.s.self.em) t ∧ (∀ l < 32, t.self.fpst.at' l = x.s.self.fpst.at' l)
      ∧ s.SameMemory t ∧ x.s.SameWindows t := by
  let u := x.finish op f [Lanes.splat x.s.self.em]
  let em := new x.s.self.em (x.maskOf f)
  let t := u.modSelf (fun g => { g with em := em })
  have hdeliver : x.Delivers op f (fun _ _ => x.s.self.em) u :=
    (Issue.finish_delivers hr.resident op f (by simp [hwords])).congr fun k hk l hl => by
      obtain rfl : k = 0 := by omega
      exact Lanes.at'_splat _ hl
  obtain ⟨hfpst, _, hpreds⟩ := Issue.finish_fpst_sameMasks hr.resident op f [Lanes.splat x.s.self.em]
  have hres : (u.group? u.issuing).isSome = true := by simp [u, Issue.finish, hr.resident]
  have hself : t.self = { u.self with em := em } := State.self_modGroup _ hres
  have hdeliver' : x.Delivers op f (fun _ _ => x.s.self.em) t := hdeliver.setEm em rfl hself
  obtain ⟨hmem, hwin⟩ := hr.same_of_onlyGroup hdeliver'.advances.1
  refine ⟨t, hr.plainOp_eq _, ?_, ?_, hdeliver', fun l _ => ?_, hmem, hwin⟩
  · rw [hself]
  · rw [hself]; exact hpreds
  · rw [hself]; exact congrArg (Lanes.at' · l) hfpst

/-- The mask instructions with the new em, of the old one and M. -/
def maskTable : List (Op × (Mask → Mask → Mask)) :=
  [(.emset, fun _ m => m), (.emand, fun em m => em &&& m), (.emor, fun em m => em ||| m),
    (.emnot, fun em m => em &&& ~~~m)]

/-- Each has one word of result, and its meaning in either form. -/
theorem exec_of_mem_maskTable {op : Op} {new : Mask → Mask → Mask} (h : (op, new) ∈ maskTable) {i : Instr}
    {f : LongFields} (hi : i.Has op f) (s : State) : resultWords op f = 1 ∧ exec i s = s.emOp op f new := by
  simp only [maskTable, List.mem_cons, Prod.mk.injEq, List.not_mem_nil, or_false] at h
  obtain ⟨rfl, rfl⟩ | ⟨rfl, rfl⟩ | ⟨rfl, rfl⟩ | ⟨rfl, rfl⟩ := h <;>
    exact ⟨rfl, hi.exec_eq (fun _ => ⟨_, rfl, rfl⟩) (fun _ => ⟨_, rfl, rfl⟩)⟩

/-! ### Either form of each has its meaning -/

section Meanings
variable {i : Instr} {f : LongFields} (s : State)

theorem exec_nop (h : i.Has .nop f) : exec i s = s.nopOp f :=
  h.exec_eq (fun _ => ⟨_, rfl, rfl⟩) (fun _ => ⟨_, rfl, rfl⟩)

theorem exec_bra (h : i.Has .bra f) : exec i s = s.braOp f :=
  h.exec_eq (fun _ => ⟨_, rfl, rfl⟩) (fun _ => ⟨_, rfl, rfl⟩)

theorem exec_brx (h : i.Has .brx f) : exec i s = s.jumpOp .brx f :=
  h.exec_eq (fun _ => ⟨_, rfl, rfl⟩) (fun _ => ⟨_, rfl, rfl⟩)

theorem exec_ret (h : i.Has .ret f) : exec i s = s.jumpOp .ret f :=
  h.exec_eq (fun _ => ⟨_, rfl, rfl⟩) (fun _ => ⟨_, rfl, rfl⟩)

theorem exec_bany (h : i.Has .bany f) : exec i s = s.predBranch .bany f (fun t _ => t ≠ 0) :=
  h.exec_eq (fun _ => ⟨_, rfl, rfl⟩) (fun _ => ⟨_, rfl, rfl⟩)

theorem exec_ball (h : i.Has .ball f) : exec i s = s.predBranch .ball f (fun t em => t = em) :=
  h.exec_eq (fun _ => ⟨_, rfl, rfl⟩) (fun _ => ⟨_, rfl, rfl⟩)

theorem exec_bnone (h : i.Has .bnone f) : exec i s = s.predBranch .bnone f (fun t _ => t = 0) :=
  h.exec_eq (fun _ => ⟨_, rfl, rfl⟩) (fun _ => ⟨_, rfl, rfl⟩)

theorem exec_call (h : i.Has .call f) : exec i s = s.callOp f :=
  h.exec_eq (fun _ => ⟨_, rfl, rfl⟩) (fun _ => ⟨_, rfl, rfl⟩)

end Meanings

end Sys2Proof.Machine

open Sys2Proof Sys2Proof.Machine

/-- Settles O9: a branch ends in a jump to its target, call in one after its writes have landed in D, and a mask
instruction delivers the old em as a result of fixed latency. -/
theorem branchesAndMaskInstructionsComplete : Obligations.BranchesAndMaskInstructionsComplete := by
  refine ⟨fun i op f s x hi hr => ?_, fun op new hop i f s x hi hr => ?_⟩
  · refine ⟨?nop, ?bra, ?jump, ?bany, ?ball, ?bnone, ?call⟩
    case nop =>
      rintro rfl
      obtain ⟨hpass, hmasks⟩ := Issue.finishPlain_passes hr.resident
      obtain ⟨hmem, hwin⟩ := hr.same_of_onlyGroup hpass.advances.1
      exact ⟨_, (exec_nop s hi).trans (hr.plainOp_eq _), hpass, hmasks, hmem, hwin⟩
    case bra =>
      rintro rfl
      exact hr.branches_of_exec (c := true) (by simp) ((exec_bra s hi).trans (hr.plainOp_eq _))
    case jump =>
      rintro (rfl | rfl)
      · exact ⟨_, (exec_brx s hi).trans (hr.plainOp_eq _), hr.finishAt_branches _⟩
      · exact ⟨_, (exec_ret s hi).trans (hr.plainOp_eq _), hr.finishAt_branches _⟩
    case bany =>
      rintro rfl
      refine hr.branches_of_exec ?_ ((exec_bany s hi).trans (hr.plainOp_eq _))
      exact decide_eq_true_iff.trans (and_ne_zero_iff_exists_lane _ _)
    case ball =>
      rintro rfl
      refine hr.branches_of_exec ?_ ((exec_ball s hi).trans (hr.plainOp_eq _))
      exact decide_eq_true_iff.trans (and_eq_right_iff_forall_lane _ _)
    case bnone =>
      rintro rfl
      refine hr.branches_of_exec ?_ ((exec_bnone s hi).trans (hr.plainOp_eq _))
      exact decide_eq_true_iff.trans (and_eq_zero_iff_forall_lane _ _)
    case call =>
      rintro rfl hformed hwin
      obtain ⟨t, ht, hrest⟩ := hr.call_complete hformed hwin
      exact ⟨t, (exec_call s hi).trans ht, hrest⟩
  · obtain ⟨hwords, hexec⟩ := exec_of_mem_maskTable hop hi s
    obtain ⟨t, ht, hrest⟩ := hr.emOp_complete new hwords
    exact ⟨t, hexec.trans ht, hrest⟩

end
